-- ==== Sys2Proof/Word.lean ====
section
/-!
DEFINITION. The word types of the machine and their plainest arithmetic (R2, R14, R62): bytes, 32-bit lane words,
64-bit generator and hart words, 96-bit instruction words, the 32 lanes of a group and its lane masks.
-/

namespace Sys2Proof

/-- One byte of storage. -/
abbrev Byte := BitVec 8
/-- One lane of a register (R14). -/
abbrev Word := BitVec 32
/-- A generator register, an address, a hart register (R62, R203). -/
abbrev DWord := BitVec 64
/-- An instruction word (R28). -/
abbrev IWord := BitVec 96
/-- One bit per lane; bit l belongs to lane l (R126). -/
abbrev Mask := BitVec 32
/-- The 32 lanes of one register (R17). -/
abbrev Lanes := Vector Word 32
/-- The six-bit format tag of a register (R43). -/
abbrev Tag := BitVec 6

/-- The lanes a function gives, lane by lane. -/
def lanesOf (f : Fin 32 → Word) : Lanes := Vector.ofFn f

/-- The same word in every lane. -/
def lanesAll (w : Word) : Lanes := Vector.replicate 32 w

/-- One lane of a register. -/
def lane (v : Lanes) (l : Fin 32) : Word := v[l]

@[simp] theorem lane_lanesOf (f : Fin 32 → Word) (l : Fin 32) : lane (lanesOf f) l = f l := by
  simp [lane, lanesOf]

@[simp] theorem lane_lanesAll (w : Word) (l : Fin 32) : lane (lanesAll w) l = w := by
  simp [lane, lanesAll]

/-- Whether lane l is set in a mask. -/
def inMask (m : Mask) (l : Fin 32) : Bool := m.getLsbD l.val

/-- The lanes in ascending order (R6). -/
def allLanes : List (Fin 32) := List.finRange 32

/-- The lanes of a mask, in ascending order (R6). -/
def maskLanes (m : Mask) : List (Fin 32) := allLanes.filter (inMask m)

/-- The mask of the lanes for which a test holds. -/
def maskOf (p : Fin 32 → Bool) : Mask :=
  allLanes.foldl (fun m l => if p l then m ||| (1#32 <<< l.val) else m) 0#32

/-- The lowest-numbered lane of a mask, lane 0 when it is empty (R113). -/
def lowestLane (m : Mask) : Fin 32 := (maskLanes m).headD 0

/-- Ceiling of a quotient of naturals. -/
def ceilDiv (a b : Nat) : Nat := (a + b - 1) / b

end Sys2Proof
end

