-- ==== Sys2Proof/Syntax.lean ====
section
/-!
DEFINITION. The syntax of the machine: operand codes (R31), extensions (R34), guards (R40), hints (R41), the fields of a
group word (R28), of a generator word (R30), of a paired word (R50), the agents and the data of the part's events, and the
ONE inductive of everything the part does, one constructor per row of the opcode table.
-/

namespace Sys2Proof

/-- An operand code of a group word (R31). Every other code is illegal and has no term. -/
inductive Operand where
  | v (n : Fin 768)
  | o (n : Fin 32)
  | y0
  | y1
  | zero
  deriving DecidableEq, Repr

/-- The extension of a word: its kind XK with what X then holds (R34). -/
inductive Ext where
  | none
  | reg (o : Operand)
  | imm (x : BitVec 20)
  | cref (window : BitVec 3) (off : BitVec 17)
  | rel (x : BitVec 20)
  | shifted (x : BitVec 20)
  deriving DecidableEq, Repr

/-- The guard field G (R40): register 31 means always. -/
structure Guard where
  neg : Bool
  reg : BitVec 5
  deriving DecidableEq, Repr

/-- The hint field H (R41). -/
structure Hints where
  dist   : BitVec 3
  wait   : BitVec 12
  switch : Bool
  signal : BitVec 4
  deriving DecidableEq, Repr

/-- Everything of a group word but its opcode (R28). -/
structure Fields where
  sub   : BitVec 8
  d     : Operand
  a     : Operand
  b     : Operand
  ext   : Ext
  guard : Guard
  hints : Hints
  deriving DecidableEq, Repr

/-- Everything of a generator word but its opcode (R30): D, A and B name g0-g63, G and H are zero. -/
structure GenFields where
  sub : BitVec 8
  d   : BitVec 6
  a   : BitVec 6
  b   : BitVec 6
  ext : Ext
  deriving DecidableEq, Repr

/-- Everything of a paired word but its opcode (R50). -/
structure PairFields where
  p0 : BitVec 5
  d0 : BitVec 8
  a0 : BitVec 8
  b0 : BitVec 8
  p1 : BitVec 5
  d1 : BitVec 8
  a1 : BitVec 8
  b1 : BitVec 8
  guard : Guard
  hints : Hints
  deriving DecidableEq, Repr

namespace Fields

/-- TY of layouts I, F, C and X (R49). -/
def ty (f : Fields) : Nat := (f.sub >>> 4).toNat
/-- SAT of layout I (R49). -/
def sat (f : Fields) : Bool := f.sub.getLsbD 3
/-- VAR of layouts I, X and S (R49). -/
def var3 (f : Fields) : Nat := (f.sub &&& 7#8).toNat
/-- VAR of layout F (R49). -/
def varF (f : Fields) : Bool := f.sub.getLsbD 0
/-- RM of layout F (R49). -/
def rmF (f : Fields) : Nat := ((f.sub >>> 1) &&& 7#8).toNat
/-- CC of layout C (R49). -/
def cc (f : Fields) : Nat := (f.sub &&& 15#8).toNat
/-- EXC of layout X (R49). -/
def exc (f : Fields) : Bool := f.sub.getLsbD 3
/-- The binary8 index of layout Q (R49). -/
def qIndex (f : Fields) : Nat := (f.sub >>> 3).toNat
/-- FC of layout K (R49). -/
def fc (f : Fields) : Nat := (f.sub >>> 2).toNat
/-- OV of layout K (R49): true is saturation. -/
def ov (f : Fields) : Bool := (f.sub &&& 3#8) == 1#8
/-- SC of layout S (R49). -/
def sc (f : Fields) : Nat := (f.sub >>> 5).toNat
/-- SEM of layout S (R49). -/
def semS (f : Fields) : Nat := ((f.sub >>> 3) &&& 3#8).toNat
/-- SZ of layout M (R49). -/
def sz (f : Fields) : Nat := (f.sub >>> 5).toNat
/-- SX of layout M (R49). -/
def sx (f : Fields) : Bool := f.sub.getLsbD 4
/-- CH of layout M (R49). -/
def ch (f : Fields) : Nat := ((f.sub >>> 2) &&& 3#8).toNat
/-- AOP of layout A (R49). -/
def aop (f : Fields) : Nat := (f.sub >>> 4).toNat
/-- W of layout A (R49): 64-bit. -/
def w64 (f : Fields) : Bool := f.sub.getLsbD 3
/-- SEM of layout A (R49). -/
def semA (f : Fields) : Nat := ((f.sub >>> 1) &&& 3#8).toNat
/-- TL of layout T (R49). -/
def tl (f : Fields) : Nat := (f.sub >>> 4).toNat
/-- MP of layout T (R49). -/
def mp (f : Fields) : Nat := (f.sub &&& 15#8).toNat
/-- imm20 of the word, zero when its extension is not kind 2 (R39). -/
def imm20 (f : Fields) : BitVec 20 := match f.ext with
  | .imm x => x
  | _ => 0#20
/-- RM of the control field of CVT, CVTQ, CVTD and ACCST (R49). -/
def rmCtl (f : Fields) : Nat := ((f.imm20 >>> 11) &&& 7#20).toNat
/-- FC of the control field of CVT, CVTQ, CVTD and ACCST (R49). -/
def fcCtl (f : Fields) : Nat := (f.imm20 >>> 14).toNat
/-- The counter the word signals, none for 15 (R41). -/
def signal (f : Fields) : Option Nat := if f.hints.signal == 15#4 then Option.none else some f.hints.signal.toNat

end Fields

/-- A group, named by its place: core, sub-partition, slot, fibre (R17, R128). -/
structure GroupRef where
  core : Nat
  sub  : Nat
  slot : Nat
  fib  : Nat
  deriving DecidableEq, Repr

/-- A generator context, named by its core and number (R62). -/
structure CtxRef where
  core : Nat
  ctx  : Nat
  deriving DecidableEq, Repr

/-- A hart, named by its slice and number (R393). -/
structure HartRef where
  slice : Nat
  hart  : Nat
  deriving DecidableEq, Repr

/-- The agents of the model that the specification lists (R234), and the part's own units (R12, R23). -/
inductive Agent where
  | group (g : GroupRef)
  | ctx (c : CtxRef)
  | hart (h : HartRef)
  | device (slice : Nat) (rid : BitVec 16)
  | copy (core id : Nat)
  | launchUnit (part : Nat)
  | markhor
  | none
  deriving DecidableEq, Repr

/-- An answer of the fault server to a record (R336). -/
structure Answer where
  level : Bool
  ftag  : BitVec 16
  entry : Byte
  place : Word
  deriving DecidableEq, Repr

/-- A segment of a CPYN as it arrives at a remote port (R275, R402). -/
structure AdeserSegment where
  sender : BitVec 128
  key    : DWord
  put    : Bool
  offset : DWord
  data   : List Byte
  len    : Nat
  deriving DecidableEq, Repr

/-- The storages and links whose errors are detected (R405), each with where the error arose. -/
inductive ErrorSite where
  | hbmLine (part line : Nat)
  | lineMac (part line : Nat)
  | mscLine (part line way : Nat) (dirty : Bool)
  | l1Line (core line : Nat)
  | register (core sub index : Nat)
  | tile (core sub index : Nat)
  | granule (core index : Nat)
  | emitBlock (core block : Nat)
  | parity (core : Nat) (unit : Nat) (entry : Nat)
  | meshLink (slice : Nat) (dir : Fin 4)
  | ethernet (slice : Nat)
  | pcie (slice : Nat)
  | hartCache (h : HartRef) (line : Nat) (dirty : Bool)
  deriving DecidableEq, Repr

/-- A unit that a spare replaces (R410). -/
inductive SpareUnit where
  | subPartition (core sub : Nat)
  | core (core : Nat)
  | lane (slice : Nat)
  deriving DecidableEq, Repr

/-- An access of a hart to memory (R235, R393). -/
inductive HartAcc where
  | load (rd : BitVec 5) (addr : DWord) (size : Nat) (signed : Bool)
  | store (addr : DWord) (size : Nat) (value : DWord)
  | amo (rd : BitVec 5) (op : Nat) (addr : DWord) (size : Nat) (value : DWord)
  | amocas (rd : BitVec 5) (addr : DWord) (size : Nat) (expected value : DWord)
  | loadReserved (rd : BitVec 5) (addr : DWord) (size : Nat)
  | storeConditional (rd : BitVec 5) (addr : DWord) (size : Nat) (value : DWord)
  | cboZero (addr : DWord)
  | cboClean (addr : DWord)
  | cboInval (addr : DWord)
  deriving DecidableEq, Repr

/-- What the part does: one constructor per row of the table of operations and events. The instructions of the
generator, group and hart classes have encodings; the other rows are events, which no word encodes and which the
machine's agenda names. -/
inductive Instr where
  /-- GALU (R68). Generator scalar ALU operation on g-registers with a register or immediate operand. -/
  | galu (f : GenFields)
  /-- GMOVI (R69). Replaces one 20-bit chunk of a g-register with the raw immediate. -/
  | gmovi (f : GenFields)
  /-- GLD (R72). Generator load of 1 to 8 bytes into a g-register, zero- or sign-extended. -/
  | gld (f : GenFields)
  /-- GST (R72). Generator store of the low 1 to 8 bytes of a g-register. -/
  | gst (f : GenFields)
  /-- GBR (R70). Generator conditional relative branch on a comparison of two g-registers. -/
  | gbr (f : GenFields)
  /-- GJMP (R70). Generator jump to a relative target. -/
  | gjmp (f : GenFields)
  /-- GJMP_REG (R70). Generator jump to the word index held in a g-register. -/
  | gjmpReg (f : GenFields)
  /-- GCALL (R70). Writes the link to gD, then jumps to a relative target. -/
  | gcall (f : GenFields)
  /-- GCALL_REG (R70). Writes the link to gD, then jumps to the word index in gA. -/
  | gcallReg (f : GenFields)
  /-- GRET (R70). Generator jump to the word index in gA. -/
  | gret (f : GenFields)
  /-- GEMIT (R86). Validates one 96-bit word from a g-register pair and appends it to the open block's emit queue. -/
  | gemit (f : GenFields)
  /-- GEMITT (R87). Patches the selected fields of a template word and emits the result. -/
  | gemitt (f : GenFields)
  /-- GEMITB (R88). Copies n template words unchanged into the open block, validating each. -/
  | gemitb (f : GenFields)
  /-- GBLKOPEN (R79). Opens a new emit-store block of the requested capacity, or waits for space. -/
  | gblkopen (f : GenFields)
  /-- GBLKSEAL (R80). Waits for the emit queue to drain, seals the open block and registers it under a key. -/
  | gblkseal (f : GenFields)
  /-- GBLKFIND (R81). Returns the handle of the sealed block registered under a key, or null. -/
  | gblkfind (f : GenFields)
  /-- GBLKFREE (R82). Releases a sealed block, or the context's own open block, and deletes its key registration. -/
  | gblkfree (f : GenFields)
  /-- GBLKLOAD (R88). Copies n words from global memory into the open block, validating each. -/
  | gblkload (f : GenFields)
  /-- GSTART (R91). Starts up to NGRP groups in a sealed block from a start descriptor and returns the number started. -/
  | gstart (f : GenFields)
  /-- GENTRY (R92). Sets or clears an entry of the team's entry table with a handle and a start descriptor. -/
  | gentry (f : GenFields)
  /-- GWAITB (R83). Waits until a block is idle, with an optional bound. -/
  | gwaitb (f : GenFields)
  /-- GYIELD (R93). Makes the generator context not ready for n clocks. -/
  | gyield (f : GenFields)
  /-- GEXIT (R94). Ends the generator context and releases its open block. -/
  | gexit (f : GenFields)
  /-- GACQ (R74). Generator acquire of a sync cell, shared or exclusive. -/
  | gacq (f : GenFields)
  /-- GREL (R74). Generator release of a sync cell. -/
  | grel (f : GenFields)
  /-- GRDSR (R71). Reads a special register as the team sees it into a g-register. -/
  | grdsr (f : GenFields)
  /-- GATOM (R73). Generator atomic at partition scope with the given semantics, returning the old value. -/
  | gatom (f : GenFields)
  /-- GFENCE (R74). Generator fence over the whole first-level cache at a scope. -/
  | gfence (f : GenFields)
  /-- NOP (R122). No effect beyond its hints. -/
  | nop (f : Fields)
  /-- BRA (R114). Unconditional relative branch. -/
  | bra (f : Fields)
  /-- BRC (R114). Relative branch on any, all or none of the guarded active set. -/
  | brc (f : Fields)
  /-- BRX (R115). Transfer through a code address in the leader lane plus an offset, after the block checks. -/
  | brx (f : Fields)
  /-- CALL (R116). Writes the link code address to all lanes, then transfers to a relative target. -/
  | call (f : Fields)
  /-- CALL_REG (R116). Writes the link, then transfers through the code address in A. -/
  | callReg (f : Fields)
  /-- RET (R116). Transfers through the code address in A. -/
  | ret (f : Fields)
  /-- LOOP (R117). Decrements the leader lane's count into all lanes and branches while it is nonzero. -/
  | loop (f : Fields)
  /-- MASK (R118). Reads or changes the execution mask and returns the old mask. -/
  | mask (f : Fields)
  /-- SPAWN (R119). Non-blocking request to create up to 32 groups at an entry of the team's entry table. -/
  | spawn (f : Fields)
  /-- EXIT (R121). Retires the group once its counters are zero and its operand log is empty. -/
  | exit (f : Fields)
  /-- YIELD (R122). Passes the slot to the next ready fibre. -/
  | yield (f : Fields)
  /-- FBAR (R123). Arrival at a fibre barrier of the slot, with release when the named fibres have arrived. -/
  | fbar (f : Fields)
  /-- WAITC (R124). Waits until a counter is at or below an immediate threshold. -/
  | waitc (f : Fields)
  /-- WAITC_REG (R124). Waits until a counter is at or below the threshold held in A in the leader lane. -/
  | waitcReg (f : Fields)
  /-- IADD (R139). Integer add, element by element, wrapping or saturating. -/
  | iadd (f : Fields)
  /-- ISUB (R139). Integer subtract, element by element, wrapping or saturating. -/
  | isub (f : Fields)
  /-- IMUL (R139). Integer multiply keeping the low bits, or clamped under .sat. -/
  | imul (f : Fields)
  /-- IMULH (R140). High 32 bits of the exact 64-bit product. -/
  | imulh (f : Fields)
  /-- IMAD (R139). Exact multiply-add with one wrap or clamp. -/
  | imad (f : Fields)
  /-- IMULW (R140). Full 64-bit product written to a register pair. -/
  | imulw (f : Fields)
  /-- IDIV (R142). Integer divide or remainder in the special-function unit, signalled by a counter. -/
  | idiv (f : Fields)
  /-- IMIN (R139). Integer minimum. -/
  | imin (f : Fields)
  /-- IMAX (R139). Integer maximum. -/
  | imax (f : Fields)
  /-- IABS (R139). Integer absolute value, wrapping or saturating. -/
  | iabs (f : Fields)
  /-- AND (R143). Bitwise and, writing the tag of its type. -/
  | and (f : Fields)
  /-- OR (R143). Bitwise or. -/
  | or (f : Fields)
  /-- XOR (R143). Bitwise exclusive or. -/
  | xor (f : Fields)
  /-- ANDN (R143). Bitwise and with the complement of the second source. -/
  | andn (f : Fields)
  /-- SHL (R144). Shift left by an unmasked count. -/
  | shl (f : Fields)
  /-- SHR (R144). Logical shift right by an unmasked count. -/
  | shr (f : Fields)
  /-- SRA (R144). Arithmetic shift right by an unmasked count. -/
  | sra (f : Fields)
  /-- ROT (R144). Rotate left or right by the count modulo 32. -/
  | rot (f : Fields)
  /-- SHF (R144). Funnel shift of a 64-bit concatenation. -/
  | shf (f : Fields)
  /-- BFX (R145). Bit-field extract, sign- or zero-extended. -/
  | bfx (f : Fields)
  /-- BFI (R145). Bit-field insert. -/
  | bfi (f : Fields)
  /-- POPC (R146). Population count. -/
  | popc (f : Fields)
  /-- CLZ (R146). Count of leading zeros. -/
  | clz (f : Fields)
  /-- CTZ (R146). Count of trailing zeros. -/
  | ctz (f : Fields)
  /-- BREV (R146). Bit reversal. -/
  | brev (f : Fields)
  /-- ICMP (R147). Integer compare writing a PRED result. -/
  | icmp (f : Fields)
  /-- SEL (R143). Selects A or B in each lane by the condition C. -/
  | sel (f : Fields)
  /-- MOV (R143). Writes a register, immediate or constant unchanged with the tag of its type. -/
  | mov (f : Fields)
  /-- IADD64 (R148). 64-bit add on register pairs. -/
  | iadd64 (f : Fields)
  /-- ISUB64 (R148). 64-bit subtract on register pairs. -/
  | isub64 (f : Fields)
  /-- LEA (R149). Forms a 64-bit address from a base pair, a scaled index and an offset. -/
  | lea (f : Fields)
  /-- ISAD (R141). Sum of absolute differences plus an addend. -/
  | isad (f : Fields)
  /-- FADD (R159). FP32 add with one rounding. -/
  | fadd (f : Fields)
  /-- FSUB (R159). FP32 subtract with one rounding. -/
  | fsub (f : Fields)
  /-- FMUL (R159). FP32 multiply with one rounding. -/
  | fmul (f : Fields)
  /-- FFMA (R159). FP32 fused multiply-add with one rounding. -/
  | ffma (f : Fields)
  /-- FMIN (R160). IEEE minimumNumber. -/
  | fmin (f : Fields)
  /-- FMAX (R160). IEEE maximumNumber. -/
  | fmax (f : Fields)
  /-- FCMP (R161). FP32 compare writing a PRED result. -/
  | fcmp (f : Fields)
  /-- FRND (R162). Rounds to an integral FP32 value. -/
  | frnd (f : Fields)
  /-- FCLASS (R163). One-hot class mask of an FP32 value. -/
  | fclass (f : Fields)
  /-- FSCALE (R164). Multiplies by 2 to the power n with one rounding. -/
  | fscale (f : Fields)
  /-- FDOT2 (R166). Two-element 16-bit dot product plus an FP32 addend, rounded once. -/
  | fdot2 (f : Fields)
  /-- FDOT4 (R166). Four-element binary8 dot product plus an FP32 addend, rounded once. -/
  | fdot4 (f : Fields)
  /-- HADD2 (R165). Packed 16-bit float add. -/
  | hadd2 (f : Fields)
  /-- HMUL2 (R165). Packed 16-bit float multiply. -/
  | hmul2 (f : Fields)
  /-- HFMA2 (R165). Packed 16-bit float fused multiply-add. -/
  | hfma2 (f : Fields)
  /-- HMNX2 (R160). Packed 16-bit minimumNumber or maximumNumber. -/
  | hmnx2 (f : Fields)
  /-- HCMP2 (R161). Packed 16-bit compare writing two result bits. -/
  | hcmp2 (f : Fields)
  /-- RCP (R168). Approximate reciprocal in the special-function unit. -/
  | rcp (f : Fields)
  /-- RSQ (R168). Approximate reciprocal square root. -/
  | rsq (f : Fields)
  /-- SQRT (R170). Correctly rounded square root. -/
  | sqrt (f : Fields)
  /-- EXP2 (R168). Approximate base-2 exponential. -/
  | exp2 (f : Fields)
  /-- LOG2 (R168). Approximate base-2 logarithm. -/
  | log2 (f : Fields)
  /-- SIN (R168). Approximate sine. -/
  | sin (f : Fields)
  /-- COS (R168). Approximate cosine. -/
  | cos (f : Fields)
  /-- TANH (R168). Approximate hyperbolic tangent. -/
  | tanh (f : Fields)
  /-- FDIV (R170). Correctly rounded FP32 division. -/
  | fdiv (f : Fields)
  /-- CVT (R185). Converts each element to the destination format. -/
  | cvt (f : Fields)
  /-- CVTQ (R185). Converts two sources into a denser destination, or shifts in two elements. -/
  | cvtq (f : Fields)
  /-- CVTD (R185). Converts a packed source into a wider register pair. -/
  | cvtd (f : Fields)
  /-- PACK6 (R186). Gathers the 6-bit elements of all lanes into a 24-byte stream. -/
  | pack6 (f : Fields)
  /-- UNPK6 (R187). Spreads a 6-bit stream back into one element per lane. -/
  | unpk6 (f : Fields)
  /-- PRMT (R188). Byte permute of two registers under a selector. -/
  | prmt (f : Fields)
  /-- TAG (R189). Writes A's bits unchanged with a new tag. -/
  | tag (f : Fields)
  /-- BSCALE (R190). Computes the binary8p1n block scale of the active lanes for a target format. -/
  | bscale (f : Fields)
  /-- SHFL (R194). Moves A values between lanes by index, up, down or xor. -/
  | shfl (f : Fields)
  /-- VOTE (R196). Any, all, ballot or uniform vote over the active lanes. -/
  | vote (f : Fields)
  /-- MATCH (R197). Masks of active lanes holding equal values. -/
  | matchLanes (f : Fields)
  /-- RED (R199). Pairwise-tree reduction over the lanes written to every active lane. -/
  | red (f : Fields)
  /-- REDMI (R201). Minimum or maximum with its index over the lanes. -/
  | redmi (f : Fields)
  /-- SCAN (R200). Sequential inclusive or exclusive prefix over the lanes. -/
  | scan (f : Fields)
  /-- BCST (R195). Broadcasts one lane's A value to every active lane. -/
  | bcst (f : Fields)
  /-- LD (R217). Global load per active lane through the first-level cache or the home bank. -/
  | ld (f : Fields)
  /-- ST (R219). Global store per active lane. -/
  | st (f : Fields)
  /-- LDS (R217). Scratchpad load. -/
  | lds (f : Fields)
  /-- STS (R219). Scratchpad store. -/
  | sts (f : Fields)
  /-- LDR (R217). Load from a cluster team's scratchpad. -/
  | ldr (f : Fields)
  /-- STR (R219). Store to a cluster team's scratchpad. -/
  | str (f : Fields)
  /-- LDC (R218). Load from a constant window through the constant cache. -/
  | ldc (f : Fields)
  /-- ATOM (R220). Global atomic at the home bank with optional ordering semantics. -/
  | atom (f : Fields)
  /-- ATOMS (R220). Scratchpad atomic. -/
  | atoms (f : Fields)
  /-- PREF (R222). Prefetch, pin or unpin the lines of the active lanes. -/
  | pref (f : Fields)
  /-- CINV (R224). Writes back and drops the first-level lines of a byte range. -/
  | cinv (f : Fields)
  /-- CWB (R224). Writes back the dirty bytes of a byte range. -/
  | cwb (f : Fields)
  /-- ACQ (R245). Requests a sync cell at its home bank and performs the acquire action when granted. -/
  | acq (f : Fields)
  /-- REL (R246). Performs the release action and releases a sync cell. -/
  | rel (f : Fields)
  /-- MBIND (R247). Binds a region to a slot of a cell's entry in the team's binding table. -/
  | mbind (f : Fields)
  /-- MUNBIND (R247). Clears a region slot of a cell's binding entry. -/
  | munbind (f : Fields)
  /-- FENCE (R248). Waits for earlier accesses and performs a release or acquire action over the whole cache. -/
  | fence (f : Fields)
  /-- BAR (R251). Arrives at and/or waits on a team barrier. -/
  | bar (f : Fields)
  /-- CBAR (R251). Arrives at and/or waits on a cluster barrier. -/
  | cbar (f : Fields)
  /-- AWAIT (R256). Sleeps in the rendezvous table while a word equals the expected value. -/
  | await (f : Fields)
  /-- AWAKE (R257). Release action, then wakes one or all waiters on a word. -/
  | awake (f : Fields)
  /-- CPY (R271). Queues a tile copy between global memory and the scratchpad on the copy engine. -/
  | cpy (f : Fields)
  /-- CPYG (R273). Queues a per-lane row gather or scatter. -/
  | cpyg (f : Fields)
  /-- CPYM (R274). Queues a multicast copy into the scratchpads of masked cluster teams. -/
  | cpym (f : Fields)
  /-- CPYN (R275). Queues a get or put with a remote rank's exposure over Adeser. -/
  | cpyn (f : Fields)
  /-- CPYF (R276). Queues a fill of a shape with a repeated pattern. -/
  | cpyf (f : Fields)
  /-- MAPRES (R287). Reserves an operand map from a quad after checks, returning a status. -/
  | mapres (f : Fields)
  /-- MAPSET (R288). Writes one field of a reserved map. -/
  | mapset (f : Fields)
  /-- MAPGET (R288). Reads one field of a reserved map. -/
  | mapget (f : Fields)
  /-- MAPREL (R289). Makes a map unreserved. -/
  | maprel (f : Fields)
  /-- MMA (R291). Checks and queues a dense matrix product accumulating into a tile. -/
  | mma (f : Fields)
  /-- MMAS (R305). Queues a product that skips bitmap-marked zero blocks of A. -/
  | mmas (f : Fields)
  /-- MMAG (R306). Queues a product whose A rows are gathered by per-lane indices. -/
  | mmag (f : Fields)
  /-- ACCZ (R293). Queues zeroing of a tile's active columns. -/
  | accz (f : Fields)
  /-- ACCLD (R293). Queues reading tile rows into registers. -/
  | accld (f : Fields)
  /-- ACCST (R294). Queues converting a tile and writing it to the scratchpad. -/
  | accst (f : Fields)
  /-- ACCQ (R295). Queues block-scaled quantisation of a tile into the scratchpad. -/
  | accq (f : Fields)
  /-- ACCADD (R293). Queues adding registers into tile rows. -/
  | accadd (f : Fields)
  /-- SYSC (R319). Enters system-call handler n once per active lane in supervisor mode. -/
  | sysc (f : Fields)
  /-- RETS (R320). Ends the handler run for the current lane and moves to the next or returns. -/
  | rets (f : Fields)
  /-- TRAP (R321). Raises a trap fault with an immediate code. -/
  | trap (f : Fields)
  /-- TRAP_REG (R321). Raises a trap fault with the code in A. -/
  | trapReg (f : Fields)
  /-- BRK (R321). Raises a breakpoint fault with an immediate code. -/
  | brk (f : Fields)
  /-- BRK_REG (R321). Raises a breakpoint fault with the code in A. -/
  | brkReg (f : Fields)
  /-- RDSR (R323). Reads a special register into every active lane. -/
  | rdsr (f : Fields)
  /-- WRSR (R323). Writes a special register from the leader lane, or per lane for %srseed. -/
  | wrsr (f : Fields)
  /-- INTR (R324). Release action, then sends an MSI to a hart's interrupt file. -/
  | intr (f : Fields)
  /-- PSAVE (R327). Polling point that parks the fibre when a pre-emption request is pending. -/
  | psave (f : Fields)
  /-- CTXSAVE (R333). Forces a save of the team in a context of the core into an image. -/
  | ctxsave (f : Fields)
  /-- CTXLOAD (R334). Checks and restores a team image onto the issuing core. -/
  | ctxload (f : Fields)
  /-- TLBINV (R325). Removes cached translations partition-wide by ASID, page or world. -/
  | tlbinv (f : Fields)
  /-- PAIR (R53). Issues one V0 and one V1 register operation in one word. -/
  | pair (p : PairFields)
  /-- DW_AWAIT (R397). Hart sleeps in the rendezvous table while a word equals rs2. -/
  | dwAwait (rd rs1 rs2 : BitVec 5)
  /-- DW_AWAKE (R397). Hart wakes the oldest waiter on a word. -/
  | dwAwake (rd rs1 : BitVec 5)
  /-- DW_AWAKE_ALL (R397). Hart wakes every waiter on a word. -/
  | dwAwakeAll (rd rs1 : BitVec 5)
  /-- PACKAGE_BOOT (R356). Markhor verifies images, resets slices and releases each partition's boot hart. -/
  | packageBoot (kernels : List (Nat × List Byte))
  /-- LOADER_RETRY (R357). After a refused image, the loader retries every 10 s. -/
  | loaderRetry (part : Nat) (image : List Byte)
  /-- BOOT_WATCHDOG_EXPIRY (R358). Without BOOTOK, retires the boot hart, resets the partition and restarts at the next slice. -/
  | bootWatchdogExpiry (part : Nat)
  /-- ROOT_PROVISION (R369). Writes the root secret and provisioning index once on the management path. -/
  | rootProvision (root : BitVec 256) (index : BitVec 20)
  /-- IDENT (R361). Mailbox request returning the package identity, partition, slice mask and boot slice. -/
  | ident (slice : Nat)
  /-- BOOTOK (R361). Stops the watchdog and raises the partition's anti-rollback counter. -/
  | bootok (slice : Nat)
  /-- PTEXT (R361). Enables or disables the PTE extension on every slice. -/
  | ptext (slice : Nat)
  /-- WBIND (R371). Rebinds a world to a tenant and period. -/
  | wbind (slice : Nat)
  /-- ASSIGN (R372). Zeroes a range of lines under a new ATTR and WORLD, discarding cached copies. -/
  | assign (slice : Nat)
  /-- RDROP (R361). Drops a region and frees its slot. -/
  | rdrop (slice : Nat)
  /-- RADD (R361). Places an absent region, zero-filled, in a free slot of a slice. -/
  | radd (slice : Nat)
  /-- JOIN (R367). Adds a slice to the partition with 238 new regions and releases its harts. -/
  | join (slice : Nat)
  /-- LEAVEBEGIN (R361). Stops team placement on a slice. -/
  | leavebegin (slice : Nat)
  /-- LEAVE (R368). Moves a slice's regions to other slices through dual-home windows and frees it. -/
  | leave (slice : Nat)
  /-- ATTEST (R374). Writes a signed attestation report for a world. -/
  | attest (slice : Nat)
  /-- ATTKEY (R361). Writes the public attestation point of a world. -/
  | attkey (slice : Nat)
  /-- RECOVER (R414). Runs Markhor's steps 3 to 7 of slice recovery. -/
  | recover (slice : Nat)
  /-- MAILBOX_OVERRUN (R360). A CODE write while BUSY is ignored and sets OVR. -/
  | mailboxOverrun (slice : Nat) (code : Byte)
  /-- LAUNCH_TABLE_WRITE (R313). Writes a launch-table entry; V=1 resets PUT and TAKE, V=0 removes the word. -/
  | launchTableWrite (part : Nat) (index : BitVec 8) (offset : Nat) (size : Nat) (value : DWord)
  /-- LAUNCH_TABLE_TAKE_EFFECT (R313). A launch-table change takes effect on one core within 1 µs. -/
  | launchTableTakeEffect (core : Nat) (index : BitVec 8)
  /-- SPILL_REFILL (R314). Moves an argument from the spill ring back to the FIFO when a place frees. -/
  | spillRefill (part : Nat) (index : BitVec 8)
  /-- LAUNCH_DEQUEUE (R316). Dequeues a launch entry and reads descriptor, header and condition word. -/
  | launchDequeue (part : Nat) (index : BitVec 8)
  /-- TEAM_PLACE (R23). Places a waiting team on a core with resources free and starts its generator context. -/
  | teamPlace (part : Nat) (index : BitVec 8) (core : Nat)
  /-- BLOCK_RECLAIM (R78). Reclaims a released block once idle, advancing its generation and freeing its granules. -/
  | blockReclaim (core block : Nat)
  /-- EMIT_DRAIN (R85). Drains queued words of the contexts into the emit store at 2 words per clock. -/
  | emitDrain (core : Nat)
  /-- BLOCK_OPEN_GRANT (R79). A waiting GBLKOPEN takes a block number and granules when they free. -/
  | blockOpenGrant (c : CtxRef)
  /-- BLOCK_OPEN_TIMEOUT (R79). A GBLKOPEN waiting 4,096 cc ends with the null handle. -/
  | blockOpenTimeout (c : CtxRef)
  /-- GWAITB_WAKE (R83). A GWAITB ends when its block becomes idle. -/
  | gwaitbWake (c : CtxRef)
  /-- GWAITB_TIMEOUT (R83). A bounded GWAITB ends after 16n cc with 1. -/
  | gwaitbTimeout (c : CtxRef)
  /-- GYIELD_END (R93). A yielding context becomes ready after n cc or a group exit. -/
  | gyieldEnd (c : CtxRef)
  /-- RESULT_LAND (R106). A fixed-latency result lands in its destination and y0 and its counter falls. -/
  | resultLand (g : GroupRef)
  /-- MEMORY_ACCESS_COMPLETE (R217). A memory or ordering access completes, writes its data and lowers its counter. -/
  | memoryAccessComplete (g : GroupRef) (id : Nat) (lead : Fin 32)
  /-- WALK_RETURN (R210). A page-table walk returns its translation or fault to every joined access. -/
  | walkReturn (slice walk : Nat)
  /-- ACCESS_FAULT_DETECT (R429). A lane's translation, permission or alias fault is detected, holding it and freezing the fibre. -/
  | accessFaultDetect (g : GroupRef) (id : Nat)
  /-- SFU_ACCEPT (R167). The special-function unit accepts the next queued operation every 4 cc. -/
  | sfuAccept (core sub : Nat)
  /-- SFU_COMPLETE (R167). A special-function or IDIV operation completes and writes its destination and flags. -/
  | sfuComplete (core sub id : Nat)
  /-- SPAWN_COMPLETE (R119). SPAWN completes, writes the count and lets the new groups issue. -/
  | spawnComplete (g : GroupRef) (id : Nat)
  /-- CELL_GRANT (R241). A waiting ACQ request is granted when the cell frees. -/
  | cellGrant (part cell : Nat)
  /-- COPY_SEGMENT_ISSUE (R267). The copy engine issues up to two segments of its active operations. -/
  | copySegmentIssue (core : Nat)
  /-- COPY_COMPLETE (R268). A copy operation's writes have performed and its counter falls. -/
  | copyComplete (core id : Nat)
  /-- ADESER_SEGMENT_RX (R402). A receiving port serves a CPYN segment under a matching exposure or refuses it. -/
  | adeserSegmentRx (slice : Nat) (seg : AdeserSegment)
  /-- ADESER_ACK (R275). Acknowledgement of a segment performed at the remote partition. -/
  | adeserAck (core id segment : Nat) (data : List Byte) (refused : Bool)
  /-- ADESER_RESEND_TIMEOUT (R402). An unacknowledged segment is resent after 20 µs, faulting 0x42 after 8 retries. -/
  | adeserResendTimeout (core id segment : Nat)
  /-- MATRIX_OP_START (R290). A queued tile operation starts when its start conditions hold. -/
  | matrixOpStart (core sub : Nat)
  /-- MATRIX_OCCUPANCY_END (R297). A product's occupancy ends and held writes to its read set perform. -/
  | matrixOccupancyEnd (core sub : Nat)
  /-- MATRIX_OP_COMPLETE (R290). A tile operation completes, writing its destinations and lowering its counter. -/
  | matrixOpComplete (core sub id : Nat)
  /-- LIMITER_WINDOW (R388). At each 4-clock window the limiter grants permits and lets units leave. -/
  | limiterWindow (core : Nat)
  /-- L1_SPONTANEOUS_WRITEBACK (R237). A first-level cache writes back dirty bytes or drops a clean line at any instant. -/
  | l1SpontaneousWriteback (core line : Nat) (drop : Bool)
  /-- PREEMPT_REQUEST (R326). Setting REQ raises a pre-emption request, waking AWAITs and starting the deadline. -/
  | preemptRequest (c : CtxRef)
  /-- PREEMPT_CANCEL (R326). Clearing REQ before the save begins stops the deadline and unparks groups. -/
  | preemptCancel (c : CtxRef)
  /-- FORCE (R326). Writing FORCE forces the team's save at once. -/
  | force (c : CtxRef)
  /-- DEADLINE_EXPIRY (R326). The pre-emption deadline expires and forces the save. -/
  | deadlineExpiry (c : CtxRef)
  /-- PARKED_SAVE (R327). Every live group is parked at PSAVE, so the save of live windows begins. -/
  | parkedSave (c : CtxRef)
  /-- FORCED_SAVE (R328). Stops issue in every slot of the team and captures its full state. -/
  | forcedSave (c : CtxRef)
  /-- SAVE_COMPLETE (R329). The image has been written; resources are freed and a notice record is written. -/
  | saveComplete (c : CtxRef)
  /-- RESUME (R338). Answer that re-issues, restarts or continues the faulting record's work. -/
  | resume (slice : Nat) (a : Answer)
  /-- ABORT_GROUP (R338). Answer that makes the faulting group exit without waiting. -/
  | abortGroup (slice : Nat) (a : Answer)
  /-- KILL_TEAM (R338). Answer that ends every group and the context of the team. -/
  | killTeam (slice : Nat) (a : Answer)
  /-- FAULT_QUEUE_CONFIG (R336). Writing QBASE and LOG2N configures the ring and starts the flow of waiting records. -/
  | faultQueueConfig (slice : Nat) (value : DWord)
  /-- FAULT_RECORD_DRAIN (R337). A buffered or held record enters the ring as places free and the server is signalled. -/
  | faultRecordDrain (slice : Nat)
  /-- REMOTE_ANSWER (R403). A write of RANSWER sends an answer to a slice of a peer partition. -/
  | remoteAnswer (slice : Nat) (value : DWord)
  /-- REMOTE_FAULT_RECORD_RX (R403). A port receives a fault record from a peer and writes it to the peer ring. -/
  | remoteFaultRecordRx (slice : Nat) (sender : BitVec 128) (record : BitVec 512)
  /-- HART_START (R394). Writing GO releases a hart from reset at START in M-mode. -/
  | hartStart (h : HartRef) (value : DWord)
  /-- RAIL_SWITCH_REQUEST (R386). Writing RAILREQ starts a rail switch and a 24-clock issue pause. -/
  | railSwitchRequest (core : Nat) (low : Bool)
  /-- RAIL_CHANGEOVER (R386). The core's clock changes to the new rail 20 ns after the pause begins. -/
  | railChangeover (core : Nat)
  /-- RAIL_SWITCH_END (R386). The 24-clock pause ends, RAIL takes the new value and SWITCHING clears. -/
  | railSwitchEnd (core : Nat)
  /-- GRANT_INTERVAL_END (R379). Tahr reads DEMAND and computes new grants every 100 µs. -/
  | grantIntervalEnd
  /-- GRANT_TAKE (R379). A slice's cores take their new grants together, ending every loan. -/
  | grantTake (slice : Nat)
  /-- FAILSAFE_TIMEOUT (R380). After 150,000 reference clocks without a grant, RATE drops to the fail-safe rate. -/
  | failsafeTimeout (core : Nat)
  /-- ALLOWANCE_UPDATE (R383). Each core clock, ALLOW gains RATE, loses debits and sets WLEVEL. -/
  | allowanceUpdate (core : Nat)
  /-- LOAN_MAKE (R387). An idle core lends 7/8 of its rate to a withheld core of the slice. -/
  | loanMake (slice lender : Nat)
  /-- LOAN_RECALL_START (R387). A lender's slot becomes ready and RECALL is set. -/
  | loanRecallStart (slice loan : Nat)
  /-- LOAN_RECALL_COMPLETE (R387). The loan's rate returns to the lender and the entry is cleared. -/
  | loanRecallComplete (slice loan : Nat)
  /-- ERROR_DETECTED (R405). Corruption is detected in a storage or link and retried once. -/
  | errorDetected (site : ErrorSite) (retryOk : Bool) (finder : Option Agent)
  /-- SPARE_SWAP (R410). A marked unit is replaced by its spare once it holds no team. -/
  | spareSwap (unit : SpareUnit)
  /-- TX_POST (R401). Writing TXTAIL posts transmit descriptors to the Ethernet port. -/
  | txPost (slice : Nat) (tail : Word)
  /-- RX_POST (R401). Writing RXTAIL posts receive buffers. -/
  | rxPost (slice : Nat) (tail : Word)
  /-- FRAME_TX_DONE (R401). The port completes a transmit descriptor and signals its ring interrupt. -/
  | frameTxDone (slice : Nat) (err : Bool)
  /-- ETHERNET_FRAME_RX (R401). A non-Adeser frame is written to a receive buffer. -/
  | ethernetFrameRx (slice : Nat) (frame : List Byte)
  /-- ETHERNET_LINK_CHANGE (R395). The Ethernet link changes state, raising APLIC source 5. -/
  | ethernetLinkChange (slice : Nat) (up : Bool)
  /-- EXPOSURE_TAKE_EFFECT (R401). An exposure or peer entry change takes effect on every slice within 1 µs. -/
  | exposureTakeEffect (slice : Nat)
  /-- BOND_REQUEST (R399). Writing BOND requests bonding two root ports, or is refused. -/
  | bondRequest (slice : Nat) (value : Word)
  /-- PCIE_LINK_TRAINING (R398). The root port trains its link, applying any requested bond. -/
  | pcieLinkTraining (slice : Nat) (up : Bool)
  /-- DEVICE_WRITE (R400). A device write is translated by the IOMMU and performs at the home banks. -/
  | deviceWrite (slice : Nat) (rid : BitVec 16) (pasid : Option (BitVec 20)) (addr : DWord) (data : List Byte)
  /-- DEVICE_READ (R400). A device read is translated by the IOMMU and completed. -/
  | deviceRead (slice : Nat) (rid : BitVec 16) (pasid : Option (BitVec 20)) (addr : DWord) (len : Nat)
  /-- DEVICE_MSI (R400). A device MSI is translated and delivered to an IMSIC file. -/
  | deviceMsi (slice : Nat) (rid : BitVec 16) (addr : DWord) (data : Word)
  /-- TIMER_COMPARE (R396). mtime reaches mtimecmp or stimecmp and a timer interrupt becomes pending. -/
  | timerCompare (h : HartRef)
  /-- HART_AWAIT_INTERRUPT_WAKE (R397). A pending interrupt wakes a sleeping dw.await with 3. -/
  | hartAwaitInterruptWake (h : HartRef)
  /-- REGISTER_WRITE (R5). Write to a register with no row of its own, under its access codes. -/
  | registerWrite (h : HartRef) (addr : Nat) (size : Nat) (value : DWord)
  /-- HART_ACCESS (R235). A hart load, store, AMO or cache-block operation performs at the home bank, including sd or amoswap.d to a launch word and atomics on a sync cell's STATE. -/
  | hartAccess (h : HartRef) (acc : HartAcc)
  /-- POWER_LOSS (R376). The package supply is lost, possibly while an anti-rollback fuse copy is being programmed. -/
  | powerLoss (bits : Nat)
  /-- INTX_MESSAGE (R395). A device asserts or deasserts INTA-INTD of the root port, changing APLIC wired sources 1-4. -/
  | intxMessage (slice : Nat) (pin : Fin 4) (asserted : Bool)
  /-- RANSWER_ARRIVAL (R403). An answer sent through RANSWER reaches the peer partition and is applied to the answer register of RSLICE under the FTAG rules. -/
  | ranswerArrival (slice : Nat) (value : DWord)
  /-- MAILBOX_DONE (R360). Markhor completes a mailbox request: results are written, BUSY clears, DONE sets and the MSI is sent. -/
  | mailboxDone (part : Nat)
  /-- SYSTEM_OP_COMPLETE (R325). A counter-signalled system instruction (INTR, TLBINV, CTXSAVE or CTXLOAD) completes: status written and counter lowered. -/
  | systemOpComplete (g : GroupRef) (id : Nat)
  deriving DecidableEq, Repr

end Sys2Proof
end

