-- ==== Sys2Proof/Config.lean ====
section
/-!
DEFINITION. What an implementation fixes: the part's published constants, and the free values, which are opaque constants
without a body, so that nothing can be proved of any one value. Each free value has its row in notes/assumptions.
-/

namespace Sys2Proof.Config

/-- Registers of a sub-partition's bank (R14). -/
def bankRegs : Nat := 1536
/-- Active sub-partitions of a core (R13). -/
def subsPerCore : Nat := 32
/-- Slots of a sub-partition (R14). -/
def slotsPerSub : Nat := 4
/-- 32-register units of a bank (R14, R90). -/
def bankUnits : Nat := 48
/-- Granules of an emit store (R76). -/
def storeGranules : Nat := 256
/-- Blocks of an emit store (R76). -/
def storeBlocks : Nat := 256
/-- Generator contexts of a core (R62). -/
def contexts : Nat := 8
/-- Entries of an operand log (R228). -/
def logEntries : Nat := 8
/-- Active cores of a slice (R9). -/
def coresPerSlice : Nat := 16
/-- Slices of the package (R8). -/
def slices : Nat := 16
/-- Region slots of a slice (R364). -/
def regionSlots : Nat := 238
/-- Places of a rendezvous table (R255). -/
def rendezvousPlaces : Nat := 1024
/-- Walks a walker runs at once (R210). -/
def walkPlaces : Nat := 64
/-- Copies a copy engine holds and works on at once (R267). -/
def copyQueue : Nat := 64
/-- The queue of words of a generator context (R62). -/
def emitQueue : Nat := 32

/-- The fixed function behind the approximate operations of R168, whose bits are not published: the operation's opcode and
the operand. Free. -/
opaque sfuApprox : Nat → BitVec 32 → BitVec 32

/-- A result that the specification does not state, drawn afresh by number. Free. -/
opaque freeWord : Nat → BitVec 32

/-- The code address of a block's offset 4,096, which no code address can hold (R112, R116). Free. -/
opaque freeLink : BitVec 12 → BitVec 32

/-- The lines of one way of a first-level cache, whose number of ways is not published (R13, R405). Free. -/
opaque l1WayLines : Nat

/-- The route that Markhor takes from a slice to another, by the number of its choice (R362). Free; one that is no path over the
partition's working links is not taken. -/
opaque routePick : Nat → Nat → Nat → List Nat
/-- Whether a step of the boot passes, 1 to 4, by the boot epoch before it (R356). Free. -/
opaque bootStepOk : Nat → Nat → Bool
/-- Whether the test of a slice at a boot or a JOIN finds a unit at fault, by the number of the test, slice and unit (R356, R367, R410). Free. -/
opaque testFails : Nat → Nat → Nat → Bool

/-- The identity registers of the harts, by number, which are not published (R393). -/
opaque hartIdentity : Nat → BitVec 64
/-- The identities of a slice's root port and of the DVSEC of its bond, by number, which are not published (R398, R399). Free. -/
opaque pcieIdentity : Nat → Nat → BitVec 32

/-- What slice firmware sets in a slice's power registers, by the register's number, not published (R381). Free; the definitions below
keep each within its field. -/
opaque powerTable : Nat → Nat → Nat
/-- NOMINAL of the cores of a slice (R381). -/
def nominal (slice : Nat) : Nat := powerTable slice 0 % 2 ^ 32
/-- STEP of the cores of a slice, less the 1 that R381 gives as its least value. -/
def stepLess1 (slice : Nat) : Nat := powerTable slice 1 % (2 ^ 16 - 1)
/-- TH of the cores of a slice (R381). -/
def th (slice : Nat) : Nat := powerTable slice 2 % 2 ^ 16
/-- WEIGHT of a class on a slice (R381, R382). -/
def weight (slice k : Nat) : Nat := powerTable slice (8 + k) % 2 ^ 8
/-- The largest debit that one word of a slice can draw (R382): a product of 512 positions of 16-bit operands draws 64 times the weight
of its class. -/
def largestDebit (slice : Nat) : Nat := ((List.range 7).map (weight slice)).foldl max (64 * weight slice 7)
/-- CAP of the cores of a slice (R381): at least the largest debit, and within ALLOW, which it bounds. -/
def cap (slice : Nat) : Nat := largestDebit slice * 2 ^ 16 + powerTable slice 3 % (2 ^ 31 - 16320 * 2 ^ 16)
/-- What the budget leaves over the sum of the fail-safe rates (R379). Free. -/
opaque budgetOver : Nat
/-- The budget B in units per clock: slice firmware sets NOMINAL so that the fail-safe rates floor(0.4 · NOMINAL) of the 256 cores do
not exceed it (R379). -/
def budget : Nat := ((List.range 256).map fun c => 2 * nominal (c / 16) / 5).sum + budgetOver

/-- SHA-384 of a byte string (R356, R357, R374): the specification names the function and does not give it. Free. -/
opaque sha384 : List Byte → BitVec 384
/-- Whether an ECDSA P-384 signature of a digest, r then s, verifies under a public point (R357). Free. -/
opaque ecdsaVerify : BitVec 384 → BitVec 768 → BitVec 768 → Bool
/-- Whether the digest and the signature of Markhor's image n pass at a boot (R356): 0 Markhor firmware, 1 slice firmware, 2 boot
loader, 3 configuration record. Free. -/
opaque firmwareOk : Nat → Bool
/-- AES-256-XTS of a line under a key pair and a tweak (R370). Free. -/
opaque aesXts : BitVec 512 → Nat → List (BitVec 8) → List (BitVec 8)
/-- AES-GMAC of bytes under a key and an IV (R370). Free. -/
opaque aesGmac : BitVec 256 → BitVec 96 → List (BitVec 8) → BitVec 128
/-- The public point that a partition's image carries or Markhor holds for a key hash (R357). Free. -/
opaque publicKeyOf : BitVec 384 → BitVec 768
/-- ECDSA P-384 signature of a digest under a private scalar (R374). Free. -/
opaque ecdsaSign : BitVec 384 → BitVec 384 → BitVec 768
/-- The public point of a private scalar (R361, R373). Free. -/
opaque ecdsaPublic : BitVec 384 → BitVec 768
/-- HMAC-SHA-384 (R369). Free. -/
opaque hmacSha384 : List Byte → List Byte → BitVec 384
/-- AES-256-GCM of a team image's body under key, nonce and additional data: ciphertext and tag (R331). Free. -/
opaque gcmSeal : BitVec 256 → BitVec 96 → List Byte → List Byte → List Byte × BitVec 128
/-- The plaintext of an AES-256-GCM text under key, nonce and additional data, none when its tag does not agree (R334). Free. -/
opaque gcmOpen : BitVec 256 → BitVec 96 → List Byte → List Byte → BitVec 128 → Option (List Byte)
/-- The order n of the P-384 group (R369), which the specification names and does not print. -/
opaque p384Order : Nat
/-- The 64-bit package identity (R361). Free. -/
opaque packageId : BitVec 64
/-- MAC of an Ethernet port, set by Markhor (R401). Free. -/
opaque portMac : Nat → BitVec 48
/-- The digests FWDIG, SFDIG and BLDIG of the firmware that booted (R374), by number. Free. -/
opaque firmwareDigest : Nat → BitVec 384

end Sys2Proof.Config
end

