-- ==== Sys2Proof/WellFormed.lean ====
section
/-!
DEFINITION. Which words are well formed: the accepted SUB values (R49), the use of every operand field (R29, R31, R133,
R135, R156, R183, R193, R215, R243, R269, R286, R302, R317), the accepted extensions and their immediates (R34, R35, R39),
the guard (R40), the signal (R41), the paired word (R52), the generator words (R30, R67) and the privileged forms (R48).
A word that is not well formed is malformed at emission and illegal at issue (R54).
-/

namespace Sys2Proof

/-- What a field of a word is used for, and how many consecutive registers it names (R29, R135, R215). -/
inductive Use where
  | unused
  | rd (n : Nat)
  | wr (n : Nat)
  | rw (n : Nat)
  deriving DecidableEq, Repr

namespace Use

/-- The number of registers the field names. -/
def count : Use → Nat
  | unused => 0
  | rd n => n
  | wr n => n
  | rw n => n

/-- Whether the word writes the field's registers. -/
def writes : Use → Bool
  | wr _ => true
  | rw _ => true
  | _ => false

/-- Whether the word reads the field's registers. -/
def reads : Use → Bool
  | rd _ => true
  | rw _ => true
  | _ => false

end Use

namespace Operand

/-- A field that an instruction does not use holds 0x000 (R29). -/
def isUnused (o : Operand) : Bool := o == .v 0

/-- Whether a field naming n consecutive registers may hold this code: any code for one, an even code or zero for a pair
(R135), a multiple of four or zero for a quad (R215), a run inside one file or zero otherwise (R286). -/
def okCount (o : Operand) (n : Nat) : Bool :=
  match o with
  | .v k => if n = 2 then k.val % 2 == 0 else if n = 4 then k.val % 4 == 0 else decide (k.val + n ≤ 768)
  | .o k => if n = 2 then k.val % 2 == 0 else if n = 4 then k.val % 4 == 0 else decide (k.val + n ≤ 32)
  | .y0 => n == 1
  | .y1 => n == 1
  | .zero => true

/-- Whether the code may be a destination: y0 and y1 may not (R32). -/
def okDest (o : Operand) : Bool :=
  match o with
  | .y0 => false
  | .y1 => false
  | _ => true

/-- Whether a code satisfies the use of its field. -/
def okUse (o : Operand) (u : Use) : Bool :=
  match u with
  | .unused => o.isUnused
  | .rd n => o.okCount n
  | .wr n => o.okCount n && o.okDest
  | .rw n => o.okCount n && o.okDest

/-- A run of a length that is not fixed by the operand rules: D of ACCLD and A of ACCADD may start at any register (R286). -/
def okRun (o : Operand) (n : Nat) : Bool :=
  match o with
  | .v k => decide (k.val + n ≤ 768)
  | .o k => decide (k.val + n ≤ 32)
  | .zero => true
  | _ => false

end Operand

/-- The value that a source supplied by X has (R35). -/
inductive SrcTy where
  | s32
  | n32
  | s64
  | n64
  | f32
  | p16
  | p8
  deriving DecidableEq, Repr

/-- The source type of a TY code (R35, R49). -/
def srcTyOf (ty : Nat) : SrcTy :=
  match ty with
  | 0 => .s32
  | 1 => .n32
  | 2 => .s64
  | 3 => .n64
  | 4 => .f32
  | 5 => .p16
  | 6 => .p16
  | 7 => .p16
  | 8 => .p16
  | _ => .p8

/-- Whether an immediate, constant or shifted immediate is accepted for a source of this type (R35, R133). -/
def SrcTy.okX (t : SrcTy) (e : Ext) : Bool :=
  match t, e with
  | .p16, .imm x => x >>> 16 == 0#20
  | .p8, .imm x => x >>> 8 == 0#20
  | _, .imm _ => true
  | _, .cref _ _ => true
  | .s32, .shifted _ => true
  | .n32, .shifted _ => true
  | .s64, .shifted _ => true
  | .n64, .shifted _ => true
  | _, _ => false

namespace Ext

def isNone (e : Ext) : Bool := e == .none
def isRel (e : Ext) : Bool := match e with
  | .rel _ => true
  | _ => false
def isImm (e : Ext) : Bool := match e with
  | .imm _ => true
  | _ => false
/-- Kind 2 whose bits from k up are zero. -/
def immBelow (e : Ext) (k : Nat) : Bool := match e with
  | .imm x => x >>> k == 0#20
  | _ => false
def isReg (e : Ext) : Bool := match e with
  | .reg _ => true
  | _ => false
/-- Kind 5 (R34). -/
def isShifted (e : Ext) : Bool := match e with
  | .shifted _ => true
  | _ => false
/-- Kind 2 or 3. -/
def isImmCref (e : Ext) : Bool := match e with
  | .imm _ => true
  | .cref _ _ => true
  | _ => false

end Ext

/-- Which signal an opcode takes: none at all, one or none, or one always (R41, R106). -/
inductive SigRule where
  | never
  | optional
  | required
  deriving DecidableEq, Repr

/-- Which guard an opcode takes: only the one that always passes, or any (R40, R111). -/
inductive GuardRule where
  | always
  | any
  deriving DecidableEq, Repr

/-- What a word's encoding must be: its SUB and control bits accepted, the use of each operand field, the extension kinds
accepted, the guard and the signal (R29, R49, R54). -/
structure Shape where
  subOk : Bool
  d     : Use := .unused
  a     : Use := .unused
  b     : Use := .unused
  x     : Use := .unused
  extOk : Bool
  guard : GuardRule := .any
  sig   : SigRule := .optional
  run   : Bool := false
  deriving DecidableEq, Repr

/-- The registers an operand of a given TY names: two for the 64-bit types (R135). -/
def tyRegs (ty : Nat) : Nat := if ty = 2 ∨ ty = 3 then 2 else 1

/-- Layout I with accepted TY, SAT and VAR (R49). -/
def subI (f : Fields) (tys : List Nat) (sat : Bool) (var : Nat) : Bool :=
  tys.contains f.ty && (sat || !f.sat) && decide (f.var3 ≤ var)

/-- Layout F with TY 4 and a bound on RM (R49). -/
def subF (f : Fields) (tys : List Nat) (rm : Nat) (var : Bool) : Bool :=
  tys.contains f.ty && decide (f.rmF ≤ rm) && (var || !f.varF)

/-- Layout C (R49). -/
def subC (f : Fields) (tys : List Nat) (cc : Nat) : Bool := tys.contains f.ty && decide (f.cc ≤ cc)

/-- A binary8 code FC 32-63 that is not reserved (R49). -/
def fcBinary8 (fc : Nat) : Bool := decide (32 ≤ fc ∧ fc ≤ 63 ∧ fc % 8 ≠ 0)
/-- A binary6 code (R49). -/
def fcBinary6 (fc : Nat) : Bool := decide (20 ≤ fc ∧ fc ≤ 25)
/-- A format that CVT, CVTQ and CVTD accept (R183). -/
def fcConv (fc : Nat) : Bool := decide (1 ≤ fc ∧ fc ≤ 9) || decide (16 ≤ fc ∧ fc ≤ 25) || fcBinary8 fc
/-- The number of elements of a format in one register (R178). -/
def fcCount (fc : Nat) : Nat :=
  if 32 ≤ fc then 4 else if fc = 8 ∨ fc = 9 then 4 else if 4 ≤ fc ∧ fc ≤ 7 then 2 else 1
/-- The integer formats (R178). -/
def fcInteger (fc : Nat) : Bool := [1, 2, 6, 7, 8, 9, 18, 19].contains fc
/-- Registers a format takes: a pair for 64-bit integers (R178). -/
def fcRegs (fc : Nat) : Nat := if fc = 18 ∨ fc = 19 then 2 else 1
/-- RM of a conversion: .rsr only into a float format other than FP32 (R182). -/
def rmConv (rm fc : Nat) : Bool := decide (rm ≤ 4) || (rm == 5 && !fcInteger fc && fc != 3)

/-- Layout K and the control field of a conversion (R49, R183). -/
def subConv (f : Fields) : Bool :=
  fcConv f.fc && decide ((f.sub &&& 3#8).toNat ≤ 1) && fcConv f.fcCtl && rmConv f.rmCtl f.fc
    && (f.imm20 &&& 0x7FF#20 == 0#20)

/-- Registers of an access of size SZ (R215). -/
def szRegs (sz : Nat) : Nat := if sz = 4 then 4 else if sz = 3 then 2 else 1

/-- Layout A (R49). -/
def subA (sub : BitVec 8) (semOk : Bool) : Bool :=
  let aop := (sub >>> 4).toNat
  decide (aop ≤ 10) && (aop != 10 || !sub.getLsbD 3) && (semOk || (sub &&& 6#8) == 0#8) && !sub.getLsbD 0

/-- Layout S (R49). -/
def subS (sub : BitVec 8) (semLo semHi var : Nat) : Bool :=
  let sem := ((sub >>> 3) &&& 3#8).toNat
  decide ((sub >>> 5).toNat ≤ 4) && decide (semLo ≤ sem ∧ sem ≤ semHi) && decide ((sub &&& 7#8).toNat ≤ var)

namespace Shape

/-- A control word with no operand (R111). -/
def plain (f : Fields) : Shape := { subOk := f.sub == 0#8, extOk := f.ext.isNone, guard := .always, sig := .never }

/-- src of R133: the register in B under kind 0, or X with B unused. -/
def srcB (f : Fields) (n : Nat) : Use := if f.ext.isNone then .rd n else .unused

/-- The binary shape of R133. -/
def binary (f : Fields) (subOk : Bool) (dn an : Nat) (t : SrcTy) : Shape :=
  let n := if t = .s64 ∨ t = .n64 then 2 else 1
  { subOk := subOk, d := .wr dn, a := .rd an, b := srcB f n, extOk := f.ext.isNone || t.okX f.ext }

/-- The unary shape of R133 and R156. -/
def unary (f : Fields) (subOk : Bool) : Shape :=
  { subOk := subOk, d := .wr 1, a := .rd 1, extOk := f.ext.isNone }

/-- The ternary shape of R133 and R156. -/
def ternary (f : Fields) (subOk : Bool) (t : SrcTy) : Shape :=
  { subOk := subOk, d := .wr 1, a := .rd 1, b := .rd 1,
    x := if f.ext.isReg then .rd 1 else .unused, extOk := f.ext.isReg || t.okX f.ext }

/-- A binary logic form, whose TY may be any of 0-10 (R49, R143). -/
def logic (f : Fields) : Shape :=
  binary f (subI f [0, 1, 2, 3, 4, 5, 6, 7, 8, 9, 10] false 0) (tyRegs f.ty) (tyRegs f.ty) (srcTyOf f.ty)

/-- A counter-signalled word of the special-function unit (R158). -/
def sfu (s : Shape) : Shape := { s with sig := .required }

/-- A load (R215): D, an address of n registers, an offset. -/
def load (f : Fields) (an : Nat) (chOk : Bool) : Shape :=
  { subOk := decide (f.sz ≤ 4) && (!f.sx || decide (f.sz ≤ 1)) && (chOk || f.ch == 0) && (f.sub &&& 3#8) == 0#8,
    d := .wr (szRegs f.sz), a := .rd an, extOk := f.ext.isNone || f.ext.isImm, sig := .required }

/-- A store (R215). -/
def store (f : Fields) (an : Nat) (chOk : Bool) : Shape :=
  { subOk := decide (f.sz ≤ 4) && !f.sx && (chOk || f.ch == 0) && (f.sub &&& 3#8) == 0#8,
    a := .rd an, b := .rd (szRegs f.sz), extOk := f.ext.isNone || f.ext.isImm, sig := .required }

/-- A product of the matrix unit (R286, R302). -/
def product (f : Fields) (a : Use) : Shape :=
  { subOk := (f.imm20 &&& 0xFFF#20) == 0#20, a := a, extOk := f.ext.isImm, sig := .required }

/-- n of ACCLD and ACCADD (R286). -/
def accN (f : Fields) : Nat := ((f.imm20 >>> 5) &&& 63#20).toNat
/-- r of ACCLD and ACCADD (R286). -/
def accR (f : Fields) : Nat := (f.imm20 &&& 31#20).toNat
/-- n in 1-32 and r + n at most 32 (R286). -/
def accOk (f : Fields) : Bool :=
  f.mp == 0 && f.ext.immBelow 11 && decide (1 ≤ accN f ∧ accR f + accN f ≤ 32)

end Shape

open Shape in
/-- The encoding rule of every group word but PAIR. Rows of R111, R133, R138, R156, R158, R183, R193, R215, R243, R269,
R286, R302 and R317, with the SUB column of R49. -/
def Instr.shape : Instr → Option (Fields × Shape)
  | .nop f => some (f, plain f)
  | .bra f => some (f, { plain f with extOk := f.ext.isRel })
  | .brc f => some (f, { subOk := decide (f.sub.toNat ≤ 2), extOk := f.ext.isRel, sig := .never })
  | .brx f => some (f, { plain f with a := .rd 1, extOk := f.ext.isNone || f.ext.isImm })
  | .call f => some (f, { subOk := f.sub == 0#8, d := .wr 1, extOk := f.ext.isRel, guard := .always })
  | .callReg f => some (f, { subOk := f.sub == 0#8, d := .wr 1, a := .rd 1, extOk := f.ext.isNone, guard := .always })
  | .ret f => some (f, { plain f with a := .rd 1 })
  | .loop f => some (f, { subOk := f.sub == 0#8, d := .rw 1, extOk := f.ext.isRel, guard := .always })
  | .mask f => some (f, { subOk := decide (f.sub.toNat ≤ 5), d := .wr 1, a := if f.sub == 0#8 then .unused else .rd 1, extOk := f.ext.isNone, guard := if f.sub == 0#8 || f.sub == 5#8 then .always else .any })
  | .spawn f => some (f, { subOk := f.sub == 0#8, d := .wr 1, a := .rd 1, b := .rd 1, extOk := f.ext.immBelow 4, sig := .required })
  | .exit f => some (f, plain f)
  | .yield f => some (f, plain f)
  | .fbar f => some (f, { plain f with subOk := decide (f.sub.toNat ≤ 3), extOk := f.ext.immBelow 4 })
  | .waitc f => some (f, { plain f with subOk := decide (f.sub.toNat ≤ 11), extOk := f.ext.immBelow 6 })
  | .waitcReg f => some (f, { plain f with subOk := decide (f.sub.toNat ≤ 11), a := .rd 1 })
  | .iadd f => some (f, binary f (subI f [0, 1, 7, 8, 9, 10] true 0) 1 1 (srcTyOf f.ty))
  | .isub f => some (f, binary f (subI f [0, 1, 7, 8, 9, 10] true 0) 1 1 (srcTyOf f.ty))
  | .imul f => some (f, binary f (subI f [0, 1, 7, 8] true 0) 1 1 (srcTyOf f.ty))
  | .imulh f => some (f, binary f (subI f [0, 1] false 0) 1 1 (srcTyOf f.ty))
  | .imad f => some (f, ternary f (subI f [0, 1] true 0) (srcTyOf f.ty))
  | .imulw f => some (f, binary f (subI f [0, 1] false 0) 2 1 (srcTyOf f.ty))
  | .idiv f => some (f, sfu (binary f (subI f [0, 1, 2, 3] false 1) (tyRegs f.ty) (tyRegs f.ty) (srcTyOf f.ty)))
  | .imin f => some (f, binary f (subI f [0, 1, 2, 3, 7, 8, 9, 10] false 0) (tyRegs f.ty) (tyRegs f.ty) (srcTyOf f.ty))
  | .imax f => some (f, binary f (subI f [0, 1, 2, 3, 7, 8, 9, 10] false 0) (tyRegs f.ty) (tyRegs f.ty) (srcTyOf f.ty))
  | .iabs f => some (f, unary f (subI f [0, 7, 9] true 0))
  | .and f => some (f, logic f)
  | .or f => some (f, logic f)
  | .xor f => some (f, logic f)
  | .andn f => some (f, logic f)
  | .shl f => some (f, binary f (subI f [0, 1] false 0) 1 1 .n32)
  | .shr f => some (f, binary f (subI f [0, 1] false 0) 1 1 .n32)
  | .sra f => some (f, binary f (subI f [0] false 0) 1 1 .n32)
  | .rot f => some (f, binary f (subI f [1] false 1) 1 1 .n32)
  | .shf f => some (f, ternary f (subI f [1] false 1) .n32)
  | .bfx f => some (f, binary f (subI f [0, 1] false 0) 1 1 .n32)
  | .bfi f => some (f, ternary f (subI f [1] false 0) .n32)
  | .popc f => some (f, unary f (subI f [1] false 0))
  | .clz f => some (f, unary f (subI f [1] false 0))
  | .ctz f => some (f, unary f (subI f [1] false 0))
  | .brev f => some (f, unary f (subI f [1] false 0))
  | .icmp f => some (f, binary f (subC f [0, 1, 2, 3] 5) 1 (tyRegs f.ty) (srcTyOf f.ty))
  | .sel f => some (f, { subOk := subI f [0, 1, 2, 3, 4, 5, 6, 7, 8, 9, 10] false 0, d := .wr (tyRegs f.ty), a := .rd (tyRegs f.ty), b := .rd (tyRegs f.ty), x := .rd 1, extOk := f.ext.isReg })
  | .mov f => some (f, { subOk := subI f [0, 1, 2, 3, 4, 5, 6, 7, 8, 9, 10] false 0, d := .wr (tyRegs f.ty), a := srcB f (tyRegs f.ty), extOk := f.ext.isNone || (srcTyOf f.ty).okX f.ext })
  | .iadd64 f => some (f, binary f (subI f [2, 3] true 0) 2 2 (srcTyOf f.ty))
  | .isub64 f => some (f, binary f (subI f [2, 3] true 0) 2 2 (srcTyOf f.ty))
  | .lea f => some (f, { subOk := subI f [0, 1] false 7, d := .wr 2, a := .rd 2, b := .rd 1, extOk := f.ext.isNone || f.ext.isImmCref })
  | .isad f => some (f, { ternary f (subI f [0, 1, 9, 10] false 0) .n32 with
      extOk := f.ext.isReg || (SrcTy.n32.okX f.ext && !(f.ext.isShifted && decide (2 ≤ f.ty))) })
  | .fadd f => some (f, binary f (subF f [4] 4 false) 1 1 .f32)
  | .fsub f => some (f, binary f (subF f [4] 4 false) 1 1 .f32)
  | .fmul f => some (f, binary f (subF f [4] 4 false) 1 1 .f32)
  | .ffma f => some (f, ternary f (subF f [4] 4 false) .f32)
  | .fmin f => some (f, binary f (subF f [4] 0 false) 1 1 .f32)
  | .fmax f => some (f, binary f (subF f [4] 0 false) 1 1 .f32)
  | .fcmp f => some (f, binary f (subC f [4] 13) 1 1 .f32)
  | .frnd f => some (f, unary f (subF f [4] 4 false))
  | .fclass f => some (f, unary f (subF f [4] 0 false))
  | .fscale f => some (f, binary f (subF f [4] 4 false) 1 1 .s32)
  | .fdot2 f => some (f, ternary f (subF f [5, 6] 4 false) .f32)
  | .fdot4 f => some (f, ternary f (decide (f.qIndex % 8 ≠ 0) && decide (f.var3 ≤ 4)) .f32)
  | .hadd2 f => some (f, binary f (subF f [5, 6] 4 false) 1 1 .p16)
  | .hmul2 f => some (f, binary f (subF f [5, 6] 4 false) 1 1 .p16)
  | .hfma2 f => some (f, ternary f (subF f [5, 6] 4 false) .p16)
  | .hmnx2 f => some (f, binary f (subF f [5, 6] 0 true) 1 1 .p16)
  | .hcmp2 f => some (f, binary f (subC f [5, 6] 13) 1 1 .p16)
  | .rcp f => some (f, sfu (unary f (subF f [4] 0 false)))
  | .rsq f => some (f, sfu (unary f (subF f [4] 0 false)))
  | .sqrt f => some (f, sfu (unary f (subF f [4] 4 false)))
  | .exp2 f => some (f, sfu (unary f (subF f [4] 0 false)))
  | .log2 f => some (f, sfu (unary f (subF f [4] 0 false)))
  | .sin f => some (f, sfu (unary f (subF f [4] 0 false)))
  | .cos f => some (f, sfu (unary f (subF f [4] 0 false)))
  | .tanh f => some (f, sfu (unary f (subF f [4] 0 false)))
  | .fdiv f => some (f, sfu (binary f (subF f [4] 4 false) 1 1 .f32))
  | .cvt f => some (f, { subOk := subConv f && fcCount f.fc == fcCount f.fcCtl, d := .wr (fcRegs f.fc), a := .rd (fcRegs f.fcCtl), extOk := f.ext.isImm })
  | .cvtq f => some (f, { subOk := subConv f && fcRegs f.fc == 1 && fcRegs f.fcCtl == 1 && [(1, 2), (2, 4), (1, 4)].contains (fcCount f.fcCtl, fcCount f.fc), d := if fcCount f.fcCtl = 1 ∧ fcCount f.fc = 4 then .rw 1 else .wr 1, a := .rd 1, b := .rd 1, extOk := f.ext.isImm })
  | .cvtd f => some (f, { subOk := subConv f && fcRegs f.fc == 1 && fcRegs f.fcCtl == 1 && [(2, 1), (4, 2)].contains (fcCount f.fcCtl, fcCount f.fc), d := .wr 2, a := .rd 1, extOk := f.ext.isImm })
  | .pack6 f => some (f, unary f (fcBinary6 f.fc && (f.sub &&& 3#8) == 0#8))
  | .unpk6 f => some (f, unary f (fcBinary6 f.fc && (f.sub &&& 3#8) == 0#8))
  | .prmt f => some (f, { subOk := f.sub == 0#8, d := .wr 1, a := .rd 1, b := .rd 1, x := if f.ext.isReg then .rd 1 else .unused, extOk := f.ext.isReg || f.ext.isImmCref })
  | .tag f => some (f, unary f ((decide (f.fc ≤ 15) || fcBinary8 f.fc) && (f.sub &&& 3#8) == 0#8))
  | .bscale f => some (f, unary f ((fcBinary6 f.fc || fcBinary8 f.fc) && (f.sub &&& 3#8) == 0#8))
  | .shfl f => some (f, { subOk := decide (f.sub.toNat ≤ 3), d := .wr 1, a := .rd 1, b := srcB f 1, extOk := f.ext.isNone || f.ext.isImmCref })
  | .vote f => some (f, unary f (decide (f.sub.toNat ≤ 3)))
  | .matchLanes f => some (f, unary f (decide (f.sub.toNat ≤ 1)))
  | .red f => some (f, { unary f (decide (f.ty ≤ 4) && decide (f.var3 ≤ 5) && (f.ty != 4 || decide (f.var3 ≤ 2)) && !f.exc) with d := .wr (tyRegs f.ty), a := .rd (tyRegs f.ty) })
  | .redmi f => some (f, { subOk := [0, 1, 4].contains f.ty && decide (f.var3 ≤ 1) && !f.exc, d := .wr 2, a := .rd 1, b := .rd 1, extOk := f.ext.isNone })
  | .scan f => some (f, { unary f (decide (f.ty ≤ 4) && decide (f.var3 ≤ 5) && (f.ty != 4 || decide (f.var3 ≤ 2))) with d := .wr (tyRegs f.ty), a := .rd (tyRegs f.ty) })
  | .bcst f => some (f, { subOk := f.sub == 0#8, d := .wr 1, a := .rd 1, b := srcB f 1, extOk := f.ext.isNone || f.ext.isImmCref })
  | .ld f => some (f, load f 2 true)
  | .st f => some (f, store f 2 true)
  | .lds f => some (f, load f 1 false)
  | .sts f => some (f, store f 1 false)
  | .ldr f => some (f, load f 1 false)
  | .str f => some (f, store f 1 false)
  | .ldc f => some (f, { load f 1 false with subOk := (f.sz == 2 || f.sz == 3) && (f.sub &&& 31#8) == 0#8 })
  | .atom f => some (f, { subOk := subA f.sub true && decide ((f.imm20 &&& 7#20).toNat ≤ 4) && f.ext.immBelow 3, d := if f.aop = 9 then .rw (if f.w64 then 2 else 1) else .wr (if f.w64 then 2 else 1), a := .rd 2, b := .rd (if f.w64 then 2 else 1), extOk := f.ext.isImm, sig := .required })
  | .atoms f => some (f, { subOk := subA f.sub false, d := if f.aop = 9 then .rw (if f.w64 then 2 else 1) else .wr (if f.w64 then 2 else 1), a := .rd 1, b := .rd (if f.w64 then 2 else 1), extOk := f.ext.isNone || f.ext.isImm, sig := .required })
  | .pref f => some (f, { subOk := decide (f.sub.toNat ≤ 3), a := .rd 2, extOk := f.ext.isNone || f.ext.isImm, sig := .required })
  | .cinv f => some (f, { subOk := f.sub == 0#8, a := .rd 2, b := .rd 1, extOk := f.ext.isNone, sig := .required })
  | .cwb f => some (f, { subOk := f.sub == 0#8, a := .rd 2, b := .rd 1, extOk := f.ext.isNone, sig := .required })
  | .acq f => some (f, { subOk := subS f.sub 0 0 1, a := .rd 2, extOk := f.ext.isNone || f.ext.isImm, sig := .required })
  | .rel f => some (f, { subOk := subS f.sub 0 0 0, a := .rd 2, extOk := f.ext.isNone || f.ext.isImm, sig := .required })
  | .mbind f => some (f, { subOk := decide (f.sub.toNat ≤ 7), d := .wr 1, a := .rd 2, b := .rd 2, x := if f.ext.isReg then .rd 1 else .unused, extOk := f.ext.isReg || f.ext.isImmCref, sig := .required })
  | .munbind f => some (f, { subOk := decide (f.sub.toNat ≤ 7), a := .rd 2, extOk := f.ext.isNone, sig := .required })
  | .fence f => some (f, { subOk := subS f.sub 1 3 0, extOk := f.ext.isNone, sig := .required })
  | .bar f => some (f, { subOk := decide (f.sub.toNat ≤ 47), extOk := f.ext.isNone, sig := .required })
  | .cbar f => some (f, { subOk := decide (f.sub.toNat ≤ 47), extOk := f.ext.isNone, sig := .required })
  | .await f => some (f, { subOk := f.sub == 0#8, d := .wr 1, a := .rd 2, b := .rd 1, extOk := f.ext.isNone, sig := .required })
  | .awake f => some (f, { subOk := decide (f.sub.toNat ≤ 1), d := .wr 1, a := .rd 2, extOk := f.ext.isNone, sig := .required })
  | .cpy f => some (f, { subOk := decide (f.sub.toNat ≤ 7) && (f.sub &&& 3#8) != 3#8, d := .rd 4, a := .rd 2, b := .rd 1, extOk := f.ext.isNone || f.ext.isImm, sig := .required })
  | .cpyg f => some (f, { subOk := f.sub == 0#8 || f.sub == 4#8, d := .rd 4, a := .rd 2, b := .rd 1, extOk := f.ext.isNone || f.ext.isImm, sig := .required })
  | .cpym f => some (f, { subOk := f.sub == 0#8, d := .rd 4, a := .rd 2, b := .rd 1, x := if f.ext.isReg then .rd 1 else .unused, extOk := f.ext.isReg || f.ext.immBelow 12, sig := .required })
  | .cpyn f => some (f, { subOk := f.sub == 0#8 || f.sub == 4#8, d := .rd 4, a := .rd 2, extOk := f.ext.isNone, sig := .required })
  | .cpyf f => some (f, { subOk := decide (f.sub.toNat ≤ 7), d := .rd 4, a := .rd (if f.sub.getLsbD 2 then 2 else 1), b := .rd (if (f.sub &&& 3#8) == 3#8 then 2 else 1), extOk := f.ext.isNone || (f.ext.isImm && !f.sub.getLsbD 2), sig := .required })
  | .mapres f => some (f, { subOk := f.tl == 0, d := .wr 1, a := .rd 4, extOk := f.ext.isNone, sig := .required })
  | .mapset f => some (f, { subOk := decide (f.tl ≤ 9), a := srcB f 1, extOk := f.ext.isNone || f.ext.isImmCref, sig := .required })
  | .mapget f => some (f, { subOk := decide (f.tl ≤ 9), d := .wr 1, extOk := f.ext.isNone, sig := .required })
  | .maprel f => some (f, { subOk := f.tl == 0, extOk := f.ext.isNone, sig := .required })
  | .mma f => some (f, product f .unused)
  | .mmas f => some (f, product f .unused)
  | .mmag f => some (f, { product f (.rd 1) with subOk := (f.imm20 &&& 0xFFF#20) == 0#20 && f.a != .zero })
  | .accz f => some (f, { subOk := f.mp == 0, extOk := f.ext.isNone, sig := .required })
  | .accld f => some (f, { subOk := accOk f, d := .wr (accN f), extOk := f.ext.isImm, sig := .required, run := true })
  | .accst f => some (f, { subOk := f.mp == 0 && (f.fcCtl == 3 || f.fcCtl == 16 || f.fcCtl == 17 || fcBinary8 f.fcCtl) && decide (f.rmCtl ≤ 5) && !(f.fcCtl == 3 && f.rmCtl == 5) && (f.imm20 &&& 0x3FF#20) == 0#20, a := .rd 1, b := .rd 1, extOk := f.ext.isImm, sig := .required })
  | .accq f => some (f, { subOk := f.mp == 0 && decide ((f.imm20 >>> 15).toNat % 8 ≠ 0) && (f.imm20 &&& 0x7FFF#20) == 0#20, a := .rd 1, b := .rd 1, extOk := f.ext.isImm, sig := .required })
  | .accadd f => some (f, { subOk := accOk f, a := .rd (accN f), extOk := f.ext.isImm, sig := .required, run := true })
  | .sysc f => some (f, { subOk := f.sub == 0#8, extOk := f.ext.immBelow 8, sig := .never })
  | .rets f => some (f, { subOk := f.sub == 0#8, extOk := f.ext.isNone, sig := .never })
  | .trap f => some (f, { subOk := f.sub == 0#8, extOk := f.ext.isImm, sig := .never })
  | .trapReg f => some (f, { subOk := f.sub == 0#8, a := .rd 1, extOk := f.ext.isNone, sig := .never })
  | .brk f => some (f, { subOk := f.sub == 0#8, extOk := f.ext.isImm, sig := .never })
  | .brkReg f => some (f, { subOk := f.sub == 0#8, a := .rd 1, extOk := f.ext.isNone, sig := .never })
  | .rdsr f => some (f, { subOk := decide (f.sub.toNat ≤ 0x15), d := .wr (if f.sub == 0x13#8 then 2 else 1), extOk := f.ext.isNone })
  | .wrsr f => some (f, { subOk := [0x11, 0x12, 0x15].contains f.sub.toNat, a := srcB f 1, extOk := f.ext.isNone || f.ext.isImmCref })
  | .intr f => some (f, { subOk := f.sub == 0#8, a := .rd 1, b := .rd 1, extOk := f.ext.isNone, sig := .required })
  | .psave f => some (f, { subOk := f.sub == 0#8, extOk := f.ext.immBelow 4, sig := .never })
  | .ctxsave f => some (f, { subOk := f.sub == 0#8, d := .wr 1, a := .rd 2, b := .rd 1, extOk := f.ext.isNone, sig := .required })
  | .ctxload f => some (f, { subOk := f.sub == 0#8, d := .wr 1, a := .rd 2, extOk := f.ext.isNone, sig := .required })
  | .tlbinv f => some (f, { subOk := decide (f.sub.toNat ≤ 2), a := if f.sub == 1#8 then .rd 2 else .unused, b := .rd 1, extOk := f.ext.isNone, sig := .required })
  | _ => none

/-- Whether a guard satisfies its opcode's rule; a negated 31 is malformed (R40, R54). -/
def Guard.ok (g : Guard) (r : GuardRule) : Bool :=
  !(g.neg && g.reg == 31#5) && (r == .any || g.reg == 31#5)

/-- Whether a signal satisfies its opcode's rule; 12-14 are illegal (R41). -/
def Hints.ok (h : Hints) (r : SigRule) : Bool :=
  match r with
  | .never => h.signal == 15#4
  | .optional => h.signal == 15#4 || decide (h.signal.toNat ≤ 11)
  | .required => decide (h.signal.toNat ≤ 11)

/-- Whether the fields of a word satisfy its shape (R54). -/
def Shape.ok (s : Shape) (f : Fields) : Bool :=
  s.subOk && s.extOk && f.guard.ok s.guard && f.hints.ok s.sig
    && (if s.run then
          (if s.d = .unused then f.d.isUnused else f.d.okRun s.d.count)
            && (if s.a = .unused then f.a.isUnused else f.a.okRun s.a.count)
        else f.d.okUse s.d && f.a.okUse s.a)
    && f.b.okUse s.b
    && (match f.ext with
        | .reg o => o.okUse s.x
        | _ => true)

/-- How many registers each code of a paired operation reads: A, B and D (R51). -/
def pairReads0 (p : BitVec 5) : Bool × Bool × Bool :=
  let n := p.toNat
  if n = 0 then (false, false, false)
  else if n = 13 then (true, false, false)
  else if n = 4 ∨ n = 9 ∨ n = 12 then (true, true, true)
  else (true, true, false)

/-- As pairReads0, for pipe V1 (R51). -/
def pairReads1 (p : BitVec 5) : Bool × Bool :=
  let n := p.toNat
  if n = 0 then (false, false) else if n = 14 then (true, false) else (true, true)

/-- The main-file registers a paired word reads (R52). -/
def PairFields.readRegs (p : PairFields) : List Nat :=
  let r0 := pairReads0 p.p0
  let r1 := pairReads1 p.p1
  (if r0.1 then [p.a0.toNat] else []) ++ (if r0.2.1 then [p.b0.toNat] else []) ++ (if r0.2.2 then [p.d0.toNat] else [])
    ++ (if r1.1 then [p.a1.toNat] else []) ++ (if r1.2 then [p.b1.toNat] else [])

/-- A paired word is malformed in the cases of R52. -/
def PairFields.ok (p : PairFields) : Bool :=
  let r0 := pairReads0 p.p0
  let r1 := pairReads1 p.p1
  decide (p.p0.toNat ≤ 13) && decide (p.p1.toNat ≤ 16) && !(p.p0 == 0#5 && p.p1 == 0#5)
    && (p.p0 == 0#5 || p.p1 == 0#5 || decide (p.d0.toNat % 4 ≠ p.d1.toNat % 4))
    && decide (p.readRegs.dedup.length ≤ 3)
    && p.hints.signal == 15#4 && !(p.guard.neg && p.guard.reg == 31#5)
    && (r0.1 || p.a0 == 0#8) && (r0.2.1 || p.b0 == 0#8) && (p.p0 != 0#5 || p.d0 == 0#8)
    && (r1.1 || p.a1 == 0#8) && (r1.2 || p.b1 == 0#8) && (p.p1 != 0#5 || p.d1 == 0#8)

/-- Which g-register field a generator word leaves zero, uses, or uses as an even pair (R67). -/
inductive GenUse where
  | no
  | reg
  | even
  deriving DecidableEq, Repr

def GenUse.ok (u : GenUse) (r : BitVec 6) : Bool :=
  match u with
  | .no => r == 0#6
  | .reg => true
  | .even => !r.getLsbD 0

/-- The encoding rule of a generator word (R30, R49, R67). -/
structure GenShape where
  subOk : Bool
  d     : GenUse := .no
  a     : GenUse := .no
  b     : GenUse := .no
  extOk : Bool
  deriving DecidableEq, Repr

/-- Rows of R67 with the SUB column of R49. -/
def Instr.genShape : Instr → Option (GenFields × GenShape)
  | .galu f => some (f, { subOk := decide (f.sub.toNat ≤ 15), d := .reg, a := .reg, b := if f.ext.isNone then .reg else .no, extOk := f.ext.isNone || f.ext.isImm || f.ext.isShifted })
  | .gmovi f => some (f, { subOk := decide (f.sub.toNat ≤ 3), d := .reg, extOk := f.ext.isImm && (f.sub != 3#8 || f.ext.immBelow 4) })
  | .gld f => some (f, { subOk := decide (f.sub.toNat ≤ 7), d := .reg, a := .reg, extOk := f.ext.isNone || f.ext.isImm })
  | .gst f => some (f, { subOk := decide (f.sub.toNat ≤ 3), a := .reg, b := .reg, extOk := f.ext.isNone || f.ext.isImm })
  | .gbr f => some (f, { subOk := decide (f.sub.toNat ≤ 5), a := .reg, b := .reg, extOk := f.ext.isRel })
  | .gjmp f => some (f, { subOk := f.sub == 0#8, extOk := f.ext.isRel })
  | .gjmpReg f => some (f, { subOk := f.sub == 0#8, a := .reg, extOk := f.ext.isNone })
  | .gcall f => some (f, { subOk := f.sub == 0#8, d := .reg, extOk := f.ext.isRel })
  | .gcallReg f => some (f, { subOk := f.sub == 0#8, d := .reg, a := .reg, extOk := f.ext.isNone })
  | .gret f => some (f, { subOk := f.sub == 0#8, a := .reg, extOk := f.ext.isNone })
  | .gemit f => some (f, { subOk := f.sub == 0#8, b := .even, extOk := f.ext.isNone })
  | .gemitt f => some (f, { subOk := true, a := .reg, b := .even, extOk := f.ext.isNone || f.ext.isImm })
  | .gemitb f => some (f, { subOk := f.sub == 0#8, a := .reg, b := .reg, extOk := f.ext.isNone || f.ext.isImm })
  | .gblkopen f => some (f, { subOk := f.sub == 0#8, d := .reg, a := if f.ext.isNone then .reg else .no, extOk := f.ext.isNone || f.ext.isImm })
  | .gblkseal f => some (f, { subOk := f.sub == 0#8, d := .reg, a := .reg, extOk := f.ext.isNone })
  | .gblkfind f => some (f, { subOk := f.sub == 0#8, d := .reg, a := .reg, extOk := f.ext.isNone })
  | .gblkfree f => some (f, { subOk := f.sub == 0#8, a := .reg, extOk := f.ext.isNone })
  | .gblkload f => some (f, { subOk := f.sub == 0#8, a := .reg, b := .reg, extOk := f.ext.isNone || f.ext.isImm })
  | .gstart f => some (f, { subOk := f.sub == 0#8, d := .reg, a := .reg, b := .reg, extOk := f.ext.isImm })
  | .gentry f => some (f, { subOk := f.sub == 0#8, a := .reg, b := .reg, extOk := f.ext.isImm })
  | .gwaitb f => some (f, { subOk := f.sub == 0#8, d := .reg, a := .reg, extOk := f.ext.isImm })
  | .gyield f => some (f, { subOk := f.sub == 0#8, extOk := f.ext.isImm })
  | .gexit f => some (f, { subOk := f.sub == 0#8, extOk := f.ext.isNone })
  | .gacq f => some (f, { subOk := subS f.sub 0 0 1, a := .reg, extOk := f.ext.isNone || f.ext.isImm })
  | .grel f => some (f, { subOk := subS f.sub 0 0 0, a := .reg, extOk := f.ext.isNone || f.ext.isImm })
  | .grdsr f => some (f, { subOk := decide (f.sub.toNat ≤ 0x15), d := .reg, extOk := f.ext.isNone })
  | .gatom f => some (f, { subOk := subA f.sub true, d := .reg, a := .reg, b := .reg, extOk := f.ext.isNone || f.ext.isImm })
  | .gfence f => some (f, { subOk := subS f.sub 1 3 0, extOk := f.ext.isNone })
  | _ => none

def GenShape.ok (s : GenShape) (f : GenFields) : Bool :=
  s.subOk && s.extOk && s.d.ok f.d && s.a.ok f.a && s.b.ok f.b

/-- Whether a term of the syntax is one the part can meet: a word that R49, R54, R67 and R52 accept; every event and every
hart instruction is. -/
def Instr.wellFormed (i : Instr) : Bool :=
  match i.shape with
  | some (f, s) => s.ok f
  | none => match i.genShape with
    | some (f, s) => s.ok f
    | none => match i with
      | .pair p => p.ok
      | _ => true

/-- The privileged forms that depend on the word alone (R48): RETS, INTR, CTXSAVE, CTXLOAD, TLBINV, WRSR of %preq. -/
def Instr.privileged : Instr → Bool
  | .rets _ => true
  | .intr _ => true
  | .ctxsave _ => true
  | .ctxload _ => true
  | .tlbinv _ => true
  | .wrsr f => f.sub == 0x12#8
  | _ => false

end Sys2Proof
end

