-- ==== Sys2Proof/Decode.lean ====
section
/-!
DEFINITION. Decoding and encoding: the 96-bit words of the generator and group classes (R28, R30, R31, R34, R47, R50,
R54) and the 32-bit words of the harts' custom-0 instructions (R397); bytes and words in the byte order of R2 and R28. An
event of the part has no encoding and no word decodes to one.
-/

namespace Sys2Proof

/-- Why a word is no instruction: the rows of R54. -/
inductive Reject where
  /-- OP 0x00 or a value that R47 does not list. -/
  | opcode
  /-- An operand code 0x323-0x3FF, or a g-register number above 63. -/
  | operand
  /-- XK 6-15, X nonzero under XK 0, X[19:10] nonzero under XK 1, or an extension kind a generator word cannot have. -/
  | extension
  /-- G or H nonzero in a generator word, or bits [29:26] nonzero in a paired word. -/
  | fixedBits
  /-- A word that breaks its opcode's row of R49 or of its class's encoding table. -/
  | malformed
  /-- Fewer bytes than the word has. -/
  | length
  /-- A hart word outside the encodings of R397. -/
  | hart
  deriving DecidableEq, Repr

/-- The number whose little-endian bytes are given (R2). -/
def leNat : List Byte → Nat
  | [] => 0
  | b :: bs => b.toNat + 256 * leNat bs

/-- The n little-endian bytes of a number (R2). -/
def leBytes : Nat → Nat → List Byte
  | 0, _ => []
  | n + 1, w => BitVec.ofNat 8 w :: leBytes n (w / 256)

/-- The operand a code names, none for an illegal code (R31). -/
def decodeOperand (c : BitVec 10) : Option Operand :=
  if h : c.toNat < 768 then some (.v ⟨c.toNat, h⟩)
  else if h : c.toNat < 800 then some (.o ⟨c.toNat - 768, by omega⟩)
  else if c.toNat = 800 then some .y0
  else if c.toNat = 801 then some .y1
  else if c.toNat = 802 then some .zero
  else none

/-- The code of an operand (R31). -/
def Operand.code : Operand → BitVec 10
  | .v n => BitVec.ofNat 10 n.val
  | .o n => BitVec.ofNat 10 (768 + n.val)
  | .y0 => 0x320#10
  | .y1 => 0x321#10
  | .zero => 0x322#10

/-- The extension of X under XK, none where R34 makes the pair illegal. -/
def decodeExt (xk : BitVec 4) (x : BitVec 20) : Option Ext :=
  match xk.toNat with
  | 0 => if x = 0#20 then some .none else none
  | 1 => if x >>> 10 = 0#20 then (decodeOperand (x.setWidth 10)).map .reg else none
  | 2 => some (.imm x)
  | 3 => some (.cref (x.extractLsb' 17 3) (x.extractLsb' 0 17))
  | 4 => some (.rel x)
  | 5 => some (.shifted x)
  | _ => none

/-- XK of an extension (R34). -/
def Ext.kind : Ext → BitVec 4
  | .none => 0#4
  | .reg _ => 1#4
  | .imm _ => 2#4
  | .cref _ _ => 3#4
  | .rel _ => 4#4
  | .shifted _ => 5#4

/-- X of an extension (R34). -/
def Ext.bits : Ext → BitVec 20
  | .none => 0#20
  | .reg o => o.code.setWidth 20
  | .imm x => x
  | .cref k off => k ++ off
  | .rel x => x
  | .shifted x => x

/-- The guard of G (R40). -/
def decodeGuard (g : BitVec 6) : Guard := { neg := g.getLsbD 5, reg := g.extractLsb' 0 5 }

/-- G of a guard (R40). -/
def Guard.bits (g : Guard) : BitVec 6 := BitVec.ofBool g.neg ++ g.reg

/-- The hints of H (R41). -/
def decodeHints (h : BitVec 20) : Hints :=
  { dist := h.extractLsb' 17 3, wait := h.extractLsb' 5 12, switch := h.getLsbD 4, signal := h.extractLsb' 0 4 }

/-- H of the hints (R41). -/
def Hints.bits (h : Hints) : BitVec 20 := h.dist ++ h.wait ++ BitVec.ofBool h.switch ++ h.signal

/-- The group instruction of a major opcode other than PAIR (R47); where two rows share an opcode the extension tells them
apart (R111, R317). -/
def groupOfOp (op : BitVec 8) (f : Fields) : Option Instr :=
  match op.toNat with
  | 0x20 => some (.nop f)
  | 0x21 => some (.bra f)
  | 0x22 => some (.brc f)
  | 0x23 => some (.brx f)
  | 0x24 => some (if f.ext.isRel then .call f else .callReg f)
  | 0x25 => some (.ret f)
  | 0x26 => some (.loop f)
  | 0x27 => some (.mask f)
  | 0x28 => some (.spawn f)
  | 0x29 => some (.exit f)
  | 0x2A => some (.yield f)
  | 0x2B => some (.fbar f)
  | 0x2C => some (if f.ext.isImm then .waitc f else .waitcReg f)
  | 0x30 => some (.iadd f)
  | 0x31 => some (.isub f)
  | 0x32 => some (.imul f)
  | 0x33 => some (.imulh f)
  | 0x34 => some (.imad f)
  | 0x35 => some (.imulw f)
  | 0x36 => some (.idiv f)
  | 0x37 => some (.imin f)
  | 0x38 => some (.imax f)
  | 0x39 => some (.iabs f)
  | 0x3A => some (.and f)
  | 0x3B => some (.or f)
  | 0x3C => some (.xor f)
  | 0x3D => some (.andn f)
  | 0x3E => some (.shl f)
  | 0x3F => some (.shr f)
  | 0x40 => some (.sra f)
  | 0x41 => some (.rot f)
  | 0x42 => some (.shf f)
  | 0x43 => some (.bfx f)
  | 0x44 => some (.bfi f)
  | 0x45 => some (.popc f)
  | 0x46 => some (.clz f)
  | 0x47 => some (.ctz f)
  | 0x48 => some (.brev f)
  | 0x49 => some (.icmp f)
  | 0x4A => some (.sel f)
  | 0x4B => some (.mov f)
  | 0x4C => some (.iadd64 f)
  | 0x4D => some (.isub64 f)
  | 0x4E => some (.lea f)
  | 0x4F => some (.isad f)
  | 0x50 => some (.fadd f)
  | 0x51 => some (.fsub f)
  | 0x52 => some (.fmul f)
  | 0x53 => some (.ffma f)
  | 0x54 => some (.fmin f)
  | 0x55 => some (.fmax f)
  | 0x56 => some (.fcmp f)
  | 0x57 => some (.frnd f)
  | 0x58 => some (.fclass f)
  | 0x59 => some (.fscale f)
  | 0x5A => some (.fdot2 f)
  | 0x5B => some (.fdot4 f)
  | 0x5C => some (.hadd2 f)
  | 0x5D => some (.hmul2 f)
  | 0x5E => some (.hfma2 f)
  | 0x5F => some (.hmnx2 f)
  | 0x60 => some (.hcmp2 f)
  | 0x61 => some (.rcp f)
  | 0x62 => some (.rsq f)
  | 0x63 => some (.sqrt f)
  | 0x64 => some (.exp2 f)
  | 0x65 => some (.log2 f)
  | 0x66 => some (.sin f)
  | 0x67 => some (.cos f)
  | 0x68 => some (.tanh f)
  | 0x69 => some (.fdiv f)
  | 0x70 => some (.cvt f)
  | 0x71 => some (.cvtq f)
  | 0x72 => some (.cvtd f)
  | 0x73 => some (.pack6 f)
  | 0x74 => some (.unpk6 f)
  | 0x75 => some (.prmt f)
  | 0x76 => some (.tag f)
  | 0x77 => some (.bscale f)
  | 0x78 => some (.shfl f)
  | 0x79 => some (.vote f)
  | 0x7A => some (.matchLanes f)
  | 0x7B => some (.red f)
  | 0x7C => some (.redmi f)
  | 0x7D => some (.scan f)
  | 0x7E => some (.bcst f)
  | 0x80 => some (.ld f)
  | 0x81 => some (.st f)
  | 0x82 => some (.lds f)
  | 0x83 => some (.sts f)
  | 0x84 => some (.ldr f)
  | 0x85 => some (.str f)
  | 0x86 => some (.ldc f)
  | 0x87 => some (.atom f)
  | 0x88 => some (.atoms f)
  | 0x89 => some (.pref f)
  | 0x8A => some (.cinv f)
  | 0x8B => some (.cwb f)
  | 0x90 => some (.acq f)
  | 0x91 => some (.rel f)
  | 0x92 => some (.mbind f)
  | 0x93 => some (.munbind f)
  | 0x94 => some (.fence f)
  | 0x95 => some (.bar f)
  | 0x96 => some (.cbar f)
  | 0x97 => some (.await f)
  | 0x98 => some (.awake f)
  | 0xA0 => some (.cpy f)
  | 0xA1 => some (.cpyg f)
  | 0xA2 => some (.cpym f)
  | 0xA3 => some (.cpyn f)
  | 0xA4 => some (.cpyf f)
  | 0xA8 => some (.mapres f)
  | 0xA9 => some (.mapset f)
  | 0xAA => some (.mapget f)
  | 0xAB => some (.maprel f)
  | 0xAC => some (.mma f)
  | 0xAD => some (.mmas f)
  | 0xAE => some (.mmag f)
  | 0xAF => some (.accz f)
  | 0xB0 => some (.accld f)
  | 0xB1 => some (.accst f)
  | 0xB2 => some (.accq f)
  | 0xB3 => some (.accadd f)
  | 0xC0 => some (.sysc f)
  | 0xC1 => some (.rets f)
  | 0xC2 => some (if f.ext.isImm then .trap f else .trapReg f)
  | 0xC3 => some (if f.ext.isImm then .brk f else .brkReg f)
  | 0xC4 => some (.rdsr f)
  | 0xC5 => some (.wrsr f)
  | 0xC6 => some (.intr f)
  | 0xC7 => some (.psave f)
  | 0xC8 => some (.ctxsave f)
  | 0xC9 => some (.ctxload f)
  | 0xCA => some (.tlbinv f)
  | _ => none

/-- The major opcode and fields of a group instruction other than PAIR (R47). -/
def Instr.groupFields : Instr → Option (BitVec 8 × Fields)
  | .nop f => some (0x20#8, f)
  | .bra f => some (0x21#8, f)
  | .brc f => some (0x22#8, f)
  | .brx f => some (0x23#8, f)
  | .call f => some (0x24#8, f)
  | .callReg f => some (0x24#8, f)
  | .ret f => some (0x25#8, f)
  | .loop f => some (0x26#8, f)
  | .mask f => some (0x27#8, f)
  | .spawn f => some (0x28#8, f)
  | .exit f => some (0x29#8, f)
  | .yield f => some (0x2A#8, f)
  | .fbar f => some (0x2B#8, f)
  | .waitc f => some (0x2C#8, f)
  | .waitcReg f => some (0x2C#8, f)
  | .iadd f => some (0x30#8, f)
  | .isub f => some (0x31#8, f)
  | .imul f => some (0x32#8, f)
  | .imulh f => some (0x33#8, f)
  | .imad f => some (0x34#8, f)
  | .imulw f => some (0x35#8, f)
  | .idiv f => some (0x36#8, f)
  | .imin f => some (0x37#8, f)
  | .imax f => some (0x38#8, f)
  | .iabs f => some (0x39#8, f)
  | .and f => some (0x3A#8, f)
  | .or f => some (0x3B#8, f)
  | .xor f => some (0x3C#8, f)
  | .andn f => some (0x3D#8, f)
  | .shl f => some (0x3E#8, f)
  | .shr f => some (0x3F#8, f)
  | .sra f => some (0x40#8, f)
  | .rot f => some (0x41#8, f)
  | .shf f => some (0x42#8, f)
  | .bfx f => some (0x43#8, f)
  | .bfi f => some (0x44#8, f)
  | .popc f => some (0x45#8, f)
  | .clz f => some (0x46#8, f)
  | .ctz f => some (0x47#8, f)
  | .brev f => some (0x48#8, f)
  | .icmp f => some (0x49#8, f)
  | .sel f => some (0x4A#8, f)
  | .mov f => some (0x4B#8, f)
  | .iadd64 f => some (0x4C#8, f)
  | .isub64 f => some (0x4D#8, f)
  | .lea f => some (0x4E#8, f)
  | .isad f => some (0x4F#8, f)
  | .fadd f => some (0x50#8, f)
  | .fsub f => some (0x51#8, f)
  | .fmul f => some (0x52#8, f)
  | .ffma f => some (0x53#8, f)
  | .fmin f => some (0x54#8, f)
  | .fmax f => some (0x55#8, f)
  | .fcmp f => some (0x56#8, f)
  | .frnd f => some (0x57#8, f)
  | .fclass f => some (0x58#8, f)
  | .fscale f => some (0x59#8, f)
  | .fdot2 f => some (0x5A#8, f)
  | .fdot4 f => some (0x5B#8, f)
  | .hadd2 f => some (0x5C#8, f)
  | .hmul2 f => some (0x5D#8, f)
  | .hfma2 f => some (0x5E#8, f)
  | .hmnx2 f => some (0x5F#8, f)
  | .hcmp2 f => some (0x60#8, f)
  | .rcp f => some (0x61#8, f)
  | .rsq f => some (0x62#8, f)
  | .sqrt f => some (0x63#8, f)
  | .exp2 f => some (0x64#8, f)
  | .log2 f => some (0x65#8, f)
  | .sin f => some (0x66#8, f)
  | .cos f => some (0x67#8, f)
  | .tanh f => some (0x68#8, f)
  | .fdiv f => some (0x69#8, f)
  | .cvt f => some (0x70#8, f)
  | .cvtq f => some (0x71#8, f)
  | .cvtd f => some (0x72#8, f)
  | .pack6 f => some (0x73#8, f)
  | .unpk6 f => some (0x74#8, f)
  | .prmt f => some (0x75#8, f)
  | .tag f => some (0x76#8, f)
  | .bscale f => some (0x77#8, f)
  | .shfl f => some (0x78#8, f)
  | .vote f => some (0x79#8, f)
  | .matchLanes f => some (0x7A#8, f)
  | .red f => some (0x7B#8, f)
  | .redmi f => some (0x7C#8, f)
  | .scan f => some (0x7D#8, f)
  | .bcst f => some (0x7E#8, f)
  | .ld f => some (0x80#8, f)
  | .st f => some (0x81#8, f)
  | .lds f => some (0x82#8, f)
  | .sts f => some (0x83#8, f)
  | .ldr f => some (0x84#8, f)
  | .str f => some (0x85#8, f)
  | .ldc f => some (0x86#8, f)
  | .atom f => some (0x87#8, f)
  | .atoms f => some (0x88#8, f)
  | .pref f => some (0x89#8, f)
  | .cinv f => some (0x8A#8, f)
  | .cwb f => some (0x8B#8, f)
  | .acq f => some (0x90#8, f)
  | .rel f => some (0x91#8, f)
  | .mbind f => some (0x92#8, f)
  | .munbind f => some (0x93#8, f)
  | .fence f => some (0x94#8, f)
  | .bar f => some (0x95#8, f)
  | .cbar f => some (0x96#8, f)
  | .await f => some (0x97#8, f)
  | .awake f => some (0x98#8, f)
  | .cpy f => some (0xA0#8, f)
  | .cpyg f => some (0xA1#8, f)
  | .cpym f => some (0xA2#8, f)
  | .cpyn f => some (0xA3#8, f)
  | .cpyf f => some (0xA4#8, f)
  | .mapres f => some (0xA8#8, f)
  | .mapset f => some (0xA9#8, f)
  | .mapget f => some (0xAA#8, f)
  | .maprel f => some (0xAB#8, f)
  | .mma f => some (0xAC#8, f)
  | .mmas f => some (0xAD#8, f)
  | .mmag f => some (0xAE#8, f)
  | .accz f => some (0xAF#8, f)
  | .accld f => some (0xB0#8, f)
  | .accst f => some (0xB1#8, f)
  | .accq f => some (0xB2#8, f)
  | .accadd f => some (0xB3#8, f)
  | .sysc f => some (0xC0#8, f)
  | .rets f => some (0xC1#8, f)
  | .trap f => some (0xC2#8, f)
  | .trapReg f => some (0xC2#8, f)
  | .brk f => some (0xC3#8, f)
  | .brkReg f => some (0xC3#8, f)
  | .rdsr f => some (0xC4#8, f)
  | .wrsr f => some (0xC5#8, f)
  | .intr f => some (0xC6#8, f)
  | .psave f => some (0xC7#8, f)
  | .ctxsave f => some (0xC8#8, f)
  | .ctxload f => some (0xC9#8, f)
  | .tlbinv f => some (0xCA#8, f)
  | _ => none

/-- The generator instruction of a major opcode (R47, R67). -/
def genOfOp (op : BitVec 8) (f : GenFields) : Option Instr :=
  match op.toNat with
  | 0x01 => some (.galu f)
  | 0x02 => some (.gmovi f)
  | 0x03 => some (.gld f)
  | 0x04 => some (.gst f)
  | 0x05 => some (.gbr f)
  | 0x06 => some (if f.ext.isRel then .gjmp f else .gjmpReg f)
  | 0x07 => some (if f.ext.isRel then .gcall f else .gcallReg f)
  | 0x08 => some (.gret f)
  | 0x09 => some (.gemit f)
  | 0x0A => some (.gemitt f)
  | 0x0B => some (.gemitb f)
  | 0x0C => some (.gblkopen f)
  | 0x0D => some (.gblkseal f)
  | 0x0E => some (.gblkfind f)
  | 0x0F => some (.gblkfree f)
  | 0x10 => some (.gblkload f)
  | 0x11 => some (.gstart f)
  | 0x12 => some (.gentry f)
  | 0x13 => some (.gwaitb f)
  | 0x14 => some (.gyield f)
  | 0x15 => some (.gexit f)
  | 0x16 => some (.gacq f)
  | 0x17 => some (.grel f)
  | 0x18 => some (.grdsr f)
  | 0x19 => some (.gatom f)
  | 0x1A => some (.gfence f)
  | _ => none

/-- The major opcode and fields of a generator instruction (R47). -/
def Instr.genFields : Instr → Option (BitVec 8 × GenFields)
  | .galu f => some (0x01#8, f)
  | .gmovi f => some (0x02#8, f)
  | .gld f => some (0x03#8, f)
  | .gst f => some (0x04#8, f)
  | .gbr f => some (0x05#8, f)
  | .gjmp f => some (0x06#8, f)
  | .gcall f => some (0x07#8, f)
  | .gret f => some (0x08#8, f)
  | .gemit f => some (0x09#8, f)
  | .gemitt f => some (0x0A#8, f)
  | .gemitb f => some (0x0B#8, f)
  | .gblkopen f => some (0x0C#8, f)
  | .gblkseal f => some (0x0D#8, f)
  | .gblkfind f => some (0x0E#8, f)
  | .gblkfree f => some (0x0F#8, f)
  | .gblkload f => some (0x10#8, f)
  | .gstart f => some (0x11#8, f)
  | .gentry f => some (0x12#8, f)
  | .gwaitb f => some (0x13#8, f)
  | .gyield f => some (0x14#8, f)
  | .gexit f => some (0x15#8, f)
  | .gacq f => some (0x16#8, f)
  | .grel f => some (0x17#8, f)
  | .grdsr f => some (0x18#8, f)
  | .gatom f => some (0x19#8, f)
  | .gfence f => some (0x1A#8, f)
  | .gjmpReg f => some (0x06#8, f)
  | .gcallReg f => some (0x07#8, f)
  | _ => none

/-- The fields of a group word (R28), or why they are none. -/
def decodeFields (w : IWord) : Except Reject Fields :=
  match decodeOperand (w.extractLsb' 70 10), decodeOperand (w.extractLsb' 60 10), decodeOperand (w.extractLsb' 50 10) with
  | some d, some a, some b =>
    match decodeExt (w.extractLsb' 26 4) (w.extractLsb' 30 20) with
    | some e => .ok ⟨w.extractLsb' 80 8, d, a, b, e, decodeGuard (w.extractLsb' 20 6), decodeHints (w.extractLsb' 0 20)⟩
    | none => .error .extension
  | _, _, _ => .error .operand

/-- The word of an opcode and the fields of a group word (R28). -/
def encodeFields (op : BitVec 8) (f : Fields) : IWord :=
  op ++ f.sub ++ f.d.code ++ f.a.code ++ f.b.code ++ f.ext.bits ++ f.ext.kind ++ f.guard.bits ++ f.hints.bits

/-- The extension of a generator word: kinds 0, 2, 4 and 5 (R30). -/
def decodeGenExt (xk : BitVec 4) (x : BitVec 20) : Option Ext :=
  if xk = 1#4 ∨ xk = 3#4 then none else decodeExt xk x

/-- The fields of a generator word (R30), or why they are none. -/
def decodeGenFields (w : IWord) : Except Reject GenFields :=
  if w.extractLsb' 76 4 ≠ 0#4 ∨ w.extractLsb' 66 4 ≠ 0#4 ∨ w.extractLsb' 56 4 ≠ 0#4 then .error .operand
  else if w.extractLsb' 0 26 ≠ 0#26 then .error .fixedBits
  else match decodeGenExt (w.extractLsb' 26 4) (w.extractLsb' 30 20) with
    | some e => .ok ⟨w.extractLsb' 80 8, w.extractLsb' 70 6, w.extractLsb' 60 6, w.extractLsb' 50 6, e⟩
    | none => .error .extension

/-- The word of an opcode and the fields of a generator word (R28, R30). -/
def encodeGenFields (op : BitVec 8) (f : GenFields) : IWord :=
  op ++ f.sub ++ 0#4 ++ f.d ++ 0#4 ++ f.a ++ 0#4 ++ f.b ++ f.ext.bits ++ f.ext.kind ++ 0#26

/-- The fields of a paired word (R50). -/
def decodePairFields (w : IWord) : Except Reject PairFields :=
  if w.extractLsb' 26 4 ≠ 0#4 then .error .fixedBits
  else .ok { p0 := w.extractLsb' 83 5, d0 := w.extractLsb' 75 8, a0 := w.extractLsb' 67 8, b0 := w.extractLsb' 59 8,
             p1 := w.extractLsb' 54 5, d1 := w.extractLsb' 46 8, a1 := w.extractLsb' 38 8, b1 := w.extractLsb' 30 8,
             guard := decodeGuard (w.extractLsb' 20 6), hints := decodeHints (w.extractLsb' 0 20) }

/-- The word of a paired instruction (R50). -/
def encodePairFields (p : PairFields) : IWord :=
  0xE0#8 ++ p.p0 ++ p.d0 ++ p.a0 ++ p.b0 ++ p.p1 ++ p.d1 ++ p.a1 ++ p.b1 ++ 0#4 ++ p.guard.bits ++ p.hints.bits

/-- The term of a word, well formed or not: only its fields are read. -/
def decodeRaw (w : IWord) : Except Reject Instr :=
  let op := w.extractLsb' 88 8
  if op = 0xE0#8 then (decodePairFields w).map .pair
  else if op.toNat ≤ 0x1A then
    match decodeGenFields w with
    | .ok f => match genOfOp op f with
      | some i => .ok i
      | none => .error .opcode
    | .error e => if op = 0#8 then .error .opcode else .error e
  else match decodeFields w with
    | .ok f => match groupOfOp op f with
      | some i => .ok i
      | none => .error .opcode
    | .error e => if (groupOfOp op ⟨0, .v 0, .v 0, .v 0, .none, ⟨false, 31⟩, ⟨0, 0, false, 15⟩⟩).isSome then .error e else .error .opcode

/-- The instruction of a 96-bit word, or the row of R54 that rejects it. -/
def decodeWord (w : IWord) : Except Reject Instr :=
  match decodeRaw w with
  | .ok i => if i.wellFormed then .ok i else .error .malformed
  | .error e => .error e

/-- Whether an instruction is a generator word (R47). -/
def Instr.isGen (i : Instr) : Bool := i.genFields.isSome

/-- Whether an instruction is a word of a group class (R47). -/
def Instr.isGroup : Instr → Bool
  | .pair _ => true
  | i => i.groupFields.isSome

/-- The instruction of a word in a block of the emit store or in an image, where a generator word is none (R54). -/
def decodeGroupWord (w : IWord) : Except Reject Instr :=
  match decodeWord w with
  | .ok i => if i.isGroup then .ok i else .error .opcode
  | .error e => .error e

/-- The instruction of a word in generator code, where a group word is none (R54). -/
def decodeGenWord (w : IWord) : Except Reject Instr :=
  match decodeWord w with
  | .ok i => if i.isGen then .ok i else .error .opcode
  | .error e => .error e

/-- The instruction of a hart's 32-bit word among the three that the part adds (R397). -/
def decodeHartWord (w : Word) : Except Reject Instr :=
  let rd := w.extractLsb' 7 5
  let rs1 := w.extractLsb' 15 5
  let rs2 := w.extractLsb' 20 5
  let f3 := w.extractLsb' 12 3
  let f7 := w.extractLsb' 25 7
  if w.extractLsb' 0 7 ≠ 0x0B#7 then .error .hart
  else if f3 = 0#3 ∧ f7 = 0#7 then .ok (.dwAwait rd rs1 rs2)
  else if f3 = 1#3 ∧ f7 = 0#7 ∧ rs2 = 0#5 then .ok (.dwAwake rd rs1)
  else if f3 = 1#3 ∧ f7 = 1#7 ∧ rs2 = 0#5 then .ok (.dwAwakeAll rd rs1)
  else .error .hart

/-- The 32-bit word of a hart instruction (R397). -/
def encodeHartWord : Instr → Option Word
  | .dwAwait rd rs1 rs2 => some (0#7 ++ rs2 ++ rs1 ++ 0#3 ++ rd ++ 0x0B#7)
  | .dwAwake rd rs1 => some (0#7 ++ 0#5 ++ rs1 ++ 1#3 ++ rd ++ 0x0B#7)
  | .dwAwakeAll rd rs1 => some (1#7 ++ 0#5 ++ rs1 ++ 1#3 ++ rd ++ 0x0B#7)
  | _ => none

/-- The 96-bit word of an instruction of the generator and group classes (R28, R30, R50). -/
def encodeWord (i : Instr) : Option IWord :=
  match i with
  | .pair p => some (encodePairFields p)
  | i => match i.groupFields with
    | some (op, f) => some (encodeFields op f)
    | none => match i.genFields with
      | some (op, f) => some (encodeGenFields op f)
      | none => none

/-- The bytes of an instruction in memory (R28), none for an event. -/
def encode (i : Instr) : Option (List Byte) :=
  match encodeWord i with
  | some w => some (leBytes 12 w.toNat)
  | none => (encodeHartWord i).map fun w => leBytes 4 w.toNat

/-- The instruction of the first 12 bytes (R28). -/
def decodeBytes (bs : List Byte) : Except Reject Instr :=
  if bs.length < 12 then .error .length else decodeWord (BitVec.ofNat 96 (leNat (bs.take 12)))

/-- The hart instruction of the first 4 bytes (R397). -/
def decodeHartBytes (bs : List Byte) : Except Reject Instr :=
  if bs.length < 4 then .error .length else decodeHartWord (BitVec.ofNat 32 (leNat (bs.take 4)))

/-- What this decoder reads from a word of the opcode table, as the host numbers its bits: 32-bit words are hart words and
96-bit words are words of the generator and group classes. -/
def decodeTableWord (nbits w : Nat) : Option Instr :=
  if nbits = 32 then (decodeHartBytes (leBytes 4 w)).toOption
  else if nbits = 96 then (decodeBytes (leBytes 12 w)).toOption
  else none

end Sys2Proof
end

