-- ==== Sys2Proof/Machine/State.lean ====
section
/-!
DEFINITION. The state of the package, as plain data: every piece of storage the specification names (INVENTORY.md lists
each with its rule), the model's own fields (agenda, cur, freeCtr: notes/assumptions), the fault and refusal reasons, and
State.reset. Storage that is large and mostly untouched is held in SMap, a list of numbered entries in rising order with a
default for the numbers not listed.
-/

namespace Sys2Proof.Machine

/-- Numbered entries in rising order of number; a number not listed has the default that its reader names. -/
structure SMap (α : Type) where
  cells : List (Nat × α)
  deriving DecidableEq, Repr

namespace SMap

/-- The map that lists nothing. -/
def empty {α : Type} : SMap α := ⟨[]⟩

/-- The first entry of a number in a list of entries. -/
def findIn {α : Type} (k : Nat) : List (Nat × α) → Option α
  | [] => none
  | (i, a) :: r => if i = k then some a else findIn k r

/-- The entry of a number, none when it is not listed. -/
def find {α : Type} (m : SMap α) (k : Nat) : Option α := findIn k m.cells

/-- The entry of a number, or the default. -/
def get {α : Type} (m : SMap α) (k : Nat) (d : α) : α := (m.find k).getD d

/-- The list of entries with the entry of one number replaced or put in its place. -/
def setIn {α : Type} (k : Nat) (a : α) : List (Nat × α) → List (Nat × α)
  | [] => [(k, a)]
  | (i, b) :: r => if k < i then (k, a) :: (i, b) :: r else if k = i then (k, a) :: r else (i, b) :: setIn k a r

/-- The map with the entry of one number replaced. -/
def set {α : Type} (m : SMap α) (k : Nat) (a : α) : SMap α := ⟨setIn k a m.cells⟩

/-- The map without the entry of one number. -/
def erase {α : Type} (m : SMap α) (k : Nat) : SMap α := ⟨m.cells.filter fun p => p.1 ≠ k⟩

/-- The numbers listed, rising. -/
def keys {α : Type} (m : SMap α) : List Nat := m.cells.map (·.1)

/-- The entries listed, in rising order of number. -/
def vals {α : Type} (m : SMap α) : List α := m.cells.map (·.2)

end SMap

/-! ### Registers and groups (R14, R31, R43, R90, R100-R110, R126-R128, R319) -/

/-- A register: 32 lanes and a format tag (R14, R43). -/
structure Reg where
  tag   : Tag
  lanes : Lanes
  deriving DecidableEq, Repr

/-- Zero with tag RAW: o2-o31, y0 and y1 of a group that starts (R91), and the zero operand (R31). -/
def Reg.zero : Reg := ⟨0#6, lanesAll 0#32⟩

/-- Where a result goes, resolved at issue: a physical register of the bank (R101), a register of the operand file, or
nowhere, for the zero operand (R31). -/
inductive Place where
  | bank (i : Nat)
  | ofile (n : Nat)
  | drop
  deriving DecidableEq, Repr

/-- A window of a fibre, in units of 32 registers (R90). -/
structure Window where
  ro  : Bool
  len : Nat
  pb  : Nat
  lb  : Nat
  deriving DecidableEq, Repr

/-- One write of a result in flight: the lanes of mask take value, and the whole tag (R44). -/
structure RegWrite where
  place : Place
  mask  : Mask
  value : Reg
  deriving DecidableEq, Repr

/-- A fixed-latency result in flight (R106): it lands at the end of clock due. -/
structure Pending where
  issued : Nat
  due    : Nat
  writes : List RegWrite
  ys     : List (Mask × Reg)
  flags  : Word
  signal : Option Nat
  deriving DecidableEq, Repr

/-- An operation that a counter counts, in issue order (R108). flags are those that join %gst when it leaves: the flags of the reads of
a word without an active lane, which completes in its counter's order (R42, R46). -/
structure Outstanding where
  id    : Nat
  cf    : Nat
  done  : Bool
  flags : Word
  deriving DecidableEq, Repr

/-- An entry of a team's entry table that is not clear (R92). -/
structure EntryDesc where
  handle  : BitVec 12
  alloc   : Nat
  fibres  : Nat
  ngrp    : Nat
  offs    : List Nat
  windows : List (List Window)
  deriving DecidableEq, Repr

/-- A pending operation of a group that its counter tracks: an operand-log entry (R228) when logSlot is given, or an operation
that takes none (LDC, PREF, FENCE, BAR, CBAR, MBIND, MUNBIND, SPAWN and the counter-signalled system instructions). entry is
the entry of the team's table that a SPAWN reads at issue (R92); redo are the lanes that RESUME has issued again (R232). -/
structure Op where
  id         : Nat
  instr      : Instr
  logSlot    : Option Nat
  handle     : BitVec 12
  offset     : Nat
  prov       : Word
  issued     : Nat
  sup        : Bool
  active     : Mask
  pending    : Mask
  held       : Mask
  redo       : Mask
  addrs      : List DWord
  data       : List Lanes
  dest       : List Place
  leader     : Nat
  regions    : List (DWord × Nat)
  stage      : Nat
  value      : Nat
  walkFaults : List (Nat × Byte)
  flags      : Word
  entry      : Option EntryDesc
  deriving DecidableEq, Repr

/-- The system-call context of a fibre (R319). -/
structure SysCtx where
  retHandle : BitVec 12
  retOff    : Nat
  exm       : Mask
  mode      : Bool
  n         : Nat
  rest      : Mask
  deriving DecidableEq, Repr

/-- A 64-byte fault record (R335), field by field; second is the rejected word of a level-G record of cause 3. -/
structure Rec where
  cause   : Byte
  op      : Byte
  sub     : Byte
  reissued : Bool
  deferred : Bool
  mode    : Bool
  info    : Bool
  level   : Bool
  place   : Word
  lanes   : Word
  entry   : Byte
  lane    : Byte
  ftag    : BitVec 16
  address : DWord
  prov    : Word
  count   : Word
  pc      : Word
  world   : Nat
  asid    : BitVec 12
  launch  : Byte
  team    : Word
  cyc     : DWord
  detail  : DWord
  second  : Option IWord
  deriving DecidableEq, Repr

/-- One group: a fibre of a slot (R91, R100, R105, R108, R123, R126, R127, R128, R319, R332, R338). fell names the counter of each
operation that has completed in the present clock: an instruction that waits on it may issue from the next clock on. kept
holds the records, each with the operation it holds, that its restore writes afresh. -/
structure Fibre where
  grp         : Nat
  handle      : BitVec 12
  off         : Nat
  exm         : Mask
  gst         : Word
  windows     : List Window
  ofile       : SMap Reg
  y0          : Reg
  y1          : Reg
  srseed      : Lanes
  outstanding : List Outstanding
  fell        : List Nat
  nextId      : Nat
  results     : List Pending
  ops         : List Op
  lastIssue   : Option Nat
  earliest    : Nat
  frozen      : Bool
  parked      : Option (BitVec 4)
  fbar        : Option (Nat × BitVec 4)
  sysc        : Option SysCtx
  barGen      : SMap Word
  cbarGen     : SMap Word
  aborting    : Bool
  kept        : List (Rec × Nat)
  deriving DecidableEq, Repr

/-- A slot reserved for a team, and its fibre set (R15, R90, R100, R103, R110, R123). units are the 32-register units of the
bank that its allocation holds. passing says that a YIELD has asked for a change of fibre that no fibre has yet met; stalled that
the current fibre did not run when the present clock began (R110). -/
structure Slot where
  ctx       : Nat
  units     : List Nat
  fibres    : SMap Fibre
  current   : Nat
  wait      : Nat
  lastIssue : Option Nat
  arrived   : SMap (BitVec 4)
  passing   : Bool
  stalled   : Bool
  deriving DecidableEq, Repr

/-- A cached translation of one page (R207, R208, R210). -/
structure TlbEntry where
  asid  : BitVec 12
  world : Nat
  va    : Nat
  size  : Nat
  pa    : Nat
  r     : Bool
  w     : Bool
  x     : Bool
  u     : Bool
  a     : Bool
  d     : Bool
  attr  : Nat
  pworld : Nat
  deriving DecidableEq, Repr

/-- A fixed-latency result of a group that has exited, still in flight (R106, R121): the place of its group, the team's context, the
clocks of its issue and landing, and its writes. -/
structure Late where
  slot   : Nat
  fib    : Nat
  ctx    : Nat
  issued : Nat
  due    : Nat
  writes : List RegWrite
  deriving DecidableEq, Repr

/-- An operation in the special-function unit (R142, R167): its results are computed from the sources read at issue; it completes at
the end of clock due, among what lands then in the order of issue (R132). -/
structure SfuOp where
  slot   : Nat
  fib    : Nat
  id     : Nat
  instr  : Instr
  issued : Nat
  writes : List RegWrite
  flags  : Word
  due    : Option Nat
  deriving DecidableEq, Repr

/-- An operand map (R284). -/
structure OpMap where
  reserved : Bool
  base     : BitVec 21
  extent   : BitVec 22
  layout   : Bool
  pitch    : BitVec 16
  fmt      : BitVec 6
  blk      : BitVec 2
  scale    : Word
  perm     : Word
  bmap     : Word
  world    : BitVec 4
  deriving DecidableEq, Repr

/-- An operation of a sub-partition's matrix unit (R290, R297), and a map operation until its counter falls (R287-R289): the unit's
number for it, the captured map records, permutation entries and registers, the scratchpad ranges it holds, and the clocks of a
started operation. written says that an ACCST or ACCQ has written its bytes; rows are the 64-byte pieces of the scratchpad range that
it writes, and bytes what it writes by offset, as its start finds the tile; flags are those that its reads set (R46), and asked is the
clock of a product's request for a permit (R388). -/
structure MatOp where
  seq     : Nat
  slot    : Nat
  fib     : Nat
  id      : Nat
  ctx     : Nat
  instr   : Instr
  handle  : BitVec 12
  offset  : Nat
  prov    : Word
  maps    : List OpMap
  table   : Option (List Nat)
  tile    : Nat
  active  : Mask
  data    : List Lanes
  base    : Nat
  other   : Nat
  dest    : List Place
  seed    : Lanes
  issued  : Nat
  reads   : List (Nat × Nat)
  started : Option Nat
  occEnd  : Nat
  doneAt  : Nat
  written : Bool
  rows    : List Nat
  bytes   : List (Nat × Byte)
  flags   : Word
  asked   : Option Nat
  deriving DecidableEq, Repr

/-- A sub-partition (R14, R22, R103, R109, R167, R210, R282, R290, R388). turnAt is the clock of its latest issue opportunity;
late holds the fixed-latency results of groups that have exited (R106, R121); matLeave is the clock in which an active unit asked to leave (R389);
marked says that it awaits a spare (R410). -/
structure Sub where
  world     : Nat
  bank      : SMap Reg
  slots     : SMap Slot
  turnAt    : Option Nat
  busyUntil : Nat
  pick      : Option (Nat × Nat)
  sfu       : List SfuOp
  sfuNext   : Nat
  late      : List Late
  tlb       : List TlbEntry
  tiles     : SMap (List Lanes)
  maps      : SMap OpMap
  tileOwner : SMap Nat
  mapOwner  : SMap Nat
  matrix    : List MatOp
  matSeq    : Nat
  matActive : Bool
  matLeave  : Option Nat
  marked    : Bool
  deriving DecidableEq, Repr

/-! ### Generator, blocks and teams (R62, R63, R76-R92, R240, R250, R315, R326) -/

/-- A word of the emit store or of an emit queue with its provenance entry (R89). -/
structure EmitWord where
  word : IWord
  prov : Word
  deriving DecidableEq, Repr

/-- The owner of a block: image base, address-space identifier and world (R78). -/
structure Owner where
  image : DWord
  asid  : BitVec 12
  world : Nat
  deriving DecidableEq, Repr

/-- The state of a block that is not free (R78). -/
inductive BlockState where
  | opened
  | sealed
  | released
  deriving DecidableEq, Repr

/-- A block of the emit store (R76-R82). base and granules count 64-word granules; len is the fill pointer of an open block
and the sealed length of any other; a key of 0 is no registration, and another is found after clock regAt (R81). -/
structure Block where
  st       : BlockState
  base     : Nat
  granules : Nat
  len      : Nat
  capacity : Nat
  owner    : Owner
  sup      : Bool
  key      : DWord
  regAt    : Nat
  sealer   : Nat
  deriving DecidableEq, Repr

/-- What a generator context is doing (R66, R79, R80, R83, R91, R93, R95): it is ready at a clock, it waits with its instruction,
its seal or start completes in a clock, or it is stopped. -/
inductive GenRun where
  | ready (clock : Nat)
  | yielding (until_ : Nat)
  | skipTurn
  | waitOpen (since cap : Nat) (d : BitVec 6)
  | waitSeal (d : BitVec 6) (key : DWord)
  | waitIdle (since bound : Nat) (d : BitVec 6) (handle : DWord)
  | waitCell (sub : Byte) (regions : List (DWord × Nat))
  | sealing (clock : Nat) (d : BitVec 6) (key : DWord)
  | starting (clock : Nat) (d : BitVec 6) (entry : EntryDesc) (arg : DWord)
  | frozen
  | exited
  deriving DecidableEq, Repr

/-- A generator context (R62, R98): done is how many words GEMITB or GBLKLOAD has written of its present run, or how many pages GACQ, from
its grant on, or GREL has behind it; busy says that the access of its instruction is in flight (R98); waitPage is the page whose
walk its instruction waits for and walkFaults what walks have brought it (R210); kept is as a group's. -/
structure GenCtx where
  g     : SMap DWord
  pc    : Nat
  queue : List EmitWord
  opened : Option Nat
  sup   : Bool
  run   : GenRun
  done  : Nat
  busy  : Bool
  waitPage : Option Nat
  walkFaults : List (Nat × Byte)
  kept  : List (Rec × Nat)
  deriving DecidableEq, Repr

/-- A kernel image header (R65). -/
structure Header where
  genOff    : Nat
  genWords  : Nat
  tmplOff   : Nat
  tmplLen   : Nat
  constOff  : Nat
  constLen  : Nat
  dataOff   : Nat
  dataLen   : Nat
  entry     : Nat
  windows   : List (Nat × Nat)
  deriving DecidableEq, Repr

/-- A launch descriptor (R315). -/
structure Desc where
  image   : DWord
  root    : DWord
  grid    : DWord
  maxgrp  : Nat
  slots   : Nat
  alloc   : Nat
  scratch : Nat
  nt      : Nat
  nm      : Nat
  cluster : Nat
  cw      : Nat
  ch      : Nat
  prio    : Nat
  sup     : Bool
  pin     : Bool
  world   : Nat
  pgt     : DWord
  cond    : DWord
  deriving DecidableEq, Repr

/-- A team or cluster barrier: its generation and who has arrived (R250). -/
structure Barrier where
  gen     : Word
  arrived : List Nat
  deriving DecidableEq, Repr

/-- An entry of a team's binding table (R240): the cell and its region slots. -/
structure Binding where
  cell  : DWord
  slots : SMap (DWord × Nat)
  deriving DecidableEq, Repr

/-- A team's save in progress (R326-R329, R333): where its image goes, the CTXSAVE that asked for it, whether the state has been
captured, and the matrix operations it removed, each with its sub-partition (R300). -/
structure Saving where
  forced   : Bool
  addr     : Nat
  byGroup  : Option (GroupRef × Nat)
  captured : Bool
  removed  : List (Nat × MatOp)
  deriving DecidableEq, Repr

/-- A team resident in a generator context of a core (R63, R128, R130, R240, R250, R315, R326). cluster is the number of its
cluster and the cluster's size; entryNext holds the changes of the entry table in flight: clock, entry, value (R92); preqNext is a
write of %preq that takes effect in the next clock (R326); ended says that KILL-TEAM has ended the team (R338), which retires when
nothing of it is left. -/
structure Team where
  gen       : GenCtx
  part      : Nat
  launch    : Nat
  desc      : Desc
  hdr       : Header
  arg       : DWord
  x         : Nat
  y         : Nat
  z         : Nat
  index     : Nat
  clrank    : Nat
  rank      : Nat
  nranks    : Nat
  cluster   : Option (Nat × Nat)
  granules  : List Nat
  entries   : SMap EntryDesc
  entryNext : List (Nat × Nat × Option EntryDesc)
  bindings  : List Binding
  bars      : SMap Barrier
  cbars     : SMap Barrier
  preq      : Bool
  preqNext  : Option Bool
  deadline  : Option Nat
  saving    : Option Saving
  holdIssue : Bool
  ended     : Bool
  deriving DecidableEq, Repr

/-! ### A core (R13, R211, R218, R253, R267, R318, R381-R388) -/

/-- A line of a first-level data cache (R211): the bytes it holds, each with its dirty bit. -/
structure L1Line where
  cells : SMap (Byte × Bool)
  keep  : Bool
  owner : BitVec 12
  deriving DecidableEq, Repr

/-- A line of a core's constant cache or generator cache (R66, R218): the 128 bytes as they stood at the home bank when it was filled. -/
structure FillLine where
  bytes : List Byte
  deriving DecidableEq, Repr

/-- A SYSVEC register (R318). -/
structure SysVec where
  valid  : Bool
  target : BitVec 24
  deriving DecidableEq, Repr

/-- A watch of a core's control block (R318). -/
structure Watch where
  base : DWord
  asid : BitVec 12
  kind : BitVec 2
  len  : BitVec 5
  deriving DecidableEq, Repr

/-- A PREEMPT register's saved fields (R318): STATE, and REQ of a resident team, are read from the team; req is REQ as it was written
while the context has no team, for the team that comes. -/
structure Preempt where
  save  : DWord
  force : Bool
  req   : Bool
  deriving DecidableEq, Repr

def Preempt.reset : Preempt := ⟨0#64, false, false⟩

/-- What the device keeps of a cluster while teams of it are not resident (R205, R250, R334): the ranks of the teams that have retired, and
the live groups of each team that an image holds, by rank. -/
structure Cluster where
  retired : List Nat
  saved   : SMap (List Nat)
  deriving DecidableEq, Repr

def Cluster.empty : Cluster := ⟨[], .empty⟩

/-- A granule of the scratchpad (R22, R225): its world, and the context that holds it. -/
structure Granule where
  world : Nat
  ctx   : Option Nat
  deriving DecidableEq, Repr

/-- What a segment of a copy fails: the cause, the address and the detail of its record (R277). -/
structure SegFault where
  cause   : Byte
  address : Nat
  detail  : Nat
  deriving DecidableEq, Repr

/-- A part of a copy that its engine serves in order (R267, R273, R274): its rows up to one, the next segment by row, place in the
row and index, the cluster ranks it writes under CPYM, and, of a part that is held, what its segment fails, the clock in which it failed, and the tag of the record
that holds it. -/
structure CopyStream where
  rows    : Nat
  row     : Nat
  x       : Nat
  index   : Nat
  targets : List Nat
  fail    : Option SegFault
  failAt  : Nat
  ftag    : Option (BitVec 16)
  deriving DecidableEq, Repr

/-- A segment of a CPYN sent to the transport and not acknowledged (R275, R402): where it went, and the slice's %cyc when it was last
sent. -/
structure CopySent where
  row     : Nat
  x       : Nat
  index   : Nat
  len     : Nat
  retries : Nat
  dest    : BitVec 128
  at_     : DWord
  deriving DecidableEq, Repr

/-- A copy accepted by a core's engine (R267-R277): what it moves, as read at issue in clock issued, and the parts still to be served;
flags are those that its reads set (R46); waitPages are the pages whose walks its segments wait for and walkFaults what walks have
brought it (R210). -/
structure CopyOp where
  id       : Nat
  issued   : Nat
  g        : GroupRef
  opId     : Nat
  ctx      : Nat
  instr    : Instr
  handle   : BitVec 12
  offset   : Nat
  prov     : Word
  sup      : Bool
  active   : Mask
  leader   : Nat
  shape    : List Word
  global   : DWord
  base     : Nat
  pitch    : Nat
  index    : Lanes
  value    : DWord
  flags    : Word
  streams  : List CopyStream
  sent     : List CopySent
  started  : Bool
  working  : Bool
  waitPages : List Nat
  walkFaults : List (Nat × Byte)
  deriving DecidableEq, Repr

/-- The power state of a core (R379-R389). Rates and allowances are in the units of R381; window is one more than the clock in which
the limiter last began a window, with the permits and leaves that are left in it; sawReady is the latest clock in which an issue
opportunity found a ready slot (R387). -/
structure Power where
  rate      : Nat
  allow     : Int
  railReq   : Bool
  rail      : Bool
  switching : Option Nat
  changed   : Bool
  wlevel    : Nat
  wphase    : Nat
  failsafe  : Bool
  lastGrant : Nat
  grant     : Option Nat
  granted   : Option Nat
  demand    : Nat
  drawn     : Nat
  clocks    : Nat
  rampDown  : SMap Nat
  rampUp    : SMap Nat
  window    : Nat
  ups       : Nat
  downs     : Nat
  debits    : Nat
  idleFor   : Nat
  withheldFor : Nat
  sawReady  : Option Nat
  deriving DecidableEq, Repr

/-- An entry of the launch table (R313, R314) with its FIFO (R23). waiting are the arguments that are in order behind the ring's, whose
writes of the ring a firewall holds (R414). -/
structure LaunchEntry where
  word   : DWord
  desc   : DWord
  ring   : DWord
  errcnt : Word
  errlow : Word
  put    : Word
  take   : Word
  fifo   : List DWord
  waiting : List DWord
  deriving DecidableEq, Repr

/-- A compute core (R13). closing says that the present clock has only its last events left: what lands and completes at its end;
genAt is the clock of the latest turn of the generator pipeline (R66), spawnAt the clock and place of the latest SPAWN served (R120);
rowLog holds what has been written in the present clock of the scratchpad, each word with the rank of its writer (R233, R278); segs
counts the segments that the copy engine has issued in the present clock (R267), and drained says that the emit queues have had their
two words of it (R85). marked says that it awaits a spare, retired that it was marked without one, spareUsed that its spare
sub-partition is in use (R410). -/
structure Core where
  clock     : Nat
  closing   : Bool
  genAt     : Option Nat
  spawnAt   : Option (Nat × Nat)
  rowLog    : List (Nat × Nat × Nat)
  subs      : SMap Sub
  scratch   : SMap Byte
  granules  : SMap Granule
  store     : SMap EmitWord
  blocks    : SMap Block
  blockGen  : SMap (BitVec 4)
  teams     : SMap Team
  genNext   : Nat
  drainNext : Nat
  drained   : Bool
  l1        : SMap L1Line
  constCache : SMap FillLine
  genCache  : SMap FillLine
  tlb       : List TlbEntry
  launchView : SMap DWord
  sysvec    : SMap SysVec
  preempt   : SMap Preempt
  watches   : SMap Watch
  copies    : List CopyOp
  copyId    : Nat
  copyNext  : Nat
  segs      : Nat
  power     : Power
  marked    : Bool
  retired   : Bool
  spareUsed : Bool
  parityOff : SMap Nat
  deriving DecidableEq, Repr

/-! ### The team image (R328, R330, R332) -/

/-- A slot of a team image: its allocation in units, its state, and the registers of its allocation that are saved, by their place
in it. A place that an operation writes is by its place in the allocation too. -/
structure SlotImage where
  units : Nat
  slot  : Slot
  regs  : SMap Reg
  deriving DecidableEq, Repr

/-- What a team held on one sub-partition: its slots, tiles and maps in rising order, and its unstarted matrix operations in queue
order, whose tiles are by the program's numbers. -/
structure SubImage where
  slots  : List SlotImage
  tiles  : List (List Lanes)
  maps   : List OpMap
  matrix : List MatOp
  deriving DecidableEq, Repr

/-- A block of a team image (R98). -/
structure BlockImage where
  number : Nat
  gen    : BitVec 4
  block  : Block
  words  : List EmitWord
  deriving DecidableEq, Repr

/-- What a team image's body holds. A copy names its group by the sub-partition's place in the image, the slot's place there and the
fibre. -/
structure TeamImage where
  forced  : Bool
  team    : Team
  subs    : List SubImage
  scratch : SMap Byte
  copies  : List CopyOp
  blocks  : List BlockImage
  deriving DecidableEq, Repr

/-! ### Faults and the fault block of a slice (R335-R338) -/

/-- An unanswered record (R336): what an answer must quote, what it acts on, and the record itself. -/
structure LiveRec where
  ftag  : BitVec 16
  place : Word
  level : Bool
  entry : Byte
  cause : Byte
  agent : Agent
  opId  : Nat
  full  : Rec
  deriving DecidableEq, Repr

/-- The fault block of a slice (R331, R336, R337): its registers, the 32-place buffer, the records that wait outside it in
order of arrival, each of them that the unit-record store holds with its unit and cause, and the live records. -/
structure FaultBlock where
  qbase    : DWord
  log2n    : Nat
  tail     : Word
  head     : Word
  msiAddr  : DWord
  msiData  : Word
  stale    : Word
  deadline : Word
  nextTag  : BitVec 16
  buffer   : List Rec
  waiting  : List (Option Nat × Rec)
  live     : List LiveRec
  deriving DecidableEq, Repr

/-- An entry of a rendezvous table (R255, R259): the key, the physical address and the waiter; opId is the AWAIT's operation. -/
structure Waiter where
  va    : DWord
  asid  : BitVec 12
  pa    : Nat
  agent : Agent
  opId  : Nat
  deriving DecidableEq, Repr

/-- A page-table walk in flight (R210): the page, its space, and the core and sub-partitions whose accesses joined. -/
structure Walk where
  asid  : BitVec 12
  world : Nat
  va    : Nat
  root  : DWord
  part  : Nat
  cores : List (Nat × Nat)
  deriving DecidableEq, Repr

/-- An entry of a slice's firewall log (R363). -/
structure FwEntry where
  kind    : Nat
  cause   : Nat
  source  : Nat
  address : DWord
  cyc     : DWord
  deriving DecidableEq, Repr

/-- A cell's waiting acquire request (R241). -/
structure CellReq where
  agent : Agent
  opId  : Nat
  excl  : Bool
  deriving DecidableEq, Repr

/-- Line metadata (R213). The MAC of a line is a function of what the line holds (R370: Machine/Partitions.lean). -/
structure LineMeta where
  attr   : BitVec 2
  world  : BitVec 4
  owner  : BitVec 12
  poison : Bool
  deriving DecidableEq, Repr

/-- Reset leaves every line with ATTR 00, WORLD 0, OWNER 0, POISON 0 (R213). -/
def LineMeta.zero : LineMeta := ⟨0#2, 0#4, 0#12, false⟩

/-! ### Harts, interrupts and ports of a slice (R393-R403) -/

/-- What a hart is doing (R356, R394, R397, R414): held in reset, in the boot loader, running, asleep in dw.await, in WFI, or
retired. -/
inductive HartRun where
  | held
  | loader
  | running
  | sleeping (rd : BitVec 5)
  | wfi
  | retired
  deriving DecidableEq, Repr

/-- An interrupt file of an IMSIC (R395): identities pending and enabled, delivery and threshold. -/
structure ImsicFile where
  pending   : List Nat
  enabled   : List Nat
  delivery  : DWord
  threshold : DWord
  deriving DecidableEq, Repr

/-- A store of a hart that has retired and has not performed (R262): the partition whose memory it writes, the writer's owner number
(R213), its pieces and its bytes. -/
structure HartStoreHeld where
  part   : Nat
  owner  : BitVec 12
  pieces : List (Nat × Nat)
  bytes  : List Byte
  deriving DecidableEq, Repr

/-- A hart (R9, R393-R396): its general, floating-point and vector registers, each of which is zero while it is not listed. The CSRs are
held under their RISC-V numbers, with the instructions it has retired in instret; files under 0 for M, 1 for S and 1 + f for guest file
f; priv is 0 U, 1 S, 3 M and virt is V. stores are its stores that have not performed, in program order, and later says that the
instruction of the present turn leaves its store among them (R262). -/
structure Hart where
  x         : SMap DWord
  f         : SMap DWord
  v         : SMap (BitVec 256)
  pc        : DWord
  priv      : Nat
  virt      : Bool
  csr       : SMap DWord
  instret   : DWord
  run       : HartRun
  resv      : Option (Nat × Nat)
  start     : DWord
  mtimecmp  : DWord
  files     : SMap ImsicFile
  stores    : List HartStoreHeld
  later     : Bool
  deriving DecidableEq, Repr

/-- The APLIC of a slice (R395): its registers by offset, the level of each wired source, and the pending sources. -/
structure Aplic where
  regs    : SMap Word
  level   : BitVec 8
  pending : BitVec 8
  deriving DecidableEq, Repr

/-- A completion that a root port has sent for a device's read (R400, R406): its status is 0 successful, 1 successful with the
poisoned bit, 2 Completer Abort, 3 Unsupported Request. -/
structure DevReply where
  rid    : BitVec 16
  status : Nat
  data   : List Byte
  deriving DecidableEq, Repr

/-- A root port (R398, R399), whether its link trains, the configuration registers written through its ECAM, and the completions it has sent. partner is the
other slice of a bond in force. -/
structure RootPort where
  linkUp    : Bool
  training  : Bool
  busMaster : Bool
  refused   : Bool
  dir       : Bool
  bond      : Bool
  partner   : Option Nat
  ecam      : SMap Word
  replies   : List DevReply
  deriving DecidableEq, Repr

/-- The register block of a slice's IOMMU (R400), by offset. Its directories stand in memory. -/
structure Iommu where
  regs : SMap Word
  deriving DecidableEq, Repr

/-- An exposure (R401). -/
structure Exposure where
  key   : DWord
  vbase : DWord
  len   : DWord
  root  : DWord
  deriving DecidableEq, Repr

/-- A peer entry (R401). -/
structure Peer where
  endpt  : BitVec 128
  ring   : DWord
  msi    : DWord
  msiData : Word
  rtail  : Word
  rhead  : Word
  deriving DecidableEq, Repr

/-- The network block of a slice (R401-R403) with what has left its port: frames, answers, records, segments, and
replies to segments (the segment, whether it is refused, the bytes of a get). view is what is in force;
the entries written stand in exposures and peers. laneMarked says that a lane of the port awaits its spare (R410). -/
structure Net where
  mac       : BitVec 48
  spare     : Bool
  up        : Bool
  txRing    : DWord
  rxRing    : DWord
  txTail    : Word
  rxTail    : Word
  txHead    : Word
  rxHead    : Word
  msiAddr   : DWord
  msiData   : Word
  rslice    : BitVec 4
  rpeer     : BitVec 4
  exposures : SMap Exposure
  peers     : SMap Peer
  viewExp   : SMap Exposure
  viewPeers : SMap Peer
  frames    : List (List Byte)
  answers   : List (Nat × Nat × DWord)
  records   : List (Nat × Rec)
  segments  : List (BitVec 128 × AdeserSegment)
  replies   : List (AdeserSegment × Bool × List Byte)
  laneMarked : Bool
  deriving DecidableEq, Repr

/-- A loan entry (R387). -/
structure Loan where
  recalled : Bool
  lender   : Nat
  borrower : Nat
  rate     : Nat
  deriving DecidableEq, Repr

/-- The error block of a slice and what the units keep for it (R405-R413). -/
structure ErrBlock where
  esum      : BitVec 8
  ceHbm     : Word
  ceMsc     : Word
  ceCore    : Word
  ceLink    : Word
  lastCe    : DWord
  spCore    : Nat
  spHart    : Nat
  spPch     : Nat
  spLane    : Nat
  waitPch   : Bool
  waitHart  : BitVec 4
  waitCore  : BitVec 16
  qmap      : SMap (BitVec 12)
  chErrs    : SMap Nat
  chMarked  : List Nat
  links     : BitVec 4
  waysOff   : SMap Nat
  parity    : SMap Nat
  deriving DecidableEq, Repr

/-- A slice (R9, R223, R255, R336, R359, R363, R387, R393-R403, R413). -/
structure Slice where
  cyc        : DWord
  part       : Option Nat
  fault      : FaultBlock
  fwHead     : Word
  fwRead     : Word
  fwMsiAddr  : DWord
  fwMsiData  : Word
  fwLog      : SMap FwEntry
  rendezvous : List Waiter
  walks      : SMap Walk
  walkId     : Nat
  prefdrop   : Word
  harts      : SMap Hart
  hartSpare  : Bool
  aplic      : Aplic
  port       : RootPort
  iommu      : Iommu
  net        : Net
  loans      : SMap Loan
  err        : ErrBlock
  deriving DecidableEq, Repr

/-! ### Partitions, Markhor and Tahr (R356-R379) -/

/-- An entry of a partition's region table (R365). moved counts the lines that the move of a region in its dual-home window has switched
to the new home (R368). -/
structure Region where
  slice  : Nat
  slot   : Nat
  dual   : Bool
  oslice : Nat
  oslot  : Nat
  moved  : Nat
  deriving DecidableEq, Repr

/-- A mailbox request in progress (R360): its code, the arguments read when CODE was written, whether its checks have passed and it is
under way, with the lines that an ASSIGN has treated so far (R430), whether Markhor has served it, and what it will publish when it is
done: RESULT and the OUT registers it gives. -/
structure MailReq where
  code   : Nat
  args   : List DWord
  began  : Bool
  lines  : Nat
  served : Bool
  result : Nat
  outs   : List (Nat × DWord)
  deriving DecidableEq, Repr

/-- An argument of a request. -/
def MailReq.arg (q : MailReq) (i : Nat) : DWord := q.args.getD i 0#64

/-- A partition's mailbox (R360). -/
structure Mailbox where
  result  : Nat
  ovr     : Bool
  done    : Bool
  busy    : Option MailReq
  args    : SMap DWord
  outs    : SMap DWord
  msiAddr : DWord
  msiData : Word
  deriving DecidableEq, Repr

/-- A launch that has been dequeued and is being placed (R23, R131, R316): the next linear team index, and the first that the
partition's rank does not place. -/
structure Launching where
  index  : Nat
  desc   : Desc
  hdr    : Header
  arg    : DWord
  rank   : Nat
  nranks : Nat
  next   : Nat
  bound  : Nat
  deriving DecidableEq, Repr

/-- What the configuration record gives a partition (R362). Rectangles are column, row, width and height. -/
structure PartCfg where
  x0      : Nat
  y0      : Nat
  w       : Nat
  h       : Nat
  mx0     : Nat
  my0     : Nat
  mw      : Nat
  mh      : Nat
  keyhash : BitVec 384
  counter : Nat
  wdPeriod : DWord
  deriving DecidableEq, Repr

/-- A partition (R20, R313, R358, R360-R365, R371). routes holds Markhor's route for each pair of its slices, by 16 times the one it leads
from plus the one it leads to: the slices on its way, both ends among them (R362, R411); held says that a recovery has found no path and the
partition stays held (R411). -/
structure Part where
  cfg       : PartCfg
  slices    : List Nat
  boot      : Nat
  tried     : List Nat
  inReset   : Bool
  watchdog  : Option DWord
  version   : Nat
  kdig      : BitVec 384
  xen       : Bool
  bindings  : SMap (Word × Word)
  regions   : SMap Region
  routes    : SMap (List Nat)
  held      : Bool
  closed    : List Nat
  mailbox   : Mailbox
  launches  : SMap LaunchEntry
  placing   : SMap (List Launching)
  deriving DecidableEq, Repr

/-- The two fuse copies of an anti-rollback counter, and the bits that read differently at the two thresholds (R375, R376). -/
structure Fuse where
  a     : BitVec 64
  b     : BitVec 64
  weakA : BitVec 64
  weakB : BitVec 64
  deriving DecidableEq, Repr

/-- The trust controller (R12, R356, R369-R376). fuseWork holds the counters that are being programmed, in order, with the copies that
each is to have (R376). -/
structure Markhor where
  root      : Option (BitVec 256)
  provIndex : BitVec 20
  epoch     : Nat
  fuses     : SMap Fuse
  sealCtr   : Nat
  sealMark  : Nat
  cfg       : List PartCfg
  cfgVersion : Nat
  versions  : List Nat
  booted    : Bool
  failed    : Bool
  reports   : List Nat
  fwDrops   : Nat
  fuseWork  : List (Nat × Fuse)
  deriving DecidableEq, Repr

/-! ### The machine -/

/-- Who moves next: the model's agenda holds these in order. Every order of moves that the specification allows is some
agenda. -/
inductive Turn where
  /-- One clock of the reference clock of a slice (R323, R396). -/
  | tick (slice : Nat)
  /-- One clock of a core's issue port: the pick of R103 on a sub-partition, and the issue of the picked word. -/
  | issue (core sub : Nat)
  /-- One clock of a core's generator pipeline: the next ready context in round-robin order (R66). -/
  | gen (core : Nat)
  /-- One instruction of a hart. -/
  | hart (h : HartRef)
  /-- One instruction of a hart whose plain store, if it is one, performs later (R262). -/
  | hartLater (h : HartRef)
  /-- A hart's n-th store that has not performed performs. -/
  | hartStore (h : HartRef) (n : Nat)
  /-- The swap of a marked lane of a port at once, which is SPARE_SWAP's of the lane (R410). -/
  | lane (slice : Nat)
  /-- One event of the part. -/
  | event (i : Instr)
  deriving DecidableEq, Repr

/-- The package. mem holds the home banks' bytes (R212, R235), meta their lines' metadata (R213), pins the pinned lines of the
memory-side cache (R222), cells the waiting requests of the sync cells (R241), clusters what is kept of each cluster by number. bodies is what the bodies of the team
images written so far hold, whose contents and order are the device's own (R330). agenda, cur, freeCtr and bodies are the model's
own. -/
structure State where
  agenda  : List Turn
  cur     : Agent
  freeCtr : Nat
  bodies  : List (List Byte × TeamImage)
  mem     : List Host.Cell
  lines   : SMap LineMeta
  pins    : SMap (BitVec 12)
  cells   : SMap (List CellReq)
  clusters : SMap Cluster
  cores   : SMap Core
  slices  : SMap Slice
  parts   : SMap Part
  markhor : Markhor
  deriving DecidableEq, Repr

end Sys2Proof.Machine

namespace Sys2Proof.Config

open Machine (TeamImage)

/-- The body of a team image, in the device's own contents and order (R330). Free. -/
opaque imageBody : TeamImage → List Byte
/-- What a body that no save of this run has written holds; none when it holds no image (R330). Free. -/
opaque imageOf : List Byte → Option TeamImage

end Sys2Proof.Config

namespace Sys2Proof.Machine

/-- Why a step stops without an effect. -/
inductive Fault where
  /-- The meaning of a word is asked for when the agent that holds the turn is not of the word's class (no group, no
  generator context, no hart in that place). Raised by the meanings of words; safe: the model stops where no agent of the
  part could have issued the word. -/
  | noAgent
  deriving DecidableEq, Repr

/-- Why the model has no meaning for what is asked. -/
inductive Refusal where
  /-- An instruction of the table without a meaning yet. Raised by exec; safe: nothing is said of the instruction. -/
  | notModelled (mnemonic : String)
  deriving DecidableEq, Repr

/-! ### Reset -/

/-- F_c: floor(0.4 NOMINAL) (R379). -/
def failsafeRate (slice : Nat) : Nat := 2 * Config.nominal slice / 5

/-- The power registers of a core of a slice after a slice reset (R380, R381). -/
def Power.reset (slice : Nat) : Power :=
  { rate := failsafeRate slice, allow := Config.cap slice, railReq := false, rail := false, switching := none,
    changed := false, wlevel := 0, wphase := 0, failsafe := true, lastGrant := 0, grant := none, granted := none, demand := 0, drawn := 0,
    clocks := 0, rampDown := .empty, rampUp := .empty, window := 0, ups := 0, downs := 0, debits := 0, idleFor := 0, withheldFor := 0,
    sawReady := none }

def Sub.reset : Sub :=
  { world := 0, bank := .empty, slots := .empty, turnAt := none, busyUntil := 0, pick := none, sfu := [], sfuNext := 0, late := [], tlb := [],
    tiles := .empty, maps := .empty, tileOwner := .empty, mapOwner := .empty, matrix := [], matSeq := 0,
    matActive := false, matLeave := none, marked := false }

/-- A core after reset of its slice. -/
def Core.reset (core : Nat) : Core :=
  { clock := 0, closing := false, genAt := none, spawnAt := none, rowLog := [], subs := .empty, scratch := .empty, granules := .empty, store := .empty, blocks := .empty, blockGen := .empty,
    teams := .empty, genNext := 0, drainNext := 0, drained := false, l1 := .empty, constCache := .empty, genCache := .empty, tlb := [], launchView := .empty,
    sysvec := .empty, preempt := .empty, watches := .empty, copies := [], copyId := 0, copyNext := 0, segs := 0, power := .reset (core / 16),
    marked := false, retired := false, spareUsed := false, parityOff := .empty }

def FaultBlock.reset : FaultBlock :=
  { qbase := 0#64, log2n := 6, tail := 0#32, head := 0#32, msiAddr := 0#64, msiData := 0#32, stale := 0#32,
    deadline := 0x000F4240#32, nextTag := 1#16, buffer := [], waiting := [], live := [] }

def Hart.reset : Hart :=
  { x := .empty, f := .empty, v := .empty, pc := 0#64, priv := 3, virt := false, csr := .empty, instret := 0#64, run := .held, resv := none, start := 0#64,
    mtimecmp := 0#64, files := .empty, stores := [], later := false }

def Net.reset : Net :=
  { mac := 0#48, spare := false, up := false, txRing := 0#64, rxRing := 0#64, txTail := 0#32, rxTail := 0#32, txHead := 0#32,
    rxHead := 0#32, msiAddr := 0#64, msiData := 0#32, rslice := 0#4, rpeer := 0#4, exposures := .empty, peers := .empty,
    viewExp := .empty, viewPeers := .empty, frames := [], answers := [], records := [], segments := [], replies := [], laneMarked := false }

def ErrBlock.reset : ErrBlock :=
  { esum := 0#8, ceHbm := 0#32, ceMsc := 0#32, ceCore := 0#32, ceLink := 0#32, lastCe := 0#64, spCore := 2, spHart := 1,
    spPch := 4, spLane := 1, waitPch := false, waitHart := 0#4, waitCore := 0#16, qmap := .empty, chErrs := .empty,
    chMarked := [], links := 0#4, waysOff := .empty, parity := .empty }

def Slice.reset : Slice :=
  { cyc := 0#64, part := none, fault := .reset, fwHead := 0#32, fwRead := 0#32, fwMsiAddr := 0#64, fwMsiData := 0#32,
    fwLog := .empty, rendezvous := [], walks := .empty, walkId := 0, prefdrop := 0#32, harts := .empty, hartSpare := true,
    aplic := ⟨.empty, 0#8, 0#8⟩, port := ⟨false, false, false, false, false, false, none, .empty, []⟩,
    iommu := ⟨.empty⟩, net := .reset, loans := .empty, err := .reset }

def Mailbox.reset : Mailbox :=
  { result := 0, ovr := false, done := false, busy := none, args := .empty, outs := .empty, msiAddr := 0#64, msiData := 0#32 }

def Markhor.reset : Markhor :=
  { root := none, provIndex := 0#20, epoch := 0, fuses := .empty, sealCtr := 0, sealMark := 0, cfg := [], cfgVersion := 0,
    versions := [0, 0, 0], booted := false, failed := false, reports := [], fwDrops := 0, fuseWork := [] }

/-- The package right after its supply comes up, before Markhor's boot (R356): every slice in reset and in no partition,
memory with nothing listed. -/
def State.reset : State :=
  { agenda := [], cur := .none, freeCtr := 0, bodies := [], mem := [], lines := .empty, pins := .empty, cells := .empty, clusters := .empty, cores := .empty,
    slices := .empty, parts := .empty, markhor := .reset }

end Sys2Proof.Machine
end

