-- ==== Sys2Proof/Machine/Ops.lean ====
section
/-!
DEFINITION. The named operations over the state that every meaning uses: reaching a core, slot, fibre or slice and putting it
back; the home banks' bytes; windows, registers and places; counters; the issue of a word; the landing of results; the fault
records and the taking of a fault (level S, level G, and a hart's exception), with the return from each.
-/

namespace Sys2Proof.Machine

open Host (Outcome)

/-! ### Numbered entries -/

/-- Every entry changed, with its number. -/
def SMap.mapVals {α : Type} (m : SMap α) (f : Nat → α → α) : SMap α := ⟨m.cells.map fun p => (p.1, f p.1 p.2)⟩
/-- A value made of every entry, under the entry's number. -/
def SMap.mapVals' {α β : Type} (m : SMap α) (f : α → β) : SMap β := ⟨m.cells.map fun p => (p.1, f p.2)⟩
/-- The entries that pass a test. -/
def SMap.keep {α : Type} (m : SMap α) (f : Nat → α → Bool) : SMap α := ⟨m.cells.filter fun p => f p.1 p.2⟩

/-! ### Reaching the parts of the state -/

/-- A core of the package. -/
def State.core (s : State) (c : Nat) : Core := s.cores.get c (Core.reset c)
def State.setCore (s : State) (c : Nat) (k : Core) : State := { s with cores := s.cores.set c k }
def State.modCore (s : State) (c : Nat) (f : Core → Core) : State := s.setCore c (f (s.core c))

/-- A slice of the package. -/
def State.slice (s : State) (n : Nat) : Slice := s.slices.get n Slice.reset
def State.setSlice (s : State) (n : Nat) (x : Slice) : State := { s with slices := s.slices.set n x }
def State.modSlice (s : State) (n : Nat) (f : Slice → Slice) : State := s.setSlice n (f (s.slice n))

/-- A partition's record, when there is one. -/
def State.part? (s : State) (p : Nat) : Option Part := s.parts.find p
def State.setPart (s : State) (p : Nat) (x : Part) : State := { s with parts := s.parts.set p x }
def State.modPart (s : State) (p : Nat) (f : Part → Part) : State :=
  match s.part? p with
  | some x => s.setPart p (f x)
  | none => s

/-- The slice of a core (R10). -/
def sliceOf (core : Nat) : Nat := core / 16

/-- A sub-partition of a core. -/
def Core.sub (k : Core) (i : Nat) : Sub := k.subs.get i Sub.reset
def Core.setSub (k : Core) (i : Nat) (x : Sub) : Core := { k with subs := k.subs.set i x }
def Core.modSub (k : Core) (i : Nat) (f : Sub → Sub) : Core := k.setSub i (f (k.sub i))
def State.modSub (s : State) (c i : Nat) (f : Sub → Sub) : State := s.modCore c fun k => k.modSub i f

/-- A team of a core, when its context holds one. -/
def Core.modTeam (k : Core) (c : Nat) (f : Team → Team) : Core :=
  match k.teams.find c with
  | some t => { k with teams := k.teams.set c (f t) }
  | none => k
def State.team? (s : State) (core ctx : Nat) : Option Team := (s.core core).teams.find ctx
def State.modTeam (s : State) (core ctx : Nat) (f : Team → Team) : State := s.modCore core fun k => k.modTeam ctx f

/-- A slot of a sub-partition, when it is reserved. -/
def Sub.modSlot (x : Sub) (i : Nat) (f : Slot → Slot) : Sub :=
  match x.slots.find i with
  | some t => { x with slots := x.slots.set i (f t) }
  | none => x

/-- A fibre of a slot, when it is live. -/
def Slot.modFibre (t : Slot) (i : Nat) (f : Fibre → Fibre) : Slot :=
  match t.fibres.find i with
  | some b => { t with fibres := t.fibres.set i (f b) }
  | none => t

def State.slot? (s : State) (g : GroupRef) : Option Slot := ((s.core g.core).sub g.sub).slots.find g.slot
def State.fibre? (s : State) (g : GroupRef) : Option Fibre := (s.slot? g).bind fun t => t.fibres.find g.fib
def State.modSlot (s : State) (g : GroupRef) (f : Slot → Slot) : State := s.modSub g.core g.sub fun x => x.modSlot g.slot f
def State.modFibre (s : State) (g : GroupRef) (f : Fibre → Fibre) : State := s.modSlot g fun t => t.modFibre g.fib f

/-- A hart of a slice. -/
def State.hartOf (s : State) (h : HartRef) : Hart := (s.slice h.slice).harts.get h.hart Hart.reset
def State.modHart (s : State) (h : HartRef) (f : Hart → Hart) : State :=
  s.modSlice h.slice fun x => { x with harts := x.harts.set h.hart (f (x.harts.get h.hart Hart.reset)) }

/-- A group with all it belongs to. -/
structure View where
  g    : GroupRef
  core : Core
  sub  : Sub
  slot : Slot
  fib  : Fibre
  team : Team
  deriving DecidableEq, Repr

/-- The group at a place, when it is live and its team resident. -/
def State.view (s : State) (g : GroupRef) : Option View :=
  let k := s.core g.core
  let x := k.sub g.sub
  match x.slots.find g.slot with
  | none => none
  | some t => match t.fibres.find g.fib with
    | none => none
    | some f => match k.teams.find t.ctx with
      | none => none
      | some m => some ⟨g, k, x, t, f, m⟩

/-- Every live group of a core with its place. -/
def Core.groups (c : Nat) (k : Core) : List (GroupRef × Slot × Fibre) :=
  k.subs.cells.flatMap fun p => p.2.slots.cells.flatMap fun q => q.2.fibres.cells.map fun r => (⟨c, p.1, q.1, r.1⟩, q.2, r.2)

/-- The live groups of a team. -/
def Core.teamGroups (c : Nat) (k : Core) (ctx : Nat) : List (GroupRef × Slot × Fibre) :=
  (k.groups c).filter fun p => p.2.1.ctx == ctx

/-! ### Memory at the home banks (R2, R212, R235) -/

/-- The key of a byte: its partition's number above its physical address. -/
def memKey (part pa : Nat) : Nat := part * 2 ^ 57 + pa

/-- What a byte that nothing has written reads as (a DESIGN CHOICE: notes/assumptions). -/
def memDefault : Byte := 0#8

def memRead : List Host.Cell → Nat → Byte
  | [], _ => memDefault
  | (a, b) :: r, k => if k = a then b else if k < a then memDefault else memRead r k

def memWrite : List Host.Cell → Nat → Byte → List Host.Cell
  | [], k, v => if v = memDefault then [] else [(k, v)]
  | (a, b) :: r, k, v =>
    if k < a then (if v = memDefault then (a, b) :: r else (k, v) :: (a, b) :: r)
    else if k = a then (if v = memDefault then r else (k, v) :: r)
    else (a, b) :: memWrite r k v

/-- The canonical form: addresses strictly rising, no entry equal to what an unlisted address reads as. -/
def Memory.wf : List Host.Cell → Bool
  | [] => true
  | (_, v) :: [] => v != memDefault
  | (a, v) :: (b, w) :: r => v != memDefault && decide (a < b) && Memory.wf ((b, w) :: r)

def memReadBytes (m : List Host.Cell) (k n : Nat) : List Byte := (List.range n).map fun i => memRead m (k + i)
def memWriteBytes (m : List Host.Cell) (k : Nat) : List Byte → List Host.Cell
  | [] => m
  | b :: bs => memWriteBytes (memWrite m k b) (k + 1) bs

/-- Bytes of a partition's memory at its home banks. -/
def State.readMem (s : State) (part pa n : Nat) : List Byte := memReadBytes s.mem (memKey part pa) n
def State.writeMem (s : State) (part pa : Nat) (bs : List Byte) : State :=
  { s with mem := memWriteBytes s.mem (memKey part pa) bs }

/-- A line's number in the metadata map. -/
def lineKey (part pa : Nat) : Nat := memKey part pa / 128
def State.line (s : State) (part pa : Nat) : LineMeta := s.lines.get (lineKey part pa) LineMeta.zero
def State.modLine (s : State) (part pa : Nat) (f : LineMeta → LineMeta) : State :=
  { s with lines := s.lines.set (lineKey part pa) (f (s.line part pa)) }

/-! ### Windows, registers and places (R31, R33, R44, R90, R101) -/

/-- The window of a fibre that maps a logical register, with the physical index in the slot's allocation (R101). -/
def Fibre.mapped (f : Fibre) (i : Nat) : Option (Bool × Nat) :=
  match f.windows.find? fun w => decide (w.lb * 32 ≤ i ∧ i < (w.lb + w.len) * 32) with
  | some w => some (w.ro, w.pb * 32 + (i - w.lb * 32))
  | none => none

/-- A physical index of a slot's allocation as a register of the bank (R90). -/
def Slot.physical (t : Slot) (p : Nat) : Nat := t.units.getD (p / 32) 0 * 32 + p % 32

/-- The operand k registers further on in the same file; the zero operand stays (R215, R286). -/
def operandAdd (o : Operand) (k : Nat) : Operand :=
  match o with
  | .v n => .v (Fin.ofNat 768 (n.val + k))
  | .o n => .o (Fin.ofNat 32 (n.val + k))
  | o => o

/-- The register an operand names, as it stands (R31, R101). A logical register outside every window reads as zero here; the
window check of R33 comes first. -/
def View.reg (v : View) (o : Operand) : Reg :=
  match o with
  | .v n => match v.fib.mapped n.val with
    | some (_, p) => v.sub.bank.get (v.slot.physical p) Reg.zero
    | none => Reg.zero
  | .o n => v.fib.ofile.get n.val Reg.zero
  | .y0 => v.fib.y0
  | .y1 => v.fib.y1
  | .zero => Reg.zero

/-- Where a write to an operand goes (R31, R101). -/
def View.place (v : View) (o : Operand) : Place :=
  match o with
  | .v n => match v.fib.mapped n.val with
    | some (_, p) => .bank (v.slot.physical p)
    | none => .drop
  | .o n => .ofile n.val
  | _ => .drop

/-- The guarded active set: lanes set in %exm whose guard passes (R40). -/
def View.guardLane (v : View) (g : Guard) (l : Fin 32) : Bool :=
  if g.reg = 31#5 then true
  else
    let x := lane (v.reg (.v (Fin.ofNat 768 g.reg.toNat))).lanes l
    if g.neg then x == 0#32 else x != 0#32
def View.active (v : View) (g : Guard) : Mask := maskOf fun l => inMask v.fib.exm l && v.guardLane g l

/-- The leader lane (R113). -/
def View.leader (v : View) : Fin 32 := lowestLane v.fib.exm

/-- The registers of an operand field that names n of them. -/
def fieldRegs (o : Operand) (n : Nat) : List Operand := (List.range n).map (operandAdd o)

/-- The logical main-file registers of an operand list. -/
def mainRegs (os : List Operand) : List Nat := os.filterMap fun o => match o with
  | .v n => some n.val
  | _ => none

/-- The main-file registers that a word names in its operand fields, each with whether the word writes it (R33). -/
def namedRegs (f : Fields) (s : Shape) : List (Nat × Bool) :=
  let part (o : Operand) (u : Use) : List (Nat × Bool) := (mainRegs (fieldRegs o u.count)).map fun n => (n, u.writes)
  part f.d s.d ++ part f.a s.a ++ part f.b s.b
    ++ (match f.ext with
        | .reg o => part o s.x
        | _ => [])

/-- The main-file registers that a word reads (R109). -/
def readRegs (f : Fields) (s : Shape) : List Nat :=
  let part (o : Operand) (u : Use) : List Nat := if u.reads then mainRegs (fieldRegs o u.count) else []
  part f.d s.d ++ part f.a s.a ++ part f.b s.b
    ++ (match f.ext with
        | .reg o => part o s.x
        | _ => [])

/-- The guard's register, which is read through the windows (R40). -/
def guardRegs (g : Guard) : List Nat := if g.reg = 31#5 then [] else [g.reg.toNat]

/-- Every main-file register that a group word names, with whether it writes it (R33, R50). -/
def instrNamed (i : Instr) : List (Nat × Bool) :=
  match i with
  | .pair p =>
    (guardRegs p.guard).map (·, false) ++ p.readRegs.map (·, false)
      ++ (if p.p0 = 0#5 then [] else [(p.d0.toNat, true)]) ++ (if p.p1 = 0#5 then [] else [(p.d1.toNat, true)])
  | i => match i.shape with
    | some (f, s) => (guardRegs f.guard).map (·, false) ++ namedRegs f s
    | none => []

/-- Every main-file register that a group word reads, once (R109). -/
def instrRead (i : Instr) : List Nat :=
  match i with
  | .pair p => (guardRegs p.guard ++ p.readRegs).dedup
  | i => match i.shape with
    | some (f, s) => (guardRegs f.guard ++ readRegs f s).dedup
    | none => []

/-- The clocks that a word's reads occupy the sub-partition: the largest count in one bank, at least 1 (R109). -/
def bankClocks (i : Instr) : Nat :=
  let n (b : Nat) : Nat := ((instrRead i).filter fun r => r % 4 == b).length
  max 1 (max (max (n 0) (n 1)) (max (n 2) (n 3)))

/-- The check of R33: every named register is in a window, and every destination in one that may be written. -/
def Fibre.windowsOk (f : Fibre) (named : List (Nat × Bool)) : Bool :=
  named.all fun p => match f.mapped p.1 with
    | some (ro, _) => !(ro && p.2)
    | none => false

/-- A register with the lanes of a mask replaced and the whole tag taken (R44); no active lane changes nothing. -/
def Reg.merge (old : Reg) (m : Mask) (new : Reg) : Reg :=
  if m = 0#32 then old else ⟨new.tag, lanesOf fun l => if inMask m l then lane new.lanes l else lane old.lanes l⟩

/-- The lanes of a mask, zero elsewhere: what a result leaves in y0 (R32). -/
def Reg.masked (r : Reg) (m : Mask) : Reg := ⟨r.tag, lanesOf fun l => if inMask m l then lane r.lanes l else 0#32⟩

/-- One write of a result performed. -/
def State.writeReg (s : State) (g : GroupRef) (w : RegWrite) : State :=
  match w.place with
  | .bank i => s.modSub g.core g.sub fun x => { x with bank := x.bank.set i ((x.bank.get i Reg.zero).merge w.mask w.value) }
  | .ofile n => s.modFibre g fun f => { f with ofile := f.ofile.set n ((f.ofile.get n Reg.zero).merge w.mask w.value) }
  | .drop => s

def State.writeRegs (s : State) (g : GroupRef) (ws : List RegWrite) : State := ws.foldl (fun s w => s.writeReg g w) s

/-! ### Counters (R41, R108) -/

/-- The value of counter k. -/
def Fibre.counter (f : Fibre) (k : Nat) : Nat := (f.outstanding.filter fun o => o.cf == k).length

/-- All counters of a fibre are zero. -/
def Fibre.countersZero (f : Fibre) : Bool := f.outstanding.isEmpty

/-- A counter is raised for a new operation, whose number is returned. -/
def Fibre.raise (f : Fibre) (k : Nat) : Fibre := { f with outstanding := f.outstanding ++ [⟨f.nextId, k, false, 0#32⟩], nextId := f.nextId + 1 }

/-- Operations leave in issue order of their counter: those done with none undone before them on the same counter. -/
def settleFrom (blocked : List Nat) : List Outstanding → List Outstanding
  | [] => []
  | o :: r => if o.done && !blocked.contains o.cf then settleFrom blocked r else o :: settleFrom (o.cf :: blocked) r

/-- The operations that remain when one is done. -/
def Fibre.remaining (f : Fibre) (id : Nat) : List Outstanding :=
  settleFrom [] (f.outstanding.map fun o => if o.id = id then { o with done := true } else o)

/-- An operation is done; its counter falls in its place in issue order (R108), and the flags of the idle words that fall with it join
%gst (R46). -/
def Fibre.complete (f : Fibre) (id : Nat) : Fibre :=
  let left := f.remaining id
  let gone := f.outstanding.filter fun o => left.all fun p => p.id != o.id
  { f with
    outstanding := left
    fell := f.fell ++ gone.map (·.cf)
    gst := gone.foldl (fun g o => g ||| o.flags) f.gst }

/-- An operation is done, and its own flags join %gst (R46, R155). -/
def Fibre.completeWith (f : Fibre) (id : Nat) (flags : Word) : Fibre :=
  let b := f.complete id
  { b with gst := b.gst ||| flags }

/-- A word without an active lane: its counter rises, and falls in its place in the counter's order with the flags of its reads (R42,
R46). -/
def Fibre.raiseIdle (f : Fibre) (k : Nat) (flags : Word) : Fibre :=
  Fibre.complete { f with outstanding := f.outstanding ++ [⟨f.nextId, k, false, flags⟩], nextId := f.nextId + 1 } f.nextId

/-- A pending operation of a fibre leaves it: its log entry frees and its counter falls (R108, R228). -/
def Fibre.finishOp (f : Fibre) (id : Nat) : Fibre :=
  { f with ops := f.ops.filter fun o => o.id ≠ id }.complete id
/-- As finishOp, and the operation's own flags join %gst (R46). -/
def Fibre.finishWith (f : Fibre) (id : Nat) (flags : Word) : Fibre :=
  { f with ops := f.ops.filter fun o => o.id ≠ id }.completeWith id flags

def Fibre.op? (f : Fibre) (id : Nat) : Option Op := f.ops.find? fun o => o.id == id
def Fibre.modOp (f : Fibre) (id : Nat) (u : Op → Op) : Fibre :=
  { f with ops := f.ops.map fun o => if o.id = id then u o else o }

/-- The lowest free entry of a fibre's operand log (R228). -/
def Fibre.freeLog (f : Fibre) : Option Nat :=
  (List.range Config.logEntries).find? fun i => f.ops.all fun o => o.logSlot != some i

/-! ### Issue of a word (R103, R105, R382) -/

/-- MODE of a group: true is supervisor (R127). -/
def Fibre.sup (f : Fibre) : Bool := f.gst.getLsbD 15
/-- TCONV (R127). -/
def Fibre.tconv (f : Fibre) : Bool := f.gst.getLsbD 9
/-- FTZ (R127). -/
def Fibre.ftz (f : Fibre) : Bool := f.gst.getLsbD 8
/-- A status word with MODE set or cleared (R127). -/
def withMode (gst : Word) (sup : Bool) : Word := if sup then gst ||| 0x8000#32 else gst &&& 0xFFFF7FFF#32

/-- The class of a word for the allowance counter (R382); 7 draws by K. -/
def powerClass (i : Instr) : Nat :=
  match i.groupFields with
  | none => 3
  | some (op, _) =>
    let n := op.toNat
    if n ≤ 0x2C then 0
    else if n = 0x36 then 4
    else if n ≤ 0x4F then 1
    else if n ≤ 0x60 then 2
    else if n ≤ 0x69 then 4
    else if n ≤ 0x7E then 1
    else if n ≤ 0x98 then 5
    else if 0xAC ≤ n ∧ n ≤ 0xAE then 7
    else if n ≤ 0xB3 then 6
    else 0

/-- An issued word: the fibre and its slot record the clock, the pc moves to the next word, and the word's debit is drawn
(R103, R105, R382). -/
def State.issued (s : State) (g : GroupRef) (debit : Nat) : State :=
  let t := (s.core g.core).clock
  let s := s.modSlot g fun x => { x with lastIssue := some t }
  let s := s.modFibre g fun f => { f with off := f.off + 1, lastIssue := some t }
  s.modCore g.core fun k => { k with power := { k.power with debits := k.power.debits + debit } }

/-- As issued, with the weight of the word's class (R382). -/
def State.issue (s : State) (g : GroupRef) (i : Instr) : State := s.issued g (Config.weight (sliceOf g.core) (powerClass i))

/-- Whether a core's last grant is 150,000 slice reference clocks old, and `past` more (R380). -/
def State.grantLate (s : State) (core past : Nat) : Bool :=
  decide ((s.core core).power.lastGrant + 150000 + past ≤ (s.slice (sliceOf core)).cyc.toNat)

/-- A core falls to its fail-safe rate (R380). -/
def State.failsafe (s : State) (core : Nat) : State :=
  s.modCore core fun k => { k with power := { k.power with rate := failsafeRate (sliceOf core), failsafe := true } }

/-- A slice clock has ended in which a core's limit expired and no grant came (R380, R392): the core is at its fail-safe rate. -/
def State.failsafes (s : State) (slice : Nat) : State :=
  ((List.range Config.coresPerSlice).map (slice * Config.coresPerSlice + ·)).foldl
    (fun s c => if s.grantLate c 1 && !(s.core c).power.failsafe then s.failsafe c else s) s

/-! ### Fixed-latency results (R32, R106) -/

/-- A new fixed-latency result of a fibre: it lands in clock t + L - 1, or with an earlier result that has not landed then (R106). -/
def Fibre.addResult (f : Fibre) (now latency : Nat) (ws : List RegWrite) (ys : List (Mask × Reg)) (flags : Word)
    (signal : Option Nat) : Fibre :=
  let due := max (now + latency - 1) ((f.results.getLast?.map (·.due)).getD 0)
  match signal with
  | none => { f with results := f.results ++ [⟨now, due, ws, ys, flags, none⟩] }
  | some k => { f.raise k with results := f.results ++ [⟨now, due, ws, ys, flags, some f.nextId⟩] }

/-- A result enters the y queue: the previous y0 moves to y1 (R32). -/
def Fibre.pushY (f : Fibre) (m : Mask) (r : Reg) : Fibre := { f with y0 := r.masked m, y1 := f.y0 }

/-- The oldest result of a fibre lands (R32, R44, R106, R108, R155): its destinations are written, it enters the y queue, its
flags join %gst and its counter falls. -/
def State.landOne (s : State) (g : GroupRef) : State :=
  match s.fibre? g with
  | none => s
  | some f => match f.results with
    | [] => s
    | r :: rest =>
      let s := s.modFibre g fun f => { f with results := rest }
      let s := s.writeRegs g r.writes
      s.modFibre g fun f =>
        let f := r.ys.foldl (fun f p => f.pushY p.1 p.2) f
        let f := { f with gst := f.gst ||| r.flags }
        match r.signal with
        | some id => f.complete id
        | none => f

/-- A landing put in place by its issue clock, before those that issued at the same clock or later. -/
def insertDue {α : Type} (x : Nat × α) : List (Nat × α) → List (Nat × α)
  | [] => [x]
  | y :: r => if x.1 ≤ y.1 then x :: y :: r else y :: insertDue x r
/-- Landings in the order in which what they end was issued (R106, R132). -/
def byIssue {α : Type} (l : List (Nat × α)) : List (Nat × α) := l.foldr insertDue []

/-- The results of groups that have exited, each with its group's place. -/
def Core.lateResults (c : Nat) (k : Core) : List (GroupRef × Late) :=
  k.subs.cells.flatMap fun p => p.2.late.map fun r => (⟨c, p.1, r.slot, r.fib⟩, r)

/-- The results of a core that are due in its present clock, in issue order, each with its issue clock and its group (R106, R132). -/
def Core.dueResults (c : Nat) (k : Core) : List (Nat × GroupRef) :=
  let late := (k.lateResults c).filterMap fun p => if p.2.due ≤ k.clock then some (p.2.issued, p.1) else none
  let due := (k.groups c).flatMap fun p => (p.2.2.results.filter fun r => decide (r.due ≤ k.clock)).map fun r => (r.issued, p.1)
  byIssue (late ++ due)

/-- The oldest result in flight of the groups that have left a place. -/
def Sub.lateOf (x : Sub) (g : GroupRef) : Option Late := x.late.find? fun r => r.slot == g.slot && r.fib == g.fib

/-- A write of a bank register performed. -/
def bankPut (m : SMap Reg) (w : RegWrite) : SMap Reg :=
  match w.place with
  | .bank i => m.set i ((m.get i Reg.zero).merge w.mask w.value)
  | _ => m

/-- A result of an exited group lands: its operand file is gone, and what it writes in the bank is written (R100, R121). -/
def Sub.landLate (x : Sub) (r : Late) : Sub := { x with bank := r.writes.foldl bankPut x.bank, late := x.late.erase r }

/-! ### Blocks, handles and code addresses (R76-R78, R112) -/

/-- The address-space identifier that a ROOT names (R315). -/
def rootAsid (root : DWord) : BitVec 12 := root.extractLsb' 44 12
def Team.asid (t : Team) : BitVec 12 := rootAsid t.desc.root
/-- The ownership of a team's context (R78). -/
def Team.owner (t : Team) : Owner := ⟨t.desc.image, t.asid, t.desc.world⟩

def handleBlock (h : BitVec 12) : Nat := (h &&& 0xFF#12).toNat
def Core.gen (k : Core) (n : Nat) : BitVec 4 := k.blockGen.get n 0#4
/-- The handle of a block as its generation stands (R77). -/
def Core.handleOf (k : Core) (n : Nat) : BitVec 12 := k.gen n ++ BitVec.ofNat 8 n
/-- The block that a current handle names (R77). -/
def Core.current (k : Core) (h : BitVec 12) : Option Block :=
  if h.extractLsb' 8 4 = k.gen (handleBlock h) then k.blocks.find (handleBlock h) else none
/-- The null handle (R77). -/
def nullHandle : DWord := 0xFFFFFFFFFFFFFFFF#64
/-- The word of a block at an offset. -/
def Core.blockWord (k : Core) (b : Block) (off : Nat) : EmitWord := k.store.get (b.base * 64 + off) ⟨0#96, 0#32⟩

/-- A code address (R112); past the last word a block can hold there is none, and what stands for it is not given (free). -/
def codeAddress (h : BitVec 12) (off : Nat) : Word := if off < 4096 then 0#8 ++ BitVec.ofNat 12 off ++ h else Config.freeLink h

def causeIllegal : Byte := 0x01#8
def causeWindow : Byte := 0x02#8
def causeTag : Byte := 0x03#8
def causeStale : Byte := 0x04#8
def causePrivilege : Byte := 0x05#8

/-- The check of a transfer through a code address, from the top of the table of R112: the target, or the fault's cause. -/
def Core.checkTarget (k : Core) (o : Owner) (sup : Bool) (addr : Word) (offset : Nat) : Except Byte (BitVec 12 × Nat) :=
  let h := addr.extractLsb' 0 12
  let off := (addr.extractLsb' 12 12).toNat + offset
  if addr.extractLsb' 24 8 ≠ 0#8 then .error causeStale
  else match k.current h with
    | none => .error causeStale
    | some b =>
      if b.st = .opened then .error causeStale
      else if b.owner ≠ o ∧ ¬ (b.sup ∧ sup) then .error causeStale
      else if b.sup ∧ ¬ sup then .error causePrivilege
      else if off > 4095 ∨ off ≥ b.len then .error causeStale
      else .ok (h, off)

/-- Whether a block is idle: no group's pc lies in it, and no entry of a team references it (R78). -/
def Core.noPc (c : Nat) (k : Core) (n : Nat) : Bool := (k.groups c).all fun p => handleBlock p.2.2.handle != n
def Core.idle (c : Nat) (k : Core) (n : Nat) : Bool :=
  k.noPc c n && k.teams.vals.all fun t => t.entries.vals.all fun e => handleBlock e.handle != n

/-! ### Fault records (R335-R337) -/

/-- PLACE of a group (R335). -/
def placeOfGroup (g : GroupRef) (grp ctx : Nat) : Word :=
  BitVec.ofNat 32 (g.core * 2 ^ 24 + g.sub * 2 ^ 19 + g.slot * 2 ^ 17 + g.fib * 2 ^ 15 + ctx * 2 ^ 12 + grp)
/-- PLACE of a generator context (R335). -/
def placeOfCtx (c : CtxRef) : Word := BitVec.ofNat 32 (c.core * 2 ^ 24 + c.ctx * 2 ^ 12)

def boolNat (b : Bool) : Nat := if b then 1 else 0

/-- HEAD of a record (R335). -/
def Rec.head (r : Rec) : Nat :=
  r.cause.toNat * 2 ^ 24 + r.op.toNat * 2 ^ 16 + r.sub.toNat * 2 ^ 8 + boolNat r.reissued * 16 + boolNat r.deferred * 8
    + boolNat r.mode * 4 + boolNat r.info * 2 + boolNat r.level

/-- The 64 bytes of a record (R335). -/
def Rec.bytes (r : Rec) : List Byte :=
  leBytes 4 r.head ++ leBytes 4 r.place.toNat ++ leBytes 4 r.lanes.toNat ++ [r.entry, r.lane] ++ leBytes 2 r.ftag.toNat
    ++ leBytes 8 r.address.toNat ++ leBytes 4 r.prov.toNat ++ leBytes 4 r.count.toNat ++ leBytes 4 r.pc.toNat
    ++ leBytes 2 (r.world * 2 ^ 12 + r.asid.toNat) ++ [r.launch, 0#8] ++ leBytes 4 r.team.toNat ++ leBytes 4 0
    ++ leBytes 8 r.cyc.toNat ++ leBytes 8 r.detail.toNat

/-- The ring positions a record takes: two for a level-G record of cause 3 (R335). -/
def Rec.places (r : Rec) : Nat := if r.second.isSome then 2 else 1

/-- The record with nothing in it. -/
def Rec.blank : Rec :=
  { cause := 0#8, op := 0#8, sub := 0#8, reissued := false, deferred := false, mode := false, info := false, level := false,
    place := 0#32, lanes := 0#32, entry := 0xFF#8, lane := 0#8, ftag := 0#16, address := 0#64, prov := 0#32, count := 0#32,
    pc := 0#32, world := 0, asid := 0#12, launch := 0#8, team := 0#32, cyc := 0#64, detail := 0#64, second := none }

/-- The interrupt file that an IMSIC address names: slice, hart and file, 0 for M and 1 + f for file f (R395). -/
def imsicTarget (addr : Nat) : Option (Nat × Nat × Nat) :=
  let base := 0x00FE000000000000
  if addr < base ∨ base + 16 * 0x01000000 ≤ addr then none
  else
    let s := (addr - base) / 0x01000000
    let o := (addr - base) % 0x01000000
    if o < 0x4000 then (if o % 0x1000 < 4 then some (s, o / 0x1000, 0) else none)
    else if 0x100000 ≤ o ∧ o < 0x120000 then
      let q := o - 0x100000
      if q % 0x1000 < 4 then some (s, q / 0x8000, 1 + q % 0x8000 / 0x1000) else none
    else none

/-- An identity becomes pending in an interrupt file (R395). -/
def State.setPending (s : State) (slice hart file id : Nat) : State :=
  if id = 0 ∨ id > 2047 then s
  else s.modHart ⟨slice, hart⟩ fun h =>
    let f := h.files.get file ⟨[], [], 0#64, 0#64⟩
    { h with files := h.files.set file { f with pending := if f.pending.contains id then f.pending else f.pending ++ [id] } }

/-- An MSI of a unit of a partition: nothing for address 0, and none where the target lies outside the partition (R336, R360, R363). -/
def State.deliverMsi (s : State) (part : Nat) (addr : DWord) (data : Word) : Option State :=
  if addr = 0#64 then some s
  else match imsicTarget addr.toNat with
    | some (n, h, f) => if (s.slice n).part = some part then some (s.setPending n h f data.toNat) else none
    | none => some s

/-- One entry of the firewall log of a slice, with the MSI that announces it (R363); that MSI's own target is not logged. -/
def State.logViolation (s : State) (slice kind cause source : Nat) (address : DWord) : State :=
  let x := s.slice slice
  let s := s.setSlice slice
    { x with fwLog := x.fwLog.set (x.fwHead.toNat % 64) ⟨kind, cause, source, address, x.cyc⟩, fwHead := x.fwHead + 1#32 }
  match x.part with
  | some p => (s.deliverMsi p x.fwMsiAddr x.fwMsiData).getD s
  | none => s

/-- An MSI of a unit of a slice; one whose target lies outside the partition is a violation of cause 4 there (R363). KIND and CORE of its
entry are 0 (DESIGN CHOICE: notes/assumptions). -/
def State.sendMsi (s : State) (slice part : Nat) (addr : DWord) (data : Word) : State :=
  (s.deliverMsi part addr data).getD (s.logViolation slice 0 4 0 addr)

/-! ### Regions and homes (R363, R364, R365) -/

/-- The region that holds a physical address, when it is valid (R364). -/
def Part.region? (p : Part) (pa : Nat) : Option Region := if pa < 2 ^ 39 then p.regions.find (pa / 2 ^ 27) else none

def State.regionAt (s : State) (part pa : Nat) : Option Region := (s.part? part).bind fun p => p.region? pa

/-- The home bank of a physical address within its slice, which is also its logical pseudo-channel (R364). -/
def homeBank (pa : Nat) : Nat := pa / 128 % 2 ^ 20 % 80

/-- The home of a line (R364): its slice, its bank, and its line within the pseudo-channel that the bank fronts. -/
structure LineHome where
  slice : Nat
  bank  : Nat
  line  : Nat
  deriving DecidableEq, Repr

/-- The home of a line of a region: the old one until the region's move switches the line (R364, R368). -/
def Region.homeOf (r : Region) (pa : Nat) : LineHome :=
  let i := pa / 128 % 2 ^ 20
  let at_ := if r.dual ∧ r.moved ≤ i then (r.oslice, r.oslot) else (r.slice, r.slot)
  ⟨at_.1, homeBank pa, at_.2 * 13108 + i / 80⟩

/-- The home of a physical address of a partition (R364). -/
def State.lineHome (s : State) (part pa : Nat) : Option LineHome := (s.regionAt part pa).map fun r => r.homeOf pa

/-- The home slice of a physical address (R364). -/
def State.homeSlice (s : State) (part pa : Nat) : Option Nat := (s.lineHome part pa).map LineHome.slice

/-- The slice whose rendezvous table serves a word: that of its region's entry, which during a move is the new home's (R255, R259). -/
def State.tableSlice (s : State) (part pa : Nat) : Option Nat := (s.regionAt part pa).map Region.slice

/-- The slice whose system, interrupt or I/O region, or device window, holds a physical address (R359, R395, R398). -/
def systemSlice (pa : Nat) : Option Nat :=
  if 0x00FF000000000000 ≤ pa ∧ pa < 0x00FF000010000000 then some ((pa - 0x00FF000000000000) / 0x01000000)
  else if 0x00FE000000000000 ≤ pa ∧ pa < 0x00FE000010000000 then some ((pa - 0x00FE000000000000) / 0x01000000)
  else if 0x00FD000000000000 ≤ pa ∧ pa < 0x00FD000020000000 then some ((pa - 0x00FD000000000000) / 0x02000000)
  else if 0x00E0000000000000 ≤ pa ∧ pa < 0x00E0000000000000 + 16 * 2 ^ 40 then some ((pa - 0x00E0000000000000) / 2 ^ 40)
  else none

/-- The violation that an access of a core, device or engine to a physical address is, lowest cause first; none when the
address is in a valid region (R363). The system region of a slice of the partition is cause 3; its interrupt region, I/O region and
device window, which R359 does not name, are in no valid region (DEDUCED: notes/assumptions). -/
def State.violation (s : State) (part pa : Nat) : Option Nat :=
  match systemSlice pa with
  | some n => if (s.slice n).part = some part then some (if 0x00FF000000000000 ≤ pa then 3 else 2) else some 1
  | none => if (s.regionAt part pa).isSome then none else some 2

/-! ### Routes (R11, R362, R411, R414) -/

/-- The partition of a core. -/
def State.partOf (s : State) (core : Nat) : Nat := ((s.slice (sliceOf core)).part).getD 0

/-- The neighbour of a slice in a direction, 0 east, 1 south, 2 west and 3 north. -/
def neighbour (n dir : Nat) : Option Nat :=
  match dir with
  | 0 => if n % 4 < 3 then some (n + 1) else none
  | 1 => if n / 4 < 3 then some (n + 4) else none
  | 2 => if 0 < n % 4 then some (n - 1) else none
  | _ => if 0 < n / 4 then some (n - 4) else none

/-- The direction in which a slice's neighbour lies. -/
def directionOf (n m : Nat) : Option Nat := (List.range 4).find? fun d => neighbour n d == some m

/-- Whether the mesh link between two neighbours has not failed at either end. -/
def State.linkUp (s : State) (n m : Nat) : Bool :=
  let up (a b : Nat) : Bool := match directionOf a b with
    | some d => !(s.slice a).err.links.getLsbD d
    | none => true
  up n m && up m n

/-- The first failed link of a way: its slice, and its direction from it. -/
def State.failedLink (s : State) : List Nat → Option (Nat × Nat)
  | a :: b :: r => if s.linkUp a b then s.failedLink (b :: r) else some (a, (directionOf a b).getD 0)
  | _ => none

/-- How a request of a slice for a physical address of its partition fares on its way: it reaches its home; its own firewall refuses it
(R363); its home slice is being recovered, so that its firewall holds it (R414); or a link of its route has failed (R411). -/
inductive Way where
  | free
  | refused
  | held
  | failed (slice dir : Nat)
  deriving DecidableEq, Repr

/-- The way from a slice to another of its partition; a partition that recovery left without a path is held whole (R411). -/
def State.wayTo (s : State) (part here n : Nat) : Way :=
  if here = n then .free
  else if (s.slice n).err.esum.getLsbD 7 || ((s.part? part).map Part.held).getD false then .held
  else match s.failedLink (((s.part? part).bind fun p => p.routes.find (16 * here + n)).getD []) with
    | some l => .failed l.1 l.2
    | none => .free

/-- The way from a slice to the home of a physical address. -/
def State.way (s : State) (here part pa : Nat) : Way :=
  if (s.violation part pa).isSome then .refused
  else match s.homeSlice part pa with
    | some n => s.wayTo part here n
    | none => .refused

/-- Whether a request is answered with an error (R363, R411). -/
def Way.errs : Way → Bool
  | .refused => true
  | .failed _ _ => true
  | _ => false

/-- A core's or engine's access that the firewall refuses is logged at its own slice (R363). -/
def State.refuseAccess (s : State) (core kind pa : Nat) : State :=
  match s.violation (s.partOf core) pa with
  | some c => s.logViolation (sliceOf core) kind c core (BitVec.ofNat 64 pa)
  | none => s

/-- A request of a unit of a slice, the launch unit, the fault block or the IOMMU, that the firewall refuses is logged there; KIND and CORE
are 0 (R363; DESIGN CHOICE: notes/assumptions). -/
def State.refuseUnit (s : State) (slice part pa : Nat) : State :=
  match s.violation part pa with
  | some c => s.logViolation slice 0 c 0 (BitVec.ofNat 64 pa)
  | none => s

/-- DETAIL of a record of a way that errs: the unit code of a failed link, and the link by its direction (R412). -/
def Way.detail : Way → Nat
  | .failed _ d => 6 + d * 256
  | _ => 0

/-! ### Home banks (R213, R235, R406) -/

/-- A hart's reservation of a line ends when another write of the line performs (R239, PRESUMED of LR and SC). -/
def Slice.breakResv (x : Slice) (key : Nat) : Slice :=
  { x with harts := x.harts.mapVals fun _ h => if (h.resv.map (·.1)) = some key then { h with resv := none } else h }

/-- Bytes of one line written into memory, given by offset. -/
def memPut (m : List Host.Cell) (base : Nat) (cells : List (Nat × Byte)) : List Host.Cell :=
  cells.foldl (fun m c => memWrite m (base + c.1) c.2) m

/-- One write at a home bank of bytes of one line, given by offset: OWNER is written, POISON clears when the write covers all 128
bytes, and harts' reservations of the line end. -/
def State.bankWrite (s : State) (part line : Nat) (cells : List (Nat × Byte)) (owner : BitVec 12) : State :=
  if cells.isEmpty then s
  else
    let pa := line * 128
    let full := ((cells.map (·.1)).dedup).length == 128
    let s := { s with mem := memPut s.mem (memKey part pa) cells,
                      slices := s.slices.mapVals fun _ x => x.breakResv (lineKey part pa) }
    s.modLine part pa fun m => { m with owner := owner, poison := m.poison && !full }

/-- Bytes written at home banks, line by line. -/
def State.portWrite (s : State) (part pa : Nat) (bs : List Byte) (owner : BitVec 12) : State :=
  (List.range ((pa + bs.length - 1) / 128 - pa / 128 + 1)).foldl (fun s i =>
    let line := pa / 128 + i
    let cells := bs.zipIdx.filterMap fun b => if (pa + b.2) / 128 = line then some ((pa + b.2) % 128, b.1) else none
    s.bankWrite part line cells owner) s

/-- A write of a unit of a slice, OWNER 0: one that its firewall refuses is logged there and lost (R363), and so is one over a failed link. -/
def State.unitWrite (s : State) (slice part pa : Nat) (bs : List Byte) : State :=
  if (s.way slice part pa).errs then s.refuseUnit slice part pa else s.portWrite part pa bs 0#12

/-! ### The fault queue (R336, R337) -/

/-- The remote fault server that MSIADDR names: peer [5:2] (R403). -/
def remotePeer (addr : DWord) : Option Nat :=
  if addr.extractLsb' 56 8 = 0xAD#8 then some (addr.extractLsb' 2 4).toNat else none

/-- Whether a slice's ring has room for a record (R336). -/
def FaultBlock.room (b : FaultBlock) (r : Rec) : Bool :=
  b.qbase != 0#64 && decide ((b.tail - b.head).toNat + r.places ≤ 2 ^ b.log2n)

/-- The places taken in a slice's 32-record buffer (R335). -/
def FaultBlock.used (b : FaultBlock) : Nat := (b.buffer.map Rec.places).sum

/-- Records that wait outside the buffer enter it in order of arrival as places free (R337). -/
def FaultBlock.fill (b : FaultBlock) : Nat → FaultBlock
  | 0 => b
  | n + 1 => match b.waiting with
    | [] => b
    | r :: rest =>
      if b.used + r.2.places ≤ 32 then { b with buffer := b.buffer ++ [r.2], waiting := rest }.fill n else b

/-- The ring's place a number of records past FQ_TAIL (R335, R336). -/
def FaultBlock.place (b : FaultBlock) (i : Nat) : Nat := b.qbase.toNat + 64 * ((b.tail.toNat + i) % 2 ^ b.log2n)

/-- Whether the home bank of the ring's next places is held, so that records wait (R411, R414). -/
def State.ringHeld (s : State) (slice part : Nat) : Bool :=
  [0, 1].any fun i => s.way slice part ((s.slice slice).fault.place i) == .held

/-- One record written at FQ_TAIL (R336); its second position follows modulo the ring length (R335). -/
def State.writeRecord (s : State) (slice part : Nat) (r : Rec) : State :=
  let b := (s.slice slice).fault
  let s := s.unitWrite slice part (b.place 0) r.bytes
  let s := match r.second with
    | some w => s.unitWrite slice part (b.place 1) (leBytes 12 w.toNat ++ List.replicate 52 0#8)
    | none => s
  let s := s.modSlice slice fun x => { x with fault := { x.fault with tail := x.fault.tail + BitVec.ofNat 32 r.places } }
  match remotePeer b.msiAddr with
  | some p => s.modSlice slice fun x => { x with net := { x.net with records := x.net.records ++ [(p, r)] } }
  | none => s.sendMsi slice part b.msiAddr b.msiData

/-- Whether the peer that a slice's MSIADDR names refuses the next record, because its own ring is full (R403): that ring is another
package's, and the answer is free. -/
def State.peerRefuses (s : State) (slice : Nat) : Bool × State :=
  match remotePeer (s.slice slice).fault.msiAddr with
  | none => (false, s)
  | some _ => ((Config.freeWord s.freeCtr).getLsbD 0, { s with freeCtr := s.freeCtr + 1 })

/-- The first record of the buffer enters the ring when there is room, no home bank of it is held and no peer refuses it, the server is signalled, and a waiting
record takes the buffer's place (R336, R337, R403). -/
def State.drainFault (s : State) (slice : Nat) : State :=
  let x := s.slice slice
  match x.fault.buffer, x.part with
  | r :: rest, some p =>
    if x.fault.room r && !s.ringHeld slice p then
      let q := s.peerRefuses slice
      let s := q.2
      if q.1 then s else
      let s := s.writeRecord slice p r
      s.modSlice slice fun x => { x with fault := { x.fault with buffer := rest }.fill x.fault.waiting.length }
    else s
  | _, _ => s

/-- A record arises on a slice: it goes to the ring at once when nothing waits and there is room, else to the buffer, else it
is held where it arose (R336, R337). -/
def State.postRecord (s : State) (slice : Nat) (r : Rec) : State :=
  let r := { r with cyc := (s.slice slice).cyc }
  let s := s.modSlice slice fun x =>
    { x with fault := { x.fault with waiting := x.fault.waiting ++ [(none, r)] }.fill (x.fault.waiting.length + 1) }
  if (s.slice slice).fault.buffer.length = 1 then s.drainFault slice else s

/-- The next FTAG of a slice (R336): 0 is never given. -/
def nextFtag (t : BitVec 16) : BitVec 16 := if t = 0xFFFF#16 then 1#16 else t + 1#16

/-- A record that can be answered takes an FTAG and becomes live (R336). -/
def State.postAnswerable (s : State) (slice : Nat) (r : Rec) (agent : Agent) (opId : Nat) : State :=
  let tag := (s.slice slice).fault.nextTag
  let r := { r with ftag := tag }
  let live : LiveRec := ⟨tag, r.place, r.level, r.entry, r.cause, agent, opId, r⟩
  let s := s.modSlice slice fun x =>
    { x with fault := { x.fault with nextTag := nextFtag tag, live := x.fault.live ++ [live] } }
  s.postRecord slice r

/-! ### Taking a fault, and the return from it (R95, R230, R335, R338) -/

/-- What a level-S fault says beyond its place: the word it names, its lanes and the cause's own fields (R335). -/
structure FaultInfo where
  cause   : Byte
  op      : Byte
  sub     : Byte
  prov    : Word
  pc      : Word
  lanes   : Word
  lane    : Byte
  entry   : Byte
  address : DWord
  count   : Word
  detail  : DWord
  opId    : Nat
  deriving DecidableEq, Repr

/-- OP and SUB of a word as a record holds them. -/
def opSub (i : Instr) : Byte × Byte :=
  match i with
  | .pair p => (0xE0#8, p.p0 ++ p.d0.extractLsb' 5 3)
  | i => match i.groupFields with
    | some (op, f) => (op, f.sub)
    | none => match i.genFields with
      | some (op, f) => (op, f.sub)
      | none => (0#8, 0#8)

/-- The record of a level-S fault of a group (R335). -/
def View.record (v : View) (i : FaultInfo) : Rec :=
  { Rec.blank with
    cause := i.cause, op := i.op, sub := i.sub, mode := v.fib.sup, place := placeOfGroup v.g v.fib.grp v.slot.ctx,
    lanes := i.lanes, entry := i.entry, lane := i.lane, address := i.address, prov := i.prov, count := i.count, pc := i.pc,
    world := v.team.desc.world, asid := v.team.asid, launch := BitVec.ofNat 8 v.team.launch,
    team := BitVec.ofNat 32 v.team.index, detail := i.detail }

/-- A level-S fault is taken: the fibre freezes with its pc where it stands, and the record goes to the fault queue of its
slice (R230, R335, R338). -/
def State.takeFaultS (s : State) (v : View) (i : FaultInfo) : State :=
  let s := s.modFibre v.g fun f => { f with frozen := true }
  s.postAnswerable (sliceOf v.g.core) (v.record i) (.group v.g) i.opId

/-- The word that a group is at, with its provenance (R89). -/
def View.word (v : View) : EmitWord :=
  match v.core.blocks.find (handleBlock v.fib.handle) with
  | some b => v.core.blockWord b v.fib.off
  | none => ⟨0#96, 0#32⟩

/-- The fault information of the word at the group's pc. -/
def View.faultAt (v : View) (cause op sub : Byte) (lanes : Mask) (lane : Nat) : FaultInfo :=
  { cause := cause, op := op, sub := sub, prov := v.word.prov, pc := codeAddress v.fib.handle v.fib.off, lanes := lanes,
    lane := BitVec.ofNat 8 lane, entry := 0xFF#8, address := 0#64, count := 0#32, detail := 0#64, opId := 0 }

/-- A level-S fault of the word that a group is issuing, naming some lanes. -/
def State.faultWord (s : State) (v : View) (i : Instr) (cause : Byte) (lanes : Mask) : State :=
  s.takeFaultS v (v.faultAt cause (opSub i).1 (opSub i).2 lanes (lowestLane lanes).val)

/-- A level-S fault of a transfer, or of reaching the sealed length: LANES holds %exm and LANE the leader (R112). -/
def State.faultTransfer (s : State) (v : View) (i : Instr) (cause : Byte) : State :=
  s.takeFaultS v (v.faultAt cause (opSub i).1 (opSub i).2 v.fib.exm v.leader.val)

/-- Whether lanes of a fibre that RESUME has issued again have still to complete (R232). -/
def Fibre.redoing (f : Fibre) : Bool := f.ops.any fun o => (o.redo &&& o.pending) != 0#32

/-- The fibre runs again when no record of it is unanswered and the last of its held lanes has completed (R232, R338); one that is made
to exit never does. -/
def State.unfreeze (s : State) (g : GroupRef) : State :=
  if (s.slice (sliceOf g.core)).fault.live.any fun r => r.agent == .group g then s
  else s.modFibre g fun f => { f with frozen := f.frozen && (f.aborting || f.redoing || !f.kept.isEmpty) }

/-- A level-G fault is taken: the context freezes at its instruction and its record is written (R95). -/
def State.takeFaultG (s : State) (c : CtxRef) (cause op sub : Byte) (address : DWord) (count : Nat) (second : Option IWord) :
    State :=
  match s.team? c.core c.ctx with
  | none => s
  | some t =>
    let s := s.modTeam c.core c.ctx fun t => { t with gen := { t.gen with run := .frozen, busy := false } }
    let r : Rec :=
      { Rec.blank with
        cause := cause, op := op, sub := sub, mode := t.gen.sup, level := true, place := placeOfCtx c, address := address,
        prov := BitVec.ofNat 32 t.gen.pc, count := BitVec.ofNat 32 count, world := t.desc.world, asid := t.asid,
        launch := BitVec.ofNat 8 t.launch, team := BitVec.ofNat 32 t.index, second := second }
    s.postAnswerable (sliceOf c.core) r (.ctx c) 0

/-- The context executes its instruction again (R96). -/
def State.resumeCtx (s : State) (c : CtxRef) : State :=
  s.modTeam c.core c.ctx fun t =>
    if t.gen.run = .frozen then { t with gen := { t.gen with run := .ready (s.core c.core).clock, waitPage := none, walkFaults := [] } } else t

/-! ### A hart's exception (R393, R397) -/

def Hart.csrOf (h : Hart) (n : Nat) : DWord := h.csr.get n 0#64
def Hart.setCsr (h : Hart) (n : Nat) (v : DWord) : Hart := { h with csr := h.csr.set n v }

/-- A field of a CSR replaced. -/
def setField (w : DWord) (lo n : Nat) (v : Nat) : DWord :=
  (w &&& ~~~(BitVec.ofNat 64 ((2 ^ n - 1) * 2 ^ lo))) ||| BitVec.ofNat 64 (v % 2 ^ n * 2 ^ lo)
def fieldOf (w : DWord) (lo n : Nat) : Nat := w.toNat / 2 ^ lo % 2 ^ n

/-- The address a trap vector gives: its base, and under MODE 1 a word per cause for an interrupt. -/
def trapVector (tvec : DWord) (cause : Nat) (irq : Bool) : DWord :=
  let base := tvec &&& ~~~3#64
  if irq && tvec.getLsbD 0 then base + BitVec.ofNat 64 (4 * cause) else base

/-- The cause register's value: bit 63 marks an interrupt. -/
def trapCause (cause : Nat) (irq : Bool) : DWord := BitVec.ofNat 64 (cause + if irq then 2 ^ 63 else 0)

/-- Entry to M-mode: mepc, mcause, mtval; MPP, MPIE, MIE, MPV and GVA of mstatus; mtval2 and mtinst are zero. -/
def Hart.trapM (h : Hart) (cause : Nat) (irq : Bool) (tval : DWord) : Hart :=
  let st := h.csrOf 0x300
  let st := setField (setField (setField (setField st 11 2 h.priv) 7 1 (fieldOf st 3 1)) 3 1 0) 38 2 (2 * boolNat h.virt)
  let h := { h with priv := 3, virt := false, pc := trapVector (h.csrOf 0x305) cause irq }
    |>.setCsr 0x341 h.pc |>.setCsr 0x342 (trapCause cause irq) |>.setCsr 0x343 tval |>.setCsr 0x34A 0#64 |>.setCsr 0x34B 0#64
  h.setCsr 0x300 st

/-- Entry to HS-mode: sepc, scause, stval; SPP, SPIE and SIE of sstatus; SPV, GVA and, from a virtual mode, SPVP of hstatus; htval and
htinst are zero. -/
def Hart.trapHS (h : Hart) (cause : Nat) (irq : Bool) (tval : DWord) : Hart :=
  let st := h.csrOf 0x300
  let st := setField (setField (setField st 8 1 h.priv) 5 1 (fieldOf st 1 1)) 1 1 0
  let hs := setField (h.csrOf 0x600) 6 2 (2 * boolNat h.virt)
  let hs := if h.virt then setField hs 8 1 h.priv else hs
  let h := { h with priv := 1, virt := false, pc := trapVector (h.csrOf 0x105) cause irq }
    |>.setCsr 0x141 h.pc |>.setCsr 0x142 (trapCause cause irq) |>.setCsr 0x143 tval |>.setCsr 0x643 0#64 |>.setCsr 0x64A 0#64
  (h.setCsr 0x300 st).setCsr 0x600 hs

/-- Entry to VS-mode: the same in the VS registers. -/
def Hart.trapVS (h : Hart) (cause : Nat) (irq : Bool) (tval : DWord) : Hart :=
  let st := h.csrOf 0x200
  let st := setField (setField (setField st 8 1 h.priv) 5 1 (fieldOf st 1 1)) 1 1 0
  let h := { h with priv := 1, pc := trapVector (h.csrOf 0x205) cause irq }
    |>.setCsr 0x241 h.pc |>.setCsr 0x242 (trapCause cause irq) |>.setCsr 0x243 tval
  h.setCsr 0x200 st

/-- A hart takes an exception, as the RISC-V privileged architecture gives it (PRESUMED: notes/assumptions): to VS when it
runs virtualised and both delegation registers name the cause, to HS when medeleg names it and the hart is not in M, else
to M. The saved pc, cause and value, the status stack and the new mode are those of the target. -/
def Hart.trap (h : Hart) (cause : Nat) (tval : DWord) : Hart :=
  let deleg (n : Nat) : Bool := (h.csrOf n).getLsbD cause
  if h.priv < 3 ∧ deleg 0x302 then
    if h.virt ∧ deleg 0x602 then h.trapVS cause false tval else h.trapHS cause false tval
  else h.trapM cause false tval

/-- An exception whose value is a guest virtual address, or that names a guest physical address: GVA, and the second value with its
transformed instruction when a walk of the first stage met it. -/
def Hart.trapGuest (h : Hart) (cause : Nat) (tval : DWord) (gva : Bool) (gpa : Option Nat) (walk : Bool) : Hart :=
  let t := h.trap cause tval
  let addr := BitVec.ofNat 64 (gpa.getD 0 / 4)
  let inst := if walk && gpa.isSome then 0x3000#64 else 0#64
  if t.virt then t
  else if t.priv = 3 then ((t.setCsr 0x300 (setField (t.csrOf 0x300) 38 1 (boolNat gva))).setCsr 0x34B addr).setCsr 0x34A inst
  else ((t.setCsr 0x600 (setField (t.csrOf 0x600) 6 1 (boolNat gva))).setCsr 0x643 addr).setCsr 0x64A inst

def State.hartTrap (s : State) (h : HartRef) (cause : Nat) (tval : DWord) : State := s.modHart h fun x => x.trap cause tval

/-- The general registers of a hart; x0 reads zero and discards writes. -/
def Hart.reg (h : Hart) (r : BitVec 5) : DWord := if r = 0#5 then 0#64 else h.x.get r.toNat 0#64
def Hart.setReg (h : Hart) (r : BitVec 5) (v : DWord) : Hart := if r = 0#5 then h else { h with x := h.x.set r.toNat v }

end Sys2Proof.Machine
end

