-- ==== Sys2Proof/Machine/Flags.lean ====
section
/-!
DEFINITION. Number formats, rounding and every flag computation: the bits of %gst that arithmetic sets (R127), the formats of
R151, R173 and R174, round_fmt of R152 on exact values, the conversions of R179, R180 and R182, and the arithmetic of R159-R170
on exact values with one rounding.
-/

namespace Sys2Proof.Machine

/-! ### The sticky flags (R127) -/

def flagNX : Word := 1#32
def flagUF : Word := 2#32
def flagOF : Word := 4#32
def flagDZ : Word := 8#32
def flagNV : Word := 16#32
def flagTAGX : Word := 32#32

/-- A flag when a condition holds. -/
def flagIf (c : Bool) (f : Word) : Word := if c then f else 0#32

/-! ### Formats (R151, R173, R174, R177) -/

/-- A binary format: width K, precision P, bias, whether it has a sign, whether it has infinities, and whether it is laid out
as IEEE 754 gives (R151) or as R173 gives. -/
structure Fmt where
  k      : Nat
  p      : Nat
  bias   : Int
  signed : Bool
  ext    : Bool
  ieee   : Bool
  deriving DecidableEq, Repr

def fmtF32 : Fmt := ⟨32, 24, 127, true, true, true⟩
def fmtF16 : Fmt := ⟨16, 11, 15, true, true, true⟩
def fmtBf16 : Fmt := ⟨16, 8, 127, true, true, true⟩

/-- A narrow format of width K: signed with E = K - P, unsigned with E = K - P + 1 (R173). -/
def fmtNarrow (k p : Nat) (signed ext : Bool) : Fmt :=
  ⟨k, p, 2 ^ ((if signed then k - p else k - p + 1) - 1), signed, ext, false⟩

/-- The binary8 format of an index: [4] unsigned, [3] finite, [2:0] P (R49). -/
def fmtBinary8 (index : Nat) : Fmt := fmtNarrow 8 (index % 8) (index / 16 % 2 == 0) (index / 8 % 2 == 0)

/-- The format of an FC code that names a float format (R49, R178). -/
def fmtOfFc (fc : Nat) : Fmt :=
  if 32 ≤ fc then fmtBinary8 (fc - 32)
  else if 20 ≤ fc ∧ fc ≤ 22 then fmtNarrow 6 (fc - 18) true true
  else if 23 ≤ fc ∧ fc ≤ 25 then fmtNarrow 6 (fc - 21) true false
  else if fc = 4 ∨ fc = 16 then fmtF16
  else if fc = 5 ∨ fc = 17 then fmtBf16
  else fmtF32

/-- The least exponent of a normal value. -/
def Fmt.emin (f : Fmt) : Int := 1 - f.bias
/-- Trailing significand bits. -/
def Fmt.t (f : Fmt) : Nat := f.p - 1
/-- The code of NaN (R151, R173). -/
def Fmt.nanCode (f : Fmt) : Nat :=
  if f.ieee then 2 ^ (f.k - 1) - 2 ^ (f.t - 1) else if f.signed then 2 ^ (f.k - 1) else 2 ^ f.k - 1
/-- The code of +infinity in an extended format, and of the largest finite value in a finite one (R173, R174). -/
def Fmt.topCode (f : Fmt) : Nat :=
  if f.ieee then 2 ^ (f.k - 1) - 2 ^ f.t else if f.signed then 2 ^ (f.k - 1) - 1 else 2 ^ f.k - 2
/-- The code of the largest finite value. -/
def Fmt.maxCode (f : Fmt) : Nat := if f.ext then f.topCode - 1 else f.topCode
/-- A magnitude's code with a sign; an unsigned format has no sign bit. -/
def Fmt.withSign (f : Fmt) (neg : Bool) (c : Nat) : Nat := if neg && f.signed then c + 2 ^ (f.k - 1) else c

/-! ### Exact values -/

/-- What a code stands for: a NaN, an infinity, or the finite value n * 2^e with a sign, zero keeping its own. -/
inductive FVal where
  | nan (signalling : Bool)
  | inf (neg : Bool)
  | fin (neg : Bool) (n : Nat) (e : Int)
  deriving DecidableEq, Repr

namespace FVal
def isNan : FVal → Bool
  | nan _ => true
  | _ => false
def isSnan : FVal → Bool
  | nan s => s
  | _ => false
def isInf : FVal → Bool
  | inf _ => true
  | _ => false
def isZero : FVal → Bool
  | fin _ n _ => n == 0
  | _ => false
def neg? : FVal → Bool
  | inf s => s
  | fin s _ _ => s
  | nan _ => false
/-- The same value with its sign changed. -/
def negate : FVal → FVal
  | nan s => nan s
  | inf s => inf (!s)
  | fin s n e => fin (!s) n e
end FVal

/-- The finite value of a magnitude code: exponent field above T trailing bits (R173). -/
def Fmt.finite (f : Fmt) (neg : Bool) (m : Nat) : FVal :=
  let e := m / 2 ^ f.t
  let t := m % 2 ^ f.t
  if e = 0 then .fin neg t (f.emin - f.t) else .fin neg (2 ^ f.t + t) ((e : Int) - f.bias - f.t)

/-- The value of a code (R151, R173). -/
def Fmt.decode (f : Fmt) (c : Nat) : FVal :=
  let neg := f.signed && c / 2 ^ (f.k - 1) % 2 == 1
  let m := if f.signed then c % 2 ^ (f.k - 1) else c % 2 ^ f.k
  if f.ieee then
    if m > f.topCode then .nan (m / 2 ^ (f.t - 1) % 2 == 0)
    else if m = f.topCode then .inf neg
    else f.finite neg m
  else if c % 2 ^ f.k = f.nanCode then .nan false
  else if f.ext && m == f.topCode then .inf neg
  else f.finite neg m

/-- n * 2^k, rounded down when k is negative. -/
def shiftBy (n : Nat) (k : Int) : Nat := if 0 ≤ k then n * 2 ^ k.toNat else n / 2 ^ (-k).toNat

/-- Whether a * 2^x is less than b * 2^y. -/
def dyLt (a : Nat) (x : Int) (b : Nat) (y : Int) : Bool :=
  let lo := min x y
  decide (shiftBy a (x - lo) < shiftBy b (y - lo))

/-- The code of a magnitude n * 2^q that the format represents. -/
def Fmt.magCode (f : Fmt) (n : Nat) (q : Int) : Nat :=
  if n = 0 then 0
  else
    let l : Int := Nat.log2 n + q
    if l < f.emin then shiftBy n (q - (f.emin - f.t))
    else (l + f.bias).toNat * 2 ^ f.t + (shiftBy n (q - (l - f.t)) - 2 ^ f.t)

/-! ### Rounding (R152, R182) -/

/-- The rounding modes of R152, and stochastic rounding under a generator state (R182). -/
inductive RMode where
  | rne
  | rtz
  | rup
  | rdn
  | rna
  | rsr (state : Word)
  deriving DecidableEq, Repr

/-- The mode of an RM code (R49); the state is used by .rsr alone. -/
def rmodeOf (rm : Nat) (state : Word) : RMode :=
  match rm with
  | 0 => .rne
  | 1 => .rtz
  | 2 => .rup
  | 3 => .rdn
  | 4 => .rna
  | _ => .rsr state

/-- Whether the magnitude lo + r/d of a grid step rounds away from lo; odd is the tie bit of lo. -/
def RMode.up (m : RMode) (neg odd : Bool) (r d : Nat) : Bool :=
  match m with
  | .rne => decide (2 * r > d) || (decide (2 * r = d) && odd)
  | .rtz => false
  | .rup => !neg && decide (0 < r)
  | .rdn => neg && decide (0 < r)
  | .rna => decide (2 * r ≥ d)
  | .rsr s => decide (0 < r) && decide ((s >>> 8).toNat < r * 2 ^ 24 / d)

/-- Whether an overflow under the mode goes to infinity (R152, R182). -/
def RMode.toInf (m : RMode) (neg : Bool) : Bool :=
  match m with
  | .rne => true
  | .rtz => false
  | .rup => !neg
  | .rdn => neg
  | .rna => true
  | .rsr _ => true

/-- floor(log2(num/den * 2^e)) of a positive value. -/
def expOf (num den : Nat) (e : Int) : Int :=
  let l : Int := (Nat.log2 num : Int) - Nat.log2 den
  let fits := if 0 ≤ l then decide (den * 2 ^ l.toNat ≤ num) else decide (den ≤ num * 2 ^ (-l).toNat)
  (if fits then l else l - 1) + e

/-- num/den * 2^e on the grid of spacing 2^q: the step below, and the remainder over the divisor. -/
def onGrid (num den : Nat) (e q : Int) : Nat × Nat × Nat :=
  let k := e - q
  let a := if 0 ≤ k then num * 2 ^ k.toNat else num
  let b := if 0 ≤ k then den else den * 2 ^ (-k).toNat
  (a / b, a % b, b)

/-- The tie bit of a grid value: bit 0 of its code (R179). -/
def Fmt.oddAt (f : Fmt) (n : Nat) (q : Int) : Bool :=
  if f.p = 1 then n != 0 && (q + f.bias) % 2 != 0 else n % 2 == 1

/-- A rounded magnitude: its grid value, whether it differs from the exact value, and the judgements of R152. -/
structure Rounded where
  n       : Nat
  q       : Int
  inexact : Bool
  ovf     : Bool
  tiny    : Bool
  deriving DecidableEq, Repr

/-- round_fmt of R152 on a positive exact value num/den * 2^e. -/
def Fmt.round (f : Fmt) (m : RMode) (neg : Bool) (num den : Nat) (e : Int) : Rounded :=
  let x := expOf num den e
  let q := x - f.t
  let (lo, r, d) := onGrid num den e q
  let n := if m.up neg (f.oddAt lo q) r d then lo + 1 else lo
  let big := f.finite false f.maxCode
  let ovf := match big with
    | .fin _ bn be => dyLt bn be n q
    | _ => false
  if dyLt n q 1 f.emin then
    let q := f.emin - f.t
    let (lo, r, d) := onGrid num den e q
    let n := if m.up neg (f.oddAt lo q) r d then lo + 1 else lo
    ⟨n, q, r != 0, false, true⟩
  else ⟨n, q, r != 0, ovf, false⟩

/-- A finite value num/den * 2^e delivered in a format with its flags: overflow and unsigned handling by R152 and R179, with
saturation under OV. -/
def Fmt.deliver (f : Fmt) (m : RMode) (sat neg : Bool) (num den : Nat) (e : Int) : Nat × Word :=
  if num = 0 then (if f.ieee then f.withSign neg 0 else 0, 0#32)
  else
    let r := f.round m neg num den e
    if neg && !f.signed && r.n != 0 then (if sat then (0, 0#32) else (f.nanCode, flagNV))
    else if r.ovf then
      if m.toInf neg && !sat then
        if f.ext then (f.withSign neg f.topCode, flagOF ||| flagNX) else (f.nanCode, flagNV)
      else (f.withSign neg f.maxCode, flagOF ||| flagNX)
    else
      let c := f.magCode r.n r.q
      let c := if c = 0 && !f.ieee then 0 else f.withSign neg c
      (c, if r.inexact then (if r.tiny then flagUF ||| flagNX else flagNX) else 0#32)

/-- conv of R179: an exact value into a float format under RM and OV. -/
def Fmt.conv (f : Fmt) (m : RMode) (sat : Bool) (v : FVal) : Nat × Word :=
  match v with
  | .nan s => (f.nanCode, flagIf s flagNV)
  | .inf neg =>
    if neg && !f.signed then (if sat then (0, 0#32) else (f.nanCode, flagNV))
    else if f.ext then (f.withSign neg f.topCode, 0#32)
    else if sat then (f.withSign neg f.maxCode, 0#32)
    else (f.nanCode, flagNV)
  | .fin neg n e => f.deliver m sat neg n 1 e

/-- An integer clamped to a range. -/
def clampInt (lo hi x : Int) : Int := if x < lo then lo else if x > hi then hi else x
/-- The least and greatest value of an integer type of width w. -/
def intMin (w : Nat) (signed : Bool) : Int := if signed then -(2 ^ (w - 1)) else 0
def intMax (w : Nat) (signed : Bool) : Int := if signed then 2 ^ (w - 1) - 1 else 2 ^ w - 1

/-- A float value into an integer type of width w (R180): rounded, saturated, NaN gives 0. NV is judged on the rounded integer (DEDUCED:
notes/assumptions). -/
def convToInt (w : Nat) (signed : Bool) (m : RMode) (v : FVal) : Int × Word :=
  match v with
  | .nan _ => (0, flagNV)
  | .inf neg => (if neg then intMin w signed else intMax w signed, flagNV)
  | .fin neg n e =>
    let (lo, r, d) := onGrid n 1 e 0
    let a := if m.up neg (lo % 2 == 1) r d then lo + 1 else lo
    let x : Int := if neg then -(a : Int) else a
    if x < intMin w signed ∨ intMax w signed < x then (clampInt (intMin w signed) (intMax w signed) x, flagNV)
    else (x, flagIf (r != 0) flagNX)

/-- An integer as an exact value. -/
def FVal.ofInt (x : Int) : FVal := .fin (decide (x < 0)) x.natAbs 0

/-! ### FP32 in and out (R153) -/

def isSub32 (c : Nat) : Bool := c / 2 ^ 23 % 256 == 0 && c % 2 ^ 23 != 0
/-- in32: under FTZ a subnormal reads as a zero of its sign. -/
def in32 (ftz : Bool) (w : Word) : FVal :=
  if ftz && isSub32 w.toNat then .fin (w.getLsbD 31) 0 0 else fmtF32.decode w.toNat
/-- out32: under FTZ a subnormal result is written as a zero of its sign, with UF and NX. -/
def out32 (ftz : Bool) (r : Nat × Word) : Word × Word :=
  if ftz && isSub32 r.1 then (BitVec.ofNat 32 (r.1 / 2 ^ 31 * 2 ^ 31), r.2 ||| flagUF ||| flagNX) else (BitVec.ofNat 32 r.1, r.2)

/-! ### Arithmetic on exact values (R159, R160, R166, R170) -/

def snans (vs : List FVal) : Word := flagIf (vs.any FVal.isSnan) flagNV

/-- A signed dyadic as an integer at exponent lo, which is at most its own. -/
def dyInt (neg : Bool) (n : Nat) (e lo : Int) : Int := if neg then -(shiftBy n (e - lo) : Int) else shiftBy n (e - lo)

/-- An exact nonzero sum x * 2^lo rounded once. -/
def Fmt.sumOut (f : Fmt) (m : RMode) (x : Int) (lo : Int) : Nat × Word := f.deliver m false (decide (x < 0)) x.natAbs 1 lo

/-- x + y with one rounding (R159). -/
def Fmt.add (f : Fmt) (m : RMode) (x y : FVal) : Nat × Word :=
  match x, y with
  | .nan _, _ => (f.nanCode, snans [x, y])
  | _, .nan _ => (f.nanCode, snans [x, y])
  | .inf a, .inf b => if a = b then (f.withSign a f.topCode, 0#32) else (f.nanCode, flagNV)
  | .inf a, .fin _ _ _ => (f.withSign a f.topCode, 0#32)
  | .fin _ _ _, .inf b => (f.withSign b f.topCode, 0#32)
  | .fin a n e, .fin b k d =>
    let lo := min e d
    let s := dyInt a n e lo + dyInt b k d lo
    if s = 0 then (f.withSign (if n = 0 ∧ k = 0 ∧ a = b then a else m == .rdn) 0, 0#32)
    else f.sumOut m s lo

/-- x * y exactly, none for zero times infinity; NaN operands are handled before. -/
def exactMul (x y : FVal) : Option FVal :=
  match x, y with
  | .fin a n e, .fin b k d => some (.fin (a != b) (n * k) (e + d))
  | .inf a, .inf b => some (.inf (a != b))
  | .inf a, .fin b k _ => if k = 0 then none else some (.inf (a != b))
  | .fin a n _, .inf b => if n = 0 then none else some (.inf (a != b))
  | v, _ => some v

/-- x * y with one rounding (R159). -/
def Fmt.mul (f : Fmt) (m : RMode) (x y : FVal) : Nat × Word :=
  if x.isNan || y.isNan then (f.nanCode, snans [x, y])
  else match exactMul x y with
    | none => (f.nanCode, flagNV)
    | some (.fin s n e) => if n = 0 then (f.withSign s 0, 0#32) else f.deliver m false s n 1 e
    | some v => (f.withSign v.neg? f.topCode, 0#32)

/-- x * y + z with one rounding (R159): zero times infinity is invalid even when z is NaN. -/
def Fmt.fma (f : Fmt) (m : RMode) (x y z : FVal) : Nat × Word :=
  if x.isNan || y.isNan then (f.nanCode, snans [x, y, z])
  else match exactMul x y with
    | none => (f.nanCode, flagNV)
    | some p => f.add m p z

/-- x / y with one rounding (R170). -/
def Fmt.div (f : Fmt) (m : RMode) (x y : FVal) : Nat × Word :=
  match x, y with
  | .nan _, _ => (f.nanCode, snans [x, y])
  | _, .nan _ => (f.nanCode, snans [x, y])
  | .inf _, .inf _ => (f.nanCode, flagNV)
  | .inf a, .fin b _ _ => (f.withSign (a != b) f.topCode, 0#32)
  | .fin a _ _, .inf b => (f.withSign (a != b) 0, 0#32)
  | .fin a n e, .fin b k d =>
    if k = 0 then (if n = 0 then (f.nanCode, flagNV) else (f.withSign (a != b) f.topCode, flagDZ))
    else if n = 0 then (f.withSign (a != b) 0, 0#32)
    else f.deliver m false (a != b) n k (e - d)

/-- The integer square root, bit by bit from bit i - 1 down. -/
def isqrtFrom (n : Nat) : Nat → Nat → Nat
  | 0, r => r
  | i + 1, r => let c := r + 2 ^ i; isqrtFrom n i (if c * c ≤ n then c else r)
def isqrt (n : Nat) : Nat := isqrtFrom n (Nat.log2 n / 2 + 1) 0

/-- The square root with one rounding (R170); an inexact root is a value strictly between two grid points. -/
def Fmt.sqrt (f : Fmt) (m : RMode) (x : FVal) : Nat × Word :=
  match x with
  | .nan s => (f.nanCode, flagIf s flagNV)
  | .inf neg => if neg then (f.nanCode, flagNV) else (f.topCode, 0#32)
  | .fin neg n e =>
    if n = 0 then (f.withSign neg 0, 0#32)
    else if neg then (f.nanCode, flagNV)
    else
      let k := 2 * (f.p + 2) + (if e % 2 = 0 then 0 else 1)
      let a := n * 2 ^ k
      let r := isqrt a
      let h := (e - k) / 2
      if r * r = a then f.deliver m false false r 1 h else f.deliver m false false (2 * r + 1) 2 h

/-- Whether a finite or infinite value is less than another (R160, R161): -0 equals +0 here. -/
def fltLt (x y : FVal) : Bool :=
  match x, y with
  | .nan _, _ => false
  | _, .nan _ => false
  | .inf a, .inf b => a && !b
  | .inf a, .fin _ _ _ => a
  | .fin _ _ _, .inf b => !b
  | .fin a n e, .fin b k d => let lo := min e d; decide (dyInt a n e lo < dyInt b k d lo)

/-- minimumNumber or maximumNumber of R160 on two codes and their values: the code chosen. -/
def Fmt.minmax (f : Fmt) (isMax : Bool) (cx cy : Nat) (x y : FVal) : Nat × Word :=
  let fl := snans [x, y]
  if x.isNan && y.isNan then (f.nanCode, fl)
  else if x.isNan then (cy, fl)
  else if y.isNan then (cx, fl)
  else if x.isZero && y.isZero then (if x.neg? != isMax then cx else cy, fl)
  else (if fltLt x y != isMax then cx else cy, fl)

/-- A comparison of layout C (R49, R161): the bit, and NV for a signalling operand. -/
def fltCmp (cc : Nat) (x y : FVal) : Bool × Word :=
  let un := x.isNan || y.isNan
  let lt := fltLt x y
  let gt := fltLt y x
  let base := match cc % 6 with
    | 0 => !lt && !gt
    | 1 => lt || gt
    | 2 => lt
    | 3 => !gt
    | 4 => gt
    | _ => !lt
  let r := if cc ≤ 5 then !un && base else if cc ≤ 11 then un || base else if cc = 12 then !un else un
  (r, snans [x, y])

/-- The exact sum of finite terms at a common exponent. -/
def sumTerms (ts : List FVal) : Int × Int :=
  let lo := ts.foldl (fun m v => match v with
    | .fin _ _ e => min m e
    | _ => m) 0
  (ts.foldl (fun s v => match v with
    | .fin a n e => s + dyInt a n e lo
    | _ => s) 0, lo)

/-- The exact-sum rule of R166 over products of elements and an addend, rounded once into the format. -/
def Fmt.dot (f : Fmt) (m : RMode) (pairs : List (FVal × FVal)) (c : FVal) : Nat × Word :=
  let elems := pairs.flatMap fun p => [p.1, p.2]
  let prods := pairs.map fun p => if p.1.isNan || p.2.isNan then some (.nan false) else exactMul p.1 p.2
  let terms := c :: prods.filterMap id
  let zeroInf := prods.any Option.isNone
  let hasInf (s : Bool) : Bool := terms.any fun v => v == .inf s
  let opposite := hasInf true && hasInf false
  if elems.any FVal.isNan || c.isNan || zeroInf || opposite then
    (f.nanCode, flagIf (zeroInf || opposite || (c :: elems).any FVal.isSnan) flagNV)
  else if hasInf true then (f.withSign true f.topCode, 0#32)
  else if hasInf false then (f.topCode, 0#32)
  else
    let (s, lo) := sumTerms terms
    if s = 0 then
      (f.withSign (if terms.all fun v => v.isZero && v.neg? then true else m == .rdn) 0, 0#32)
    else f.sumOut m s lo

/-- Rounding of an FP32 value to an integral value (R162). -/
def roundIntegral (m : RMode) (v : FVal) : Nat × Word :=
  match v with
  | .nan s => (fmtF32.nanCode, flagIf s flagNV)
  | .inf neg => (fmtF32.withSign neg fmtF32.topCode, 0#32)
  | .fin neg n e =>
    if 0 ≤ e then (fmtF32.withSign neg (fmtF32.magCode n e), 0#32)
    else
      let (lo, r, d) := onGrid n 1 e 0
      (fmtF32.withSign neg (fmtF32.magCode (if m.up neg (lo % 2 == 1) r d then lo + 1 else lo) 0), 0#32)

/-- The class mask of R163 on raw FP32 bits. -/
def classMask (w : Word) : Word :=
  match fmtF32.decode w.toNat with
  | .nan s => if s then 1#32 else 2#32
  | .inf neg => if neg then 4#32 else 0x200#32
  | .fin neg n _ =>
    if n = 0 then (if neg then 0x20#32 else 0x40#32)
    else if isSub32 w.toNat then (if neg then 0x10#32 else 0x80#32)
    else if neg then 8#32 else 0x100#32

end Sys2Proof.Machine
end

