-- ==== Sys2Proof/Machine/Access.lean ====
section
/-!
DEFINITION. Reaching memory: the Sv57 walk and its faults (R207, R208, R231), the permission and alias checks (R209, R214),
the translation caches (R210), the region of a physical address and its home (R364), a home bank's write (R213, R406), the
first-level cache (R211, R235), and the constant windows (R37, R206, R218).
-/

namespace Sys2Proof.Machine

/-! ### Causes of R231 -/

def causeNoLeaf : Byte := 0x10#8
def causeNonCanonical : Byte := 0x11#8
def causeMisaligned : Byte := 0x12#8
def causeAD : Byte := 0x13#8
def causeReserved : Byte := 0x14#8
def causeScratch : Byte := 0x15#8
def causeRemote : Byte := 0x16#8
def causeURW : Byte := 0x20#8
def causeAttr3 : Byte := 0x21#8
def causeWorld : Byte := 0x22#8
def causeLaunchWord : Byte := 0x23#8
def causeAliasAttr : Byte := 0x30#8
def causeAliasWorld : Byte := 0x31#8

/-- Bits [63:57] all equal bit 56 (R203). -/
def canonical (va : DWord) : Bool := let t := va.extractLsb' 56 8; t == 0#8 || t == 0xFF#8

/-! ### The walk (R207, R208, R231) -/

/-- PPN of a PTE. -/
def ptePpn (p : Nat) : Nat := p / 2 ^ 10 % 2 ^ 44
def pteBit (p i : Nat) : Bool := p / 2 ^ i % 2 == 1
/-- log2 of the page size of a leaf at a level. -/
def levelShift (level : Nat) : Nat := 12 + 9 * level

/-- A leaf PTE at a level as a translation, or the cause that rejects it. -/
def leafEntry (xen : Bool) (asid : BitVec 12) (world level p va : Nat) : Except Byte TlbEntry :=
  let napot := pteBit p 63
  let low := ptePpn p % 2 ^ (9 * level)
  if level = 4 ∨ p / 2 ^ 61 % 4 ≠ 0 ∨ pteBit p 54 ∨ (¬ xen ∧ p / 2 ^ 55 % 64 ≠ 0) then .error causeReserved
  else if napot ∧ (level ≠ 0 ∨ ptePpn p % 16 ≠ 8) then .error causeReserved
  else if low ≠ 0 then .error causeReserved
  else
    let size := if napot then 16 else levelShift level
    let ppn := if napot then ptePpn p / 16 * 16 else ptePpn p
    .ok { asid := asid, world := world, va := va / 2 ^ size * 2 ^ size, size := size, pa := ppn * 4096,
          r := pteBit p 1, w := pteBit p 2, x := pteBit p 3, u := pteBit p 4, a := pteBit p 6, d := pteBit p 7,
          attr := if xen then p / 2 ^ 59 % 4 else 0, pworld := if xen then p / 2 ^ 55 % 16 else 0 }

/-- The walk from a level down; the first failing PTE decides, and at one PTE 0x10 comes before 0x14 (R231). -/
def walkFrom (read : Nat → Nat) (xen : Bool) (asid : BitVec 12) (world va : Nat) : Nat → Nat → Except Byte TlbEntry
  | level, table =>
    let p := read (table + 8 * (va / 2 ^ levelShift level % 512))
    if ¬ pteBit p 0 then .error causeNoLeaf
    else if pteBit p 2 ∧ ¬ pteBit p 1 then .error causeReserved
    else if pteBit p 1 ∨ pteBit p 3 then leafEntry xen asid world level p va
    else match level with
      | 0 => .error causeNoLeaf
      | l + 1 => if p / 2 ^ 54 ≠ 0 then .error causeReserved else walkFrom read xen asid world va l (ptePpn p * 4096)

/-- The addresses of the PTEs that a walk reads, in order. -/
def walkTrail (read : Nat → Nat) (va : Nat) : Nat → Nat → List Nat
  | level, table =>
    let at_ := table + 8 * (va / 2 ^ levelShift level % 512)
    let p := read at_
    at_ :: (if ¬ pteBit p 0 ∨ pteBit p 1 ∨ pteBit p 2 ∨ pteBit p 3 then []
      else match level with
        | 0 => []
        | l + 1 => if p / 2 ^ 54 ≠ 0 then [] else walkTrail read va l (ptePpn p * 4096))

/-- A page-table walk in a partition's memory, from the root that a launch descriptor names (R315). -/
def State.walk (s : State) (part : Nat) (root : DWord) (world : Nat) (va : DWord) : Except Byte TlbEntry :=
  let xen := ((s.part? part).map Part.xen).getD false
  walkFrom (fun pa => leNat (s.readMem part pa 8)) xen (rootAsid root) world (va.toNat % 2 ^ 57) 4
    ((root.extractLsb' 0 44).toNat * 4096)

/-- The permission checks in the order of R231; none when the access is permitted (R209). -/
def permCause (e : TlbEntry) (sup read write : Bool) (world : Nat) : Option Byte :=
  if (!sup && !e.u) || (read && !e.r) || (write && !e.w) then some causeURW
  else if e.attr = 3 then some causeAttr3
  else if e.pworld ≠ 0 ∧ e.pworld ≠ world then some causeWorld
  else if !e.a || (write && !e.d) then some causeAD
  else none

/-- Whether a cached translation covers an address of a space. -/
def TlbEntry.covers (e : TlbEntry) (asid : BitVec 12) (world : Nat) (va : DWord) : Bool :=
  e.asid == asid && e.world == world && va.toNat % 2 ^ 57 / 2 ^ e.size * 2 ^ e.size == e.va
/-- The physical address that a translation gives. -/
def TlbEntry.phys (e : TlbEntry) (va : DWord) : Nat := e.pa + va.toNat % 2 ^ e.size

/-- A translation held in a core's caches: its sub-partition's TLB first, then the second level (R210). -/
def Core.lookup (k : Core) (sub : Nat) (asid : BitVec 12) (world : Nat) (va : DWord) : Option TlbEntry :=
  ((k.sub sub).tlb ++ k.tlb).find? fun e => e.covers asid world va

/-- Every TLB of a core without the translations of a space that cover an address: what the use of one that fails a permission or A/D
check leaves (R210). -/
def Core.dropTlb (k : Core) (asid : BitVec 12) (world : Nat) (va : DWord) : Core :=
  { k with tlb := k.tlb.filter fun e => !e.covers asid world va,
           subs := ⟨k.subs.cells.map fun p => (p.1, { p.2 with tlb := p.2.tlb.filter fun e => !e.covers asid world va })⟩ }

/-- The number that stands for no sub-partition in a walk: the generator contexts, the copy engine and the constant cache are served by
the second level alone. -/
def noSub : Nat := Config.subsPerCore

/-- The units whose entries carry parity alone, by their numbers in an error's site (R405): constant cache, generator cache,
second-level TLB, and, from 3 on, the TLB of sub-partition u - 3. -/
def constUnit : Nat := 0
def genUnit : Nat := 1
def tlbUnit : Nat := 2
def subTlbUnit : Nat := 3

/-- The entries of such a unit (R13, R66, R210). -/
def unitEntries (u : Nat) : Nat := if u = constUnit then 512 else if u = genUnit then 256 else if u = tlbUnit then 4096 else 32

/-- The entries of a unit that are not disabled (R405). -/
def Core.room (k : Core) (u : Nat) : Nat := unitEntries u - k.parityOff.get u 0

/-- A translation added to a cache of a number of entries. -/
def addEntry (n : Nat) (e : TlbEntry) (l : List TlbEntry) : List TlbEntry := if l.contains e then l else (e :: l).take n

/-- A translation enters a sub-partition's TLB, which holds 32, and the second level, which holds 4,096 (R210). -/
def Core.fillTlb (k : Core) (sub : Nat) (e : TlbEntry) : Core :=
  let k := if sub < noSub then k.modSub sub fun x => { x with tlb := addEntry (k.room (subTlbUnit + sub)) e x.tlb } else k
  { k with tlb := addEntry (k.room tlbUnit) e k.tlb }

/-- The translation of an address that nothing translates. -/
def TlbEntry.bare : TlbEntry :=
  { asid := 0#12, world := 0, va := 0, size := 64, pa := 0, r := true, w := true, x := true, u := true, a := true, d := true,
    attr := 0, pworld := 0 }

/-! ### The end of a walk (R210) -/

/-- How a walk of a slice's walker ends (R210): a PTE's home holds the request up; a PTE cannot be read, because the firewall refuses it,
a link has failed (0x87) or its line is poisoned (0x81; DEDUCED: notes/assumptions); or what the tables give. -/
inductive WalkEnd where
  | held
  | lost (cause : Byte) (pa : Nat)
  | result (r : Except Byte TlbEntry)

/-- The end of a walk that a slice's walker makes now. -/
def State.walkEnd (s : State) (slice part : Nat) (root : DWord) (world : Nat) (va : DWord) : WalkEnd :=
  let trail := walkTrail (fun pa => leNat (s.readMem part pa 8)) (va.toNat % 2 ^ 57) 4 ((root.extractLsb' 0 44).toNat * 4096)
  match trail.find? fun pa => s.way slice part pa != .free || (s.line part pa).poison with
  | none => .result (s.walk part root world va)
  | some pa => match s.way slice part pa with
    | .held => .held
    | .free => .lost 0x81#8 pa
    | _ => .lost 0x87#8 pa

/-- The alias check of an access against a line (R214): the cause, or none. -/
def State.aliasCause (s : State) (part pa : Nat) (e : TlbEntry) : Option Byte :=
  let m := s.line part pa
  if m.attr.toNat ≠ e.attr then some causeAliasAttr
  else if m.world.toNat ≠ e.pworld then some causeAliasWorld
  else none

/-! ### The first-level cache (R211, R235, R237, R238) -/

def L1Line.empty : L1Line := ⟨.empty, false, 0#12⟩
/-- The dirty bytes of a line by offset. -/
def L1Line.dirty (l : L1Line) : List (Nat × Byte) := l.cells.cells.filterMap fun c => if c.2.2 then some (c.1, c.2.1) else none
/-- The line with every byte clean. -/
def L1Line.clean (l : L1Line) : L1Line := { l with cells := ⟨l.cells.cells.map fun c => (c.1, c.2.1, false)⟩ }
/-- Whether a line holds every byte of a list of offsets. -/
def L1Line.holds (l : L1Line) (offs : List Nat) : Bool := offs.all fun o => (l.cells.find o).isSome

/-- A line of a core's cache is clean. -/
def Core.cleanLine (k : Core) (line : Nat) : Core :=
  match k.l1.find line with
  | some l => { k with l1 := k.l1.set line l.clean }
  | none => k

/-- Whether the way of a line's write-back is open: it performs at its home bank, or the firewall refuses it. One over a failed link, or to
a slice in recovery, waits (R411, R414). -/
def State.wayOpen (s : State) (core line : Nat) : Bool :=
  let w := s.way (sliceOf core) (s.partOf core) (line * 128)
  w == .free || w == .refused

/-- Whether a line of a core's cache holds dirty bytes whose way is not open. -/
def State.stuck (s : State) (core line : Nat) : Bool :=
  match (s.core core).l1.find line with
  | some l => !l.dirty.isEmpty && !s.wayOpen core line
  | none => false

/-- Whether a list of lines, or a core's whole cache, holds such a line: a release or acquire action over it waits (R238). -/
def State.anyStuck (s : State) (core : Nat) (lines : List Nat) : Bool := lines.any fun l => s.stuck core l
def State.cacheStuck (s : State) (core : Nat) : Bool := s.anyStuck core (s.core core).l1.keys

/-- The dirty bytes of a line of a core's cache are written back, and the line stays, clean. A write-back that the firewall refuses is
logged and its bytes are lost (R363); one whose way is not open leaves the line as it is. -/
def State.writeBackLine (s : State) (core line : Nat) : State :=
  match (s.core core).l1.find line with
  | none => s
  | some l =>
    if l.dirty.isEmpty then s
    else match s.way (sliceOf core) (s.partOf core) (line * 128) with
      | .free => (s.bankWrite (s.partOf core) line l.dirty l.owner).modCore core fun k => k.cleanLine line
      | .refused => (s.refuseAccess core 1 (line * 128)).modCore core fun k => k.cleanLine line
      | _ => s

/-- A line leaves a core's cache; its dirty bytes are lost unless they were written back before. -/
def State.dropLine (s : State) (core line : Nat) : State := s.modCore core fun k => { k with l1 := k.l1.erase line }

/-- The clean bytes of a line leave a core's cache, and the line with the last of its bytes. -/
def Core.dropClean (k : Core) (line : Nat) : Core :=
  match k.l1.find line with
  | none => k
  | some l =>
    if l.dirty.isEmpty then { k with l1 := k.l1.erase line }
    else { k with l1 := k.l1.set line { l with cells := l.cells.keep fun _ c => c.2 } }

/-- The lines of a list are written back, in order. -/
def State.writeBackLines (s : State) (core : Nat) (lines : List Nat) : State := lines.foldl (fun s l => s.writeBackLine core l) s

/-- The lines of a list are written back, then dropped; dirty bytes whose way is not open stay. -/
def State.flushLines (s : State) (core : Nat) (lines : List Nat) : State :=
  let s := s.writeBackLines core lines
  lines.foldl (fun s l => s.modCore core fun k => k.dropClean l) s

/-- The lines that a first-level cache holds: 384 KiB (R13). -/
def l1Lines : Nat := 3072

/-- The lines that a core's first-level cache has place for: each way that an error has disabled takes its share (R405). -/
def State.l1Room (s : State) (core : Nat) : Nat :=
  let off := (s.slice (sliceOf core)).err.waysOff.get core 0
  if off = 0 then l1Lines else l1Lines - off * Config.l1WayLines

/-- The cache hint that an access goes by: a cache without a way left serves none (R405). -/
def State.hint (s : State) (core ch : Nat) : Nat := if s.l1Room core = 0 then 3 else ch

/-- The line that a full first-level cache replaces, among those that can leave it: the lowest-numbered that no .keep access has touched,
else the lowest-numbered (R211; which of those is a DESIGN CHOICE: notes/assumptions). -/
def State.l1Victim (s : State) (core : Nat) : Option Nat :=
  let free := (s.core core).l1.cells.filter fun p => !s.stuck core p.1
  match free.find? fun p => !p.2.keep with
  | some p => some p.1
  | none => free.head?.map (·.1)

/-- Whether a line is in a core's cache or can come there. -/
def State.l1Takes (s : State) (core line : Nat) : Bool :=
  ((s.core core).l1.find line).isSome || decide ((s.core core).l1.cells.length < s.l1Room core) || (s.l1Victim core).isSome

/-- A core's cache brought down to a number of lines, as far as its lines can leave it: each is written back and dropped. -/
def State.evictTo (s : State) (core room : Nat) : Nat → State
  | 0 => s
  | k + 1 =>
    if (s.core core).l1.cells.length ≤ room then s
    else match s.l1Victim core with
      | some n => (s.flushLines core [n]).evictTo core room k
      | none => s

/-- Room in a core's cache for a line: a full cache writes back and drops the line it replaces (R211). -/
def State.makeRoom (s : State) (core line : Nat) : State :=
  let n := (s.core core).l1.cells.length
  if ((s.core core).l1.find line).isSome ∨ n < s.l1Room core then s else s.evictTo core (s.l1Room core - 1) n

/-- A line put in a core's cache. -/
def State.putLine (s : State) (core line : Nat) (l : L1Line) : State :=
  (s.makeRoom core line).modCore core fun k => { k with l1 := k.l1.set line l }

/-- The whole-cache parts of the release and acquire actions of scope .clus and wider (R238). -/
def State.releaseCache (s : State) (core : Nat) : State := s.writeBackLines core (s.core core).l1.keys
def State.acquireCache (s : State) (core : Nat) : State := s.flushLines core (s.core core).l1.keys

/-- The lines that a byte range overlaps among those a cache holds. -/
def linesIn (held : List Nat) (pa n : Nat) : List Nat := if n = 0 then [] else held.filter fun l => decide (pa / 128 ≤ l ∧ l ≤ (pa + n - 1) / 128)

/-- A line of home bytes merged under the dirty bytes that a cached line holds (R211). -/
def State.filled (s : State) (part line : Nat) (l : L1Line) : L1Line :=
  let base := memReadBytes s.mem (memKey part (line * 128)) 128
  let cells := (List.range 128).map fun i =>
    (i, match l.cells.find i with
        | some (b, true) => (b, true)
        | _ => (base.getD i 0#8, false))
  { l with cells := ⟨cells⟩ }

/-- The bytes of a line at given offsets as a load of a core sees them under its cache hint, and the state after: a default or
.keep load fills or merges the line, a .stream load is served by a line that holds every byte it needs, and .stream and
.nol1 first write dirty bytes back (R211). -/
def State.loadLine (s : State) (core line ch : Nat) (offs : List Nat) : List Byte × State :=
  let part := s.partOf core
  let ch := s.hint core ch
  let l := ((s.core core).l1.find line).getD L1Line.empty
  let home (s : State) : List Byte := offs.map fun o => memRead s.mem (memKey part (line * 128 + o))
  let cached (l : L1Line) : List Byte := offs.map fun o => ((l.cells.find o).getD (0#8, false)).1
  if ch = 0 ∨ ch = 2 then
    let l := if l.holds offs then l else s.filled part line l
    let l := { l with keep := l.keep || ch == 2 }
    (cached l, s.putLine core line l)
  else
    let s := s.writeBackLine core line
    if ch = 1 ∧ l.holds offs then (cached l, s) else (home s, s)

/-- Bytes of one line stored by a core under the cache hint (R211): into the line, dirty, or at the home bank with a present
line taking them clean. -/
def State.storeLine (s : State) (core line ch : Nat) (cells : List (Nat × Byte)) (owner : BitVec 12) : State :=
  let ch := s.hint core ch
  if cells.isEmpty then s
  else if ch = 0 ∨ ch = 2 then
    let l := ((s.core core).l1.find line).getD L1Line.empty
    let l := { l with cells := cells.foldl (fun m c => m.set c.1 (c.2, true)) l.cells, keep := l.keep || ch == 2, owner := owner }
    s.putLine core line l
  else
    let s := s.writeBackLine core line
    let s := s.bankWrite (s.partOf core) line cells owner
    match (s.core core).l1.find line with
    | none => s
    | some l => s.modCore core fun k =>
        { k with l1 := k.l1.set line { l with cells := cells.foldl (fun m c => m.set c.1 (c.2, false)) l.cells } }

/-! ### Constant windows (R37, R206, R218) -/

/-- The physical address of a virtual one under a team's tables, when the walk ends in a leaf. -/
def State.translateTeam (s : State) (t : Team) (va : DWord) : Except Byte (Nat × TlbEntry) :=
  if ¬ canonical va then .error causeNonCanonical
  else match s.walk t.part t.desc.root t.desc.world va with
    | .ok e => .ok (e.phys va, e)
    | .error c => .error c

/-- The virtual address of a word of a constant window of a team's image (R65, R206), none at or beyond the window's length. -/
def Team.constAddress (t : Team) (k off : Nat) : Option DWord :=
  let (start, len) := t.hdr.windows.getD k (0, 0)
  if off ≥ len then none else some (t.desc.image + BitVec.ofNat 64 (t.hdr.constOff + 4 * (start + off)))

/-- The second-level translation of an address of a team (R210). -/
def Core.lookup2 (k : Core) (t : Team) (va : DWord) : Option TlbEntry :=
  k.tlb.find? fun e => e.covers t.asid t.desc.world va

/-- The bytes of a line in a constant or generator cache at an address. -/
def FillLine.at (l : FillLine) (pa n : Nat) : List Byte := (l.bytes.drop (pa % 128)).take n

/-- Where a word of a constant window stands: nowhere, so that it reads zero; in the constant cache; or in memory alone. -/
inductive ConstAt where
  | zero
  | hit (w : Word)
  | miss
  deriving DecidableEq, Repr

/-- The checks of a read of a team's memory through a translation: R209's, then the alias check of the line (R214). -/
def State.readCause (s : State) (t : Team) (sup : Bool) (e : TlbEntry) (pa : Nat) : Option Byte :=
  match permCause e sup true false t.desc.world with
  | some c => some c
  | none => if (s.violation t.part pa).isSome then none else s.aliasCause t.part pa e

/-- A word of a constant window as a core's constant cache has it (R37, R218). A word at or beyond the declared length reads zero, and
so does one on a page that is not mapped (R206) or that R209 or R214 keeps from its reader (DEDUCED: notes/assumptions). -/
def State.constAt (s : State) (core : Nat) (t : Team) (sup : Bool) (k off : Nat) : ConstAt :=
  match t.constAddress k off with
  | none => .zero
  | some va =>
    if ¬ canonical va then .zero
    else match (s.core core).lookup2 t va with
      | none => match s.walk t.part t.desc.root t.desc.world va with
        | .ok _ => .miss
        | .error _ => .zero
      | some e =>
        if (s.readCause t sup e (e.phys va)).isSome then .zero
        else match (s.core core).constCache.find (e.phys va / 128) with
          | some l => .hit (BitVec.ofNat 32 (leNat (l.at (e.phys va) 4)))
          | none => .miss

/-- The word of a constant window that a read gives: what the constant cache holds, and on a miss what the fill brings. -/
def State.constWord (s : State) (core : Nat) (t : Team) (sup : Bool) (k off : Nat) : Word :=
  match s.constAt core t sup k off with
  | .zero => 0#32
  | .hit w => w
  | .miss => match (t.constAddress k off).map (s.translateTeam t) with
    | some (.ok (pa, e)) => if (s.readCause t sup e pa).isSome then 0#32 else BitVec.ofNat 32 (leNat (s.readMem t.part pa 4))
    | _ => 0#32

/-- A line filled from its home bank into a cache of a number of lines; a full cache replaces its lowest-numbered line (DESIGN CHOICE:
notes/assumptions). -/
def State.fillLine (s : State) (part line n : Nat) (m : SMap FillLine) : SMap FillLine :=
  let m := if n ≤ m.cells.length then ⟨m.cells.drop 1⟩ else m
  if n = 0 then m else m.set line ⟨s.readMem part (line * 128) 128⟩

/-- The acquire action of a placement or a restore: the first-level cache's, and every line of the constant and generator caches goes
(R218, R253, R334). -/
def State.acquireAll (s : State) (core : Nat) : State :=
  (s.acquireCache core).modCore core fun k => { k with constCache := .empty, genCache := .empty }

end Sys2Proof.Machine
end

