-- ==== Sys2Proof/Machine/Operands.lean ====
section
/-!
DEFINITION. Every operand form: typed and untyped register sources with the conversions of R46, immediates and constant words
(R35-R37), and the three ways a register instruction is carried out over them: a fixed-latency result (R106), an operation of
the special-function unit (R167), and an operation that a counter tracks (R108).
-/

namespace Sys2Proof.Machine

open Host (Outcome)

/-! ### Tags (R43, R45, R46) -/

def tagRaw : Tag := 0#6
def tagS32 : Tag := 1#6
def tagN32 : Tag := 2#6
def tagF32 : Tag := 3#6
def tagF16 : Tag := 4#6
def tagBf16 : Tag := 5#6
def tagPred : Tag := 10#6
def tagA64L : Tag := 11#6
def tagA64H : Tag := 12#6
def tagI64L : Tag := 13#6
def tagI64H : Tag := 14#6
def tagP6s : Tag := 15#6

/-- The tag of a TY code of one register (R43, R49). -/
def tyTag (ty : Nat) : Tag :=
  match ty with
  | 0 => tagS32
  | 1 => tagN32
  | 4 => tagF32
  | n => BitVec.ofNat 6 (n - 1)

/-- What a source expects: any tag, or one (R45). -/
inductive Expect where
  | any
  | tag (t : Tag)
  deriving DecidableEq, Repr

/-- Whether a register's tag is taken without a mismatch (R45). -/
def accepts (e t : Tag) : Bool :=
  t == e || t == tagRaw || (e == tagS32 && t == tagN32) || (e == tagN32 && t == tagS32)
    || (e == tagI64L && t == tagA64L) || (e == tagA64L && t == tagI64L)
    || (e == tagI64H && t == tagA64H) || (e == tagA64H && t == tagI64H)

/-- An element of 16 bits with n fraction bits as FP32, exactly: a NaN keeps its sign and payload, so that a signalling one is signalling
to its reader (R46, R154). -/
def widen16 (fmt : Fmt) (n : Nat) (w : Nat) : Word :=
  match fmt.decode w with
  | .nan _ => BitVec.ofNat 32 (w / 2 ^ 15 * 2 ^ 31 + 0x7F800000 + w % 2 ^ n * 2 ^ (23 - n))
  | x => BitVec.ofNat 32 (fmtF32.conv .rne false x).1

/-- The conversion of R46 of one lane under TCONV = 0, for a pairing that is a mismatch. -/
def convertLane (ftz : Bool) (e t : Tag) (w : Word) : Word × Word :=
  if e = tagF32 ∧ t = tagS32 then let r := fmtF32.conv .rne false (.ofInt w.toInt); (BitVec.ofNat 32 r.1, 0#32)
  else if e = tagF32 ∧ t = tagN32 then let r := fmtF32.conv .rne false (.ofInt w.toNat); (BitVec.ofNat 32 r.1, 0#32)
  else if (e = tagS32 ∨ e = tagN32) ∧ t = tagF32 then
    let r := convToInt 32 (e == tagS32) .rne (in32 ftz w)
    (BitVec.ofInt 32 r.1, r.2)
  else if e = tagF32 ∧ t = tagF16 then
    (widen16 fmtF16 10 (w.toNat % 2 ^ 16), 0#32)
  else if e = tagF32 ∧ t = tagBf16 then
    (widen16 fmtBf16 7 (w.toNat % 2 ^ 16), 0#32)
  else (w, 0#32)

/-- Whether a mismatch is read as raw bits and sets TAGX (R46). -/
def setsTagx (e t : Tag) : Bool :=
  !(e == tagF32 && (t == tagS32 || t == tagN32 || t == tagF16 || t == tagBf16))
    && !((e == tagS32 || e == tagN32) && (t == tagF32 || t == tagPred || t == tagA64L || t == tagA64H || t == tagI64L || t == tagI64H))

/-- A register read by a source: none under TCONV = 1 with a mismatch; else the lanes read and the flags of the conversion, NV
and NX from active lanes only (R46), for readers of the integer class too (R137; DEDUCED: notes/assumptions). -/
def readTyped (tconv ftz : Bool) (e : Expect) (r : Reg) (active : Mask) : Option (Lanes × Word) :=
  match e with
  | .any => some (r.lanes, 0#32)
  | .tag t =>
    if accepts t r.tag then some (r.lanes, 0#32)
    else if tconv then none
    else
      let lanes := lanesOf fun l => (convertLane ftz t r.tag (lane r.lanes l)).1
      let flags := (maskLanes active).foldl (fun a l => a ||| (convertLane ftz t r.tag (lane r.lanes l)).2) 0#32
      some (lanes, flags ||| flagIf (setsTagx t r.tag) flagTAGX)

/-! ### Sources (R35-R37, R133, R156) -/

/-- A source: a register with what it expects, the same word in every lane, or a word of a constant window. -/
inductive Src where
  | reg (o : Operand) (e : Expect)
  | word (w : Word)
  | const (k off : Nat)
  deriving DecidableEq, Repr

/-- The words that X supplies to a source of a type: one, or the low and high half of a 64-bit source (R35, R37). -/
def xWords (t : SrcTy) (e : Ext) : List Src :=
  let wide := t == .s64 || t == .n64
  match e with
  | .imm x =>
    match t with
    | .s32 => [.word (x.signExtend 32)]
    | .n32 => [.word (x.setWidth 32)]
    | .s64 => [.word (x.signExtend 32), .word (if x.getLsbD 19 then 0xFFFFFFFF#32 else 0#32)]
    | .n64 => [.word (x.setWidth 32), .word 0#32]
    | .f32 => [.word (x ++ 0#12)]
    | .p16 => [.word (x.setWidth 16 ++ x.setWidth 16)]
    | .p8 => [.word (x.setWidth 8 ++ x.setWidth 8 ++ x.setWidth 8 ++ x.setWidth 8)]
  | .shifted x =>
    match t with
    | .s64 => [.word (x ++ 0#12), .word (if x.getLsbD 19 then 0xFFFFFFFF#32 else 0#32)]
    | .n64 => [.word (x ++ 0#12), .word 0#32]
    | _ => [.word (x ++ 0#12)]
  | .cref k off => if wide then [.const k.toNat off.toNat, .const k.toNat (off.toNat + 1)] else [.const k.toNat off.toNat]
  | _ => []

/-- The register sources of an operand: one for each expectation, in consecutive registers. -/
def regSrcs (o : Operand) (es : List Expect) : List Src := es.zipIdx.map fun p => .reg (operandAdd o p.2) p.1

/-- src of R133 and R156: B under XK 0, X otherwise. -/
def srcB (f : Fields) (t : SrcTy) (es : List Expect) : List Src := if f.ext = .none then regSrcs f.b es else xWords t f.ext

/-- src3 of R133 and R156: the third register, or X. -/
def src3 (f : Fields) (t : SrcTy) (es : List Expect) : List Src :=
  match f.ext with
  | .reg o => regSrcs o es
  | e => xWords t e

/-- What the operands of a TY expect: one register, or the halves of a 64-bit integer (R135). -/
def tyExpect (ty : Nat) : List Expect := if ty = 2 ∨ ty = 3 then [.tag tagI64L, .tag tagI64H] else [.tag (tyTag ty)]

/-- One source read at issue (R29). -/
def State.readSrc (s : State) (v : View) (active : Mask) (x : Src) : Option (Lanes × Word) :=
  match x with
  | .reg o e => readTyped v.fib.tconv v.fib.ftz e (v.reg o) active
  | .word w => some (lanesAll w, 0#32)
  | .const k off => some (lanesAll (s.constWord v.g.core v.team v.fib.sup k off), 0#32)

/-- Every source of a word, with the flags that the reads set; none when one is a mismatch under TCONV = 1. -/
def State.readSrcs (s : State) (v : View) (active : Mask) : List Src → Option (List Lanes × Word)
  | [] => some ([], 0#32)
  | x :: r => match s.readSrc v active x, s.readSrcs v active r with
    | some (l, f), some (ls, g) => some (l :: ls, f ||| g)
    | _, _ => none

/-- The word of a lane of the n-th source. -/
def src (ls : List Lanes) (n : Nat) (l : Fin 32) : Word := lane (ls.getD n (lanesAll 0#32)) l
/-- The 64-bit value of a lane in two sources, low half first. -/
def src64 (ls : List Lanes) (n : Nat) (l : Fin 32) : DWord := src ls (n + 1) l ++ src ls n l

/-! ### The group that acts -/

/-- The group whose turn it is. -/
def State.curView (s : State) : Option View :=
  match s.cur with
  | .group g => s.view g
  | _ => none

/-- What a meaning of a group word begins with: the acting group, the guarded active set, the window check (R33), and the typed
read of its sources (R45, R46). A violation or a mismatch is the fault taken; its LANES are %exm, since neither check looks at
a lane (DESIGN CHOICE: notes/assumptions). -/
def State.withSources (s : State) (i : Instr) (f : Fields) (srcs : List Src)
    (k : View → Mask → List Lanes → Word → Outcome State Fault Refusal) : Outcome State Fault Refusal :=
  match s.curView with
  | none => .fault .noAgent
  | some v =>
    let act := v.active f.guard
    if v.fib.windowsOk (instrNamed i) then
      match s.readSrcs v act srcs with
      | some (ls, fl) => k v act ls fl
      | none => .next (s.faultWord v i causeTag v.fib.exm)
    else .next (s.faultWord v i causeWindow v.fib.exm)

/-! ### Fixed-latency instructions (R32, R44, R106) -/

/-- What a fixed-latency instruction computes: its results in y-queue order, each with its destination operand and the lanes
that take it, and its flags. -/
structure FixedOut where
  regs  : List (Operand × Mask × Reg)
  flags : Word
  deriving DecidableEq, Repr

/-- The result enters flight, and the word issues: ys is what it enters in the y queue. -/
def State.commitYs (s : State) (v : View) (i : Instr) (signal : Option Nat) (latency : Nat) (o : FixedOut) (ys : List (Mask × Reg)) :
    State :=
  let ws := o.regs.map fun r => RegWrite.mk (v.place r.1) r.2.1 r.2.2
  let s := s.modFibre v.g fun b => b.addResult v.core.clock latency ws ys o.flags signal
  s.issue v.g i

/-- As commitYs; the lanes that take a result in its destination take it in y0 (R32). -/
def State.commitFixed (s : State) (v : View) (i : Instr) (signal : Option Nat) (latency : Nat) (o : FixedOut) : State :=
  s.commitYs v i signal latency o (o.regs.map fun r => (r.2.1, r.2.2))

/-- A fixed-latency instruction over its sources. -/
def execFixed (i : Instr) (f : Fields) (latency : Nat) (srcs : List Src) (compute : View → Mask → List Lanes → FixedOut)
    (s : State) : Outcome State Fault Refusal :=
  s.withSources i f srcs fun v act ls fl =>
    let o := compute v act ls
    .next (s.commitFixed v i f.signal latency { o with flags := o.flags ||| fl })

/-- One result for the active lanes, lane by lane, without flags. -/
def outLanes (d : Operand) (act : Mask) (t : Tag) (g : Fin 32 → Word) : FixedOut := ⟨[(d, act, ⟨t, lanesOf g⟩)], 0#32⟩

/-- A 64-bit result in a pair for the active lanes. -/
def outPair (d : Operand) (act : Mask) (tl th : Tag) (g : Fin 32 → DWord) : FixedOut :=
  ⟨[(d, act, ⟨tl, lanesOf fun l => (g l).setWidth 32⟩), (operandAdd d 1, act, ⟨th, lanesOf fun l => (g l).extractLsb' 32 32⟩)], 0#32⟩

/-- One result with flags, each lane giving both; flags come from active lanes only (R155). -/
def outFlags (d : Operand) (act : Mask) (t : Tag) (g : Fin 32 → Word × Word) : FixedOut :=
  ⟨[(d, act, ⟨t, lanesOf fun l => (g l).1⟩)], (maskLanes act).foldl (fun a l => a ||| (g l).2) 0#32⟩

/-! ### The special-function unit (R142, R167) -/

/-- Clocks from acceptance to completion (R167). -/
def sfuClocks (i : Instr) : Nat :=
  match i with
  | .rcp _ => 12
  | .rsq _ => 12
  | .exp2 _ => 12
  | .log2 _ => 12
  | .sin _ => 16
  | .cos _ => 16
  | .tanh _ => 16
  | .sqrt _ => 20
  | .fdiv _ => 24
  | .idiv f => if f.ty = 2 ∨ f.ty = 3 then 36 else 20
  | _ => 20

/-- The unit accepts the first operation of its queue that waits, when 4 clocks have passed since the last; it completes at the end of
its completion clock. -/
def Sub.sfuAcceptNext (x : Sub) (clock : Nat) : Sub :=
  if clock < x.sfuNext then x
  else match x.sfu.find? fun o => o.due.isNone with
    | none => x
    | some o =>
      { x with sfuNext := clock + 4,
               sfu := x.sfu.map fun p => if p.slot = o.slot ∧ p.fib = o.fib ∧ p.id = o.id
                                         then { p with due := some (clock + sfuClocks p.instr) } else p }

/-- An instruction of the special-function unit: its results are those of the sources read at issue (R29); with no active lane it
is not sent and completes in its counter's order (R167). -/
def execSfu (i : Instr) (f : Fields) (srcs : List Src) (compute : View → Mask → List Lanes → FixedOut) (s : State) :
    Outcome State Fault Refusal :=
  s.withSources i f srcs fun v act ls fl =>
    let o := compute v act ls
    let id := v.fib.nextId
    let cf := (f.signal).getD 0
    if act = 0#32 then
      .next ((s.modFibre v.g fun b => b.raiseIdle cf fl).issue v.g i)
    else
      let ws := o.regs.map fun r => RegWrite.mk (v.place r.1) r.2.1 r.2.2
      let s := s.modFibre v.g fun b => b.raise cf
      let op : SfuOp := ⟨v.g.slot, v.g.fib, id, i, v.core.clock, ws, o.flags ||| fl, none⟩
      let s := s.modSub v.g.core v.g.sub fun x => { x with sfu := x.sfu ++ [op] }.sfuAcceptNext v.core.clock
      .next (s.issue v.g i)

/-! ### Operations that a counter tracks (R108, R228) -/

/-- A new operation of the acting group, with everything read at issue. -/
def newOp (v : View) (i : Instr) (act : Mask) (addrs : List DWord) (data : List Lanes) (dest : List Operand) (flags : Word) : Op :=
  { id := v.fib.nextId, instr := i, logSlot := none, handle := v.fib.handle, offset := v.fib.off, prov := v.word.prov,
    issued := v.core.clock, sup := v.fib.sup, active := act, pending := act, held := 0#32, redo := 0#32, addrs := addrs, data := data,
    dest := dest.map v.place, leader := v.leader.val, regions := [], stage := 0, value := 0, walkFaults := [], flags := flags, entry := none }

/-- The operation starts and the word issues: its counter rises, and it waits for its completion. -/
def State.startOp (s : State) (v : View) (i : Instr) (cf : Nat) (o : Op) : State :=
  let s := s.modFibre v.g fun b => { b.raise cf with ops := b.ops ++ [o] }
  s.issue v.g i

/-- The word issues and has nothing to do: its counter rises and falls in its place, with the flags of its reads (R42, R46). -/
def State.startDone (s : State) (v : View) (i : Instr) (cf : Nat) (fl : Word) : State :=
  (s.modFibre v.g fun b => b.raiseIdle cf fl).issue v.g i

/-- A control or system word that changes the fibre at issue: the pc is the change's own unless it is the next word's. -/
def State.issueWith (s : State) (v : View) (i : Instr) (f : Fibre → Fibre) : State := (s.issue v.g i).modFibre v.g f

/-- A register result written at once under a mask, outside the y queue. -/
def State.writeOps (s : State) (g : GroupRef) (dest : List Place) (m : Mask) (rs : List Reg) : State :=
  s.writeRegs g ((dest.zip rs).map fun p => ⟨p.1, m, p.2⟩)

end Sys2Proof.Machine
end

