-- ==== Sys2Proof/Machine/Issue.lean ====
section
/-!
DEFINITION. Which word of a group issues: the fetch, the readiness of a fibre (R102), the pick of a sub-partition (R103, R384), the
bank-read extension (R109), and the change of fibre with which a clock ends (R110).
-/

namespace Sys2Proof.Machine

open Host (Outcome)

/-! ### A group's next word -/

/-- What stands at a group's program counter: an instruction, a word that is none (R54), or the sealed length (R112). -/
inductive Fetched where
  | word (i : Instr)
  | illegal (w : IWord)
  | pastEnd
  deriving DecidableEq, Repr

/-- The word at a fibre's program counter (R112). -/
def Core.fetch (k : Core) (f : Fibre) : Fetched :=
  match k.blocks.find (handleBlock f.handle) with
  | none => .pastEnd
  | some b =>
    if f.off ≥ b.len then .pastEnd
    else
      let w := (k.blockWord b f.off).word
      match decodeGroupWord w with
      | .ok i => .word i
      | .error _ => .illegal w

/-- The hints of a group word. -/
def hintsOf (i : Instr) : Hints :=
  match i with
  | .pair p => p.hints
  | i => match i.groupFields with
    | some (_, f) => f.hints
    | none => ⟨0#3, 0#12, false, 15#4⟩

/-- Whether an instruction takes an operand-log entry (R228, R244). -/
def takesLog (i : Instr) : Bool :=
  match i with
  | .ld _ | .st _ | .lds _ | .sts _ | .ldr _ | .str _ | .atom _ | .atoms _ | .cinv _ | .cwb _
  | .acq _ | .rel _ | .await _ | .awake _ => true
  | _ => false

/-- Whether an instruction queues an operation in the matrix unit (R290). -/
def takesMatrix (i : Instr) : Bool :=
  match i with
  | .mma _ | .mmas _ | .mmag _ | .accz _ | .accld _ | .accst _ | .accq _ | .accadd _ => true
  | _ => false

/-- Whether an instruction queues a copy (R267). -/
def takesCopy (i : Instr) : Bool :=
  match i with
  | .cpy _ | .cpyg _ | .cpym _ | .cpyn _ | .cpyf _ => true
  | _ => false

/-- A counter as an instruction that may issue in a clock sees it: an operation that completes in the present clock shows from the next
clock on (R108). -/
def View.counterIn (v : View) (clock k : Nat) : Nat :=
  v.fib.counter k + if clock ≤ v.core.clock then (v.fib.fell.filter (· == k)).length else 0

/-- Whether every counter is zero as an instruction that may issue in a clock sees it. -/
def View.zeroIn (v : View) (clock : Nat) : Bool := v.fib.countersZero && (decide (v.core.clock < clock) || v.fib.fell.isEmpty)

/-- Whether the threshold of a WAITC with a register holds: that of the leader lane as R46 reads it. A word that takes a fault at its
issue waits for nothing. -/
def View.thresholdMet (v : View) (f : Fields) (clock : Nat) : Bool :=
  !v.fib.windowsOk (instrNamed (.waitcReg f)) || match readTyped v.fib.tconv v.fib.ftz (.tag tagN32) (v.reg f.a) v.fib.exm with
    | none => true
    | some r => decide (v.counterIn clock f.sub.toNat ≤ (lane r.1 v.leader).toNat)

/-- The conditions before issue in a clock that an instruction states for itself (R121, R123, R124, R228, R267, R290, R319, R320,
R327). -/
def View.ownReady (v : View) (i : Instr) (clock : Nat) : Bool :=
  match i with
  | .exit _ => v.zeroIn clock
  | .fbar _ => v.fib.results.isEmpty
  | .waitc f => decide (v.counterIn clock f.sub.toNat ≤ f.imm20.toNat)
  | .waitcReg f => v.thresholdMet f clock
  | .sysc _ => v.zeroIn clock
  | .rets _ => v.zeroIn clock
  | .psave _ => v.zeroIn clock
  | i =>
    (!takesLog i || v.fib.freeLog.isSome)
      && (!takesMatrix i || decide ((v.sub.matrix.filter fun o => o.started.isNone).length < 16))
      && (!takesCopy i || decide (v.core.copies.length < Config.copyQueue))

/-- Whether a fibre may issue at all: not frozen, parked or at a barrier, and its team neither saving nor held (R102, R328,
R334, R338). -/
def View.runs (v : View) : Bool :=
  !v.fib.frozen && v.fib.parked.isNone && v.fib.fbar.isNone && v.team.saving.isNone && !v.team.holdIssue

/-- The hints of a word are met in a clock (R41, R102, R105, R113). -/
def View.hintsMet (v : View) (h : Hints) (clock : Nat) : Bool :=
  decide (v.fib.earliest ≤ clock)
    && (match v.fib.lastIssue with
        | some t => decide (t + max 1 h.dist.toNat ≤ clock)
        | none => true)
    && (List.range 12).all (fun k => !h.wait.getLsbD k || v.counterIn clock k == 0)
    && (decide (h.signal.toNat > 11) || decide (v.counterIn clock h.signal.toNat < 63))

/-- Whether a group is ready in a clock but for the words of constant windows that it needs (R102). A group at a word that it cannot
issue, or at the sealed length, is picked as one at a word without hints, and takes its fault then (DESIGN CHOICE:
notes/assumptions). -/
def View.readyAt (v : View) (clock : Nat) : Bool :=
  v.runs && match v.core.fetch v.fib with
    | .word i => v.hintsMet (hintsOf i) clock && v.ownReady i clock
    | _ => v.hintsMet ⟨0#3, 0#12, false, 15#4⟩ clock

/-- The words of constant windows that an instruction reads before it issues, by window and offset: two for a 64-bit source, which only
the integer class has (R37). -/
def constRefs (i : Instr) : List (Nat × Nat) :=
  match i.shape with
  | some (f, _) => match f.ext, i.groupFields with
    | .cref k off, some (op, _) =>
      if 0x30 ≤ op.toNat ∧ op.toNat ≤ 0x4F ∧ (f.ty = 2 ∨ f.ty = 3) then [(k.toNat, off.toNat), (k.toNat, off.toNat + 1)]
      else [(k.toNat, off.toNat)]
    | _, _ => []
  | none => []

/-- The words of constant windows that the group's next word needs. -/
def View.constRefs (v : View) : List (Nat × Nat) :=
  match v.core.fetch v.fib with
  | .word i => Machine.constRefs i
  | _ => []

/-- Whether every constant word that a group's next instruction needs is present (R37, R102). -/
def State.constsPresent (s : State) (v : View) : Bool :=
  v.constRefs.all fun r => s.constAt v.g.core v.team v.fib.sup r.1 r.2 != .miss

/-- Whether a group is ready in a clock (R102). -/
def State.readyIn (s : State) (v : View) (clock : Nat) : Bool := v.readyAt clock && s.constsPresent v

/-- The fibres of a slot after one, in cyclic order, that one last (R110). -/
def cyclicAfter (n : Nat) : List Nat := (List.range 4).map fun i => (n + 1 + i) % 4

/-- The first fibre after a slot's current one, in cyclic order, that is ready in a clock (R110). -/
def State.nextFibre (s : State) (core sub slot current clock : Nat) : Option Nat :=
  (cyclicAfter current).find? fun i => (s.view ⟨core, sub, slot, i⟩).any fun v => s.readyIn v clock

/-- Whether the group's next word has its switch bit set and did not meet its conditions in a clock in which the group issued nothing. -/
def State.switches (s : State) (v : View) (clock : Nat) : Bool :=
  match v.core.fetch v.fib with
  | .word i => (hintsOf i).switch && v.fib.lastIssue != some clock && !s.readyIn v clock
  | _ => false

/-- The change of fibre of a slot with which its core's present clock ends (R110). A current fibre that waits at a barrier, has exited
or is frozen or parked passes the slot: in the clock of that event to a fibre ready in the next clock, in a later clock to one
that is ready in that clock. A YIELD, and a next word with its switch bit set that is not ready, pass it to one ready in the next
clock. -/
def State.settleSlot (s : State) (core sub slot : Nat) : State :=
  let clock := (s.core core).clock
  let g : GroupRef := ⟨core, sub, slot, 0⟩
  match s.slot? g with
  | none => s
  | some t =>
    let v := s.view { g with fib := t.current }
    let stopped := !v.any View.runs
    let asks := stopped || t.passing || v.any fun v => s.switches v clock
    match if asks then s.nextFibre core sub slot t.current (if stopped && t.stalled then clock else clock + 1) else none with
    | some i => s.modSlot g fun t => { t with current := i, passing := false, stalled := false }
    | none => s.modSlot g fun t => { t with passing := t.passing && !stopped, stalled := stopped }

/-- Every slot of a core but one whose word has been picked and still reads its registers (R109, R110). -/
def State.settleSlots (s : State) (core : Nat) : State :=
  (s.core core).subs.cells.foldl (fun s p =>
    [0, 1, 2, 3].foldl (fun s n => if p.2.pick.map (·.1) = some n then s else s.settleSlot core p.1 n) s) s

/-! ### The pick (R103, R104, R384) -/

/-- The maps that a product reads (R286). -/
def productMaps (i : Instr) : Option (Nat × Nat × Nat) :=
  match i with
  | .mma f | .mmas f | .mmag f => some (f.mp, (f.imm20 >>> 16).toNat, ((f.imm20 >>> 12) &&& 15#20).toNat + 1)
  | _ => none

/-- The numbers that a context owns among a sub-partition's tiles or maps, rising; a program's number n is the n-th of them
(R23, R282). -/
def ownedBy (m : SMap Nat) (ctx : Nat) : List Nat := m.cells.filterMap fun p => if p.2 = ctx then some p.1 else none

/-- The physical tile and map that a program's number names, none beyond what its team holds. -/
def View.tileNum (v : View) (n : Nat) : Option Nat := (ownedBy v.sub.tileOwner v.slot.ctx)[n]?
def View.mapNum (v : View) (n : Nat) : Option Nat := (ownedBy v.sub.mapOwner v.slot.ctx)[n]?

/-- The record of an operand map as it stands (R284). -/
def View.map? (v : View) (n : Nat) : Option OpMap := (v.mapNum n).bind fun p => v.sub.maps.find p

/-- The clocks that the word a group is at occupies its sub-partition before it issues: those of its bank reads (R109), and K/32
more for a product with a permutation table (R307). -/
def View.issueClocks (v : View) : Nat :=
  match v.core.fetch v.fib with
  | .word i =>
    let perm := match productMaps i with
      | some (a, b, k) =>
        if [a, b].any fun n => match v.map? n with
          | some m => m.perm != 0xFFFFFFFF#32
          | none => false
        then k else 0
      | none => 0
    bankClocks i + perm
  | _ => 1

/-- A ready slot as the pick sees it. -/
structure Ready where
  slot : Nat
  wait : Nat
  prio : Nat
  last : Option Nat
  deriving DecidableEq, Repr

/-- The ready slots of a sub-partition in its core's present clock, rising (R102). -/
def State.readySlots (s : State) (core sub : Nat) : List Ready :=
  let clock := (s.core core).clock
  ((s.core core).sub sub).slots.cells.filterMap fun p =>
    match s.view ⟨core, sub, p.1, p.2.current⟩ with
    | some v => if s.readyIn v clock then some ⟨p.1, p.2.wait, v.team.desc.prio, p.2.lastIssue⟩ else none
    | none => none

/-- Whether a slot's last issue is older than another's: one that has not issued is oldest (R103). -/
def olderThan (a b : Option Nat) : Bool :=
  match a, b with
  | none, none => false
  | none, some _ => true
  | some _, none => false
  | some x, some y => decide (x < y)

/-- The pick of R103 among the ready slots, with the priorities below wlevel withheld (R384). -/
def pickSlot (wlevel : Nat) (ready : List Ready) : Option Nat :=
  match ready.find? fun r => decide (60 ≤ r.wait) with
  | some r => some r.slot
  | none =>
    let eligible := ready.filter fun r => decide (wlevel ≤ r.prio)
    let top := eligible.foldl (fun m r => max m r.prio) 0
    let first := eligible.filter fun r => r.prio == top
    (first.foldl (fun best r => match best with
      | none => some r
      | some b => if olderThan r.last b.last then some r else some b) none).map Ready.slot

/-- The wait counts after an issue opportunity (R103). -/
def State.countWaits (s : State) (core sub : Nat) (ready : List Ready) (picked : Option Nat) : State :=
  s.modSub core sub fun x =>
    { x with slots := ⟨x.slots.cells.map fun p =>
        (p.1, { p.2 with wait := if some p.1 ≠ picked ∧ (ready.map Ready.slot).contains p.1 then p.2.wait + 1 else 0 })⟩ }

/-- What a sub-partition does in one clock of its issue port. -/
inductive IssueAct where
  | nothing
  | issue (g : GroupRef)
  deriving DecidableEq, Repr

/-- Whether a sub-partition's issue port has had its turn in its core's present clock, or the clock has only its end left (R103). -/
def Core.portDone (k : Core) (sub : Nat) : Bool := k.closing || (k.sub sub).turnAt == some k.clock

/-- One clock of a sub-partition's issue port, once in each clock: the pick; a picked word whose reads need more clocks issues in the
last of them (R109) unless its fibre has stopped; no slot issues in a rail-switch pause (R386). -/
def State.issueClock (s : State) (core sub : Nat) : State × IssueAct :=
  let k := s.core core
  let x := k.sub sub
  if k.portDone sub then (s, .nothing)
  else
  let s := s.modSub core sub fun x => { x with turnAt := some k.clock }
  if k.power.switching.isSome then (s, .nothing)
  else match x.pick with
    | some (slot, fib) =>
      if k.clock < x.busyUntil then (s, .nothing)
      else
        let g : GroupRef := ⟨core, sub, slot, fib⟩
        (s.modSub core sub fun x => { x with pick := none }, if (s.view g).any View.runs then .issue g else .nothing)
    | none =>
      let ready := s.readySlots core sub
      let picked := pickSlot k.power.wlevel ready
      let s := s.countWaits core sub ready picked
      match picked with
      | none => (s, .nothing)
      | some n =>
        let g : GroupRef := ⟨core, sub, n, ((x.slots.find n).map Slot.current).getD 0⟩
        let m := match s.view g with
          | some v => v.issueClocks
          | none => 1
        if m ≤ 1 then (s, .issue g)
        else (s.modSub core sub fun x => { x with pick := some (n, g.fib), busyUntil := k.clock + m - 1 }, .nothing)

/-- The fault of a word that a group cannot issue: stale at the sealed length (R112), illegal for a word that is none (R54). -/
def State.fetchFault (s : State) (v : View) : Fetched → State
  | .pastEnd => s.takeFaultS v (v.faultAt causeStale 0#8 0#8 v.fib.exm v.leader.val)
  | .illegal w => s.takeFaultS v (v.faultAt causeIllegal (w.extractLsb' 88 8) (w.extractLsb' 80 8) v.fib.exm v.leader.val)
  | .word _ => s

end Sys2Proof.Machine
end

