-- ==== Sys2Proof/Machine/Teams.lean ====
section
/-!
DEFINITION. The life of groups and teams: starting groups in a team's reserved slots (R91, R119, R315), the fibre, team and
cluster barriers as membership changes (R123, R250), a group's leaving (R121, R338), the release and reclaim of blocks (R78,
R82), and a team's retirement (R23, R94).
-/

namespace Sys2Proof.Machine

/-! ### Fresh numbers -/

/-- A number that no earlier step has drawn, and the state after. -/
def State.fresh (s : State) : Nat × State := (s.freeCtr, { s with freeCtr := s.freeCtr + 1 })

/-- A value that the specification does not state, drawn afresh: 64 bits. -/
def State.freeDWord (s : State) : DWord × State :=
  let a := s.fresh
  let b := a.2.fresh
  (Config.freeWord a.1 ++ Config.freeWord b.1, b.2)

/-! ### Starting groups (R91, R119) -/

/-- A group as it starts: program counter at a word of a block, every lane in the mask, counters zero, %gst zero but for the
block's privilege (R91, R119). -/
def Fibre.start (grp : Nat) (handle : BitVec 12) (off : Nat) (sup : Bool) (windows : List Window) (ofile : SMap Reg)
    (earliest : Nat) : Fibre :=
  { grp := grp, handle := handle, off := off, exm := 0xFFFFFFFF#32, gst := withMode 0#32 sup, windows := windows,
    ofile := ofile, y0 := .zero, y1 := .zero, srseed := lanesOf fun l => BitVec.ofNat 32 (l.val + 1), outstanding := [], fell := [], nextId := 1, results := [],
    ops := [], lastIssue := none, earliest := earliest, frozen := false, parked := none, fbar := none, sysc := none,
    barGen := .empty, cbarGen := .empty, aborting := false, kept := [] }

/-- o0 and o1 of a group that starts, tag RAW (R91, R119). -/
def startFile (o0 o1 : Word) : SMap Reg := ⟨[(0, ⟨tagRawOf, lanesAll o0⟩), (1, ⟨tagRawOf, lanesAll o1⟩)]⟩
where
  /-- RAW (R43). -/
  tagRawOf : Tag := 0#6

/-- A slot with an allocation reserved for a context, with no fibre. -/
def Slot.fresh (ctx : Nat) (units : List Nat) : Slot :=
  { ctx := ctx, units := units, fibres := .empty, current := 0, wait := 0, lastIssue := none, arrived := .empty, passing := false,
    stalled := false }

/-- A slot as it is before a fibre set starts in it. -/
def Slot.vacant (t : Slot) : Slot :=
  { t with current := 0, wait := 0, lastIssue := none, arrived := .empty, passing := false, stalled := false }

/-- The free slots of a team's reservation, in the order of R91. -/
def Core.freeSlots (k : Core) (ctx : Nat) : List (Nat × Nat) :=
  k.subs.cells.flatMap fun p => p.2.slots.cells.filterMap fun q =>
    if q.2.ctx = ctx ∧ q.2.fibres.cells.isEmpty then some (p.1, q.1) else none

/-- The %grp numbers of a team's live groups: started, and neither exited nor aborted (R128, R250). -/
def Core.liveGrps (c : Nat) (k : Core) (ctx : Nat) : List Nat :=
  ((k.teamGroups c ctx).filter fun p => !p.2.2.aborting).map fun p => p.2.2.grp

/-- The lowest group number that no live group of the team holds (R128). -/
def Core.nextGrp (c : Nat) (k : Core) (ctx : Nat) : Nat :=
  ((List.range 256).find? fun n => !(k.liveGrps c ctx).contains n).getD 0

/-- One fibre set started in a free slot: n groups were started before it, and it may start up to want in all. -/
def State.startSet (s : State) (core ctx : Nat) (e : EntryDesc) (want : Nat) (file : Nat → SMap Reg) (earliest : Nat)
    (acc : Nat) (place : Nat × Nat) : State × Nat :=
  let sup := ((s.core core).blocks.find (handleBlock e.handle)).any Block.sup
  let s := s.modSub core place.1 fun x => x.modSlot place.2 Slot.vacant
  (List.range (min e.fibres (want - acc))).foldl (fun (p : State × Nat) f =>
    let k := p.1.core core
    let b := Fibre.start (k.nextGrp core ctx) e.handle (e.offs.getD f 0) sup (e.windows.getD f []) (file p.2) earliest
    (p.1.modSub core place.1 fun x => x.modSlot place.2 fun t => { t with fibres := t.fibres.set f b }, p.2 + 1)) (s, acc)

/-- Up to a number of groups of a team started at an entry, within its shape and its reserved slots: the state and how many
started (R91, R119, R315). -/
def State.startGroups (s : State) (core ctx : Nat) (e : EntryDesc) (want : Nat) (file : Nat → SMap Reg) (earliest : Nat) :
    State × Nat :=
  match s.team? core ctx with
  | none => (s, 0)
  | some t =>
    let k := s.core core
    let want := min want (t.desc.maxgrp - (k.liveGrps core ctx).length)
    (k.freeSlots ctx).foldl (fun p place =>
      if p.2 < want then p.1.startSet core ctx e want file earliest p.2 place else p) (s, 0)

/-! ### The entry table (R92) -/

/-- The entry table as a SPAWN that issues in a clock sees it: a change is seen after the clock in which it completes. -/
def Team.settleEntries (t : Team) (clock : Nat) : Team :=
  let due := t.entryNext.filter fun c => decide (c.1 < clock)
  { t with
    entries := due.foldl (fun m c => match c.2.2 with
      | some e => m.set c.2.1 e
      | none => m.erase c.2.1) t.entries
    entryNext := t.entryNext.filter fun c => !decide (c.1 < clock) }

/-- Whether an entry of a team, or a change of one in flight, references a block (R78). A GSTART or SPAWN in flight does not (DESIGN
CHOICE: notes/assumptions). -/
def Team.references (t : Team) (n : Nat) : Bool :=
  t.entries.vals.any (fun e => handleBlock e.handle == n)
    || t.entryNext.any fun c => (c.2.2.map fun e => handleBlock e.handle) == some n

/-! ### Fibre barriers (R123) -/

/-- Every fibre barrier of a slot whose need is met releases its fibres: a fibre that has exited, or that does not exist, counts
as arrived. -/
def Slot.settleFbar (t : Slot) : Slot :=
  [0, 1, 2, 3].foldl (fun (t : Slot) n =>
    let waiting := t.fibres.cells.filterMap fun p => match p.2.fbar with
      | some (m, mask) => if m = n ∧ ¬ p.2.aborting then some mask else none
      | none => none
    let need := waiting.foldl (· ||| ·) 0#4
    let got := t.arrived.get n 0#4
    let met := [0, 1, 2, 3].all fun f =>
      !need.getLsbD f || got.getLsbD f || (match t.fibres.find f with
        | some b => b.aborting
        | none => true)
    if waiting.isEmpty || !met then t
    else
      { t with
        arrived := t.arrived.set n 0#4
        fibres := t.fibres.mapVals fun _ b => if (b.fbar.map (·.1)) = some n then { b with fbar := none } else b }) t

/-! ### Team and cluster barriers (R250, R251) -/

/-- A barrier whose arrived set contains the expected set completes its phase. -/
def Barrier.settle (b : Barrier) (live : List Nat) : Barrier :=
  if b.arrived.isEmpty || !(live.all fun g => b.arrived.contains g) then b else ⟨b.gen + 1#32, []⟩

/-- Every team barrier of a team tested for completion. -/
def State.settleBars (s : State) (core ctx : Nat) : State :=
  let live := (s.core core).liveGrps core ctx
  s.modTeam core ctx fun t => { t with bars := t.bars.mapVals fun _ b => b.settle live }

/-- The teams of a cluster, each with its core and context (R129). -/
def State.clusterTeams (s : State) (t : Team) : List (Nat × Nat × Team) :=
  match t.cluster with
  | none => []
  | some (id, _) => s.cores.cells.flatMap fun p => p.2.teams.cells.filterMap fun q =>
      if (q.2.cluster.map (·.1)) = some id then some (p.1, q.1, q.2) else none

/-- The teams that share a team's cluster barriers: its cluster's, or itself alone. -/
def State.cbarTeams (s : State) (core ctx : Nat) : List (Nat × Nat × Team) :=
  match s.team? core ctx with
  | none => []
  | some t => if t.cluster.isNone then [(core, ctx, t)] else s.clusterTeams t

/-- What is kept of a team's cluster. -/
def State.clusterOf (s : State) (t : Team) : Cluster :=
  match t.cluster with
  | some (id, _) => s.clusters.get id .empty
  | none => .empty

def State.modCluster (s : State) (t : Team) (f : Cluster → Cluster) : State :=
  match t.cluster with
  | some (id, _) => { s with clusters := s.clusters.set id (f (s.clusters.get id .empty)) }
  | none => s

/-- Where the team of a cluster rank is (R205): on a core, in an image or on its way, or retired, as a rank beyond the cluster counts. -/
inductive Member where
  | here (core ctx : Nat) (t : Team)
  | away
  | gone
  deriving DecidableEq, Repr

def State.member (s : State) (core ctx rank : Nat) : Member :=
  match (s.cbarTeams core ctx).find? fun m => m.2.2.clrank == rank with
  | some m => .here m.1 m.2.1 m.2.2
  | none => match (s.team? core ctx).bind fun t => t.cluster.map fun c => (t, c.2) with
    | some (t, size) => if rank < size ∧ (s.clusterOf t).retired.contains rank = false then .away else .gone
    | none => .gone

/-- Whether a group that an image holds is live still: the teams of a cluster's images with live groups are not resident, and none of
their groups can arrive (R250). -/
def State.awaitsSaved (s : State) (core ctx : Nat) : Bool :=
  (s.team? core ctx).any fun t => (s.clusterOf t).saved.vals.any fun l => !l.isEmpty

/-- A cluster barrier tested for completion: it completes when every live group of every member team has arrived, those of a team that
an image holds among them, and every core of the cluster then performs the acquire action once (R250, R251). -/
def State.settleCbar (s : State) (core ctx n : Nat) : State :=
  let ms := s.cbarTeams core ctx
  let bar (t : Team) : Barrier := t.cbars.get n ⟨0#32, []⟩
  let arrived := ms.any fun m => !(bar m.2.2).arrived.isEmpty
  let all_ := ms.all fun m => ((s.core m.1).liveGrps m.1 m.2.1).all fun g => (bar m.2.2).arrived.contains g
  if arrived && all_ && !s.awaitsSaved core ctx then
    let s := (ms.map (·.1)).dedup.foldl (fun s c => s.acquireCache c) s
    ms.foldl (fun s m => s.modTeam m.1 m.2.1 fun t => { t with cbars := t.cbars.set n ⟨(bar t).gen + 1#32, []⟩ }) s
  else s

/-- Every cluster barrier that concerns a team tested for completion. -/
def State.settleCbars (s : State) (core ctx : Nat) : State :=
  (List.range 16).foldl (fun s n => s.settleCbar core ctx n) s

/-- A group leaves every expected set (R250): the phases that waited on it alone complete, and it leaves the arrived sets. -/
def State.leaveBarriers (s : State) (core ctx grp : Nat) : State :=
  let s := (s.settleBars core ctx).settleCbars core ctx
  let drop (b : Barrier) : Barrier := { b with arrived := b.arrived.filter (· ≠ grp) }
  s.modTeam core ctx fun t =>
    { t with bars := t.bars.mapVals fun _ b => drop b, cbars := t.cbars.mapVals fun _ b => drop b }

/-! ### Blocks (R78, R82) -/

/-- A block is released: its registration goes at once (R82). -/
def Core.release (k : Core) (n : Nat) : Core :=
  match k.blocks.find n with
  | some b => { k with blocks := k.blocks.set n { b with st := .released, key := 0#64 } }
  | none => k

/-- Whether a block is idle (R78). -/
def Core.blockIdle (c : Nat) (k : Core) (n : Nat) : Bool := k.noPc c n && k.teams.vals.all fun t => !t.references n

/-- The reclaim of an idle released block: its generation increases, and its number and granules are free. -/
def Core.reclaim (k : Core) (n : Nat) : Core :=
  { k with blocks := k.blocks.erase n, blockGen := k.blockGen.set n (k.gen n + 1#4) }

/-- The blocks that a team's retirement releases: user blocks, unkeyed if its context sealed them, keyed if it is the last
resident team of their ownership (R82). -/
def Core.retiredBlocks (k : Core) (ctx : Nat) (t : Team) : List Nat :=
  let others := k.teams.cells.any fun p => p.1 != ctx && p.2.owner == t.owner && p.2.gen.sup == t.gen.sup
  k.blocks.cells.filterMap fun p =>
    let b := p.2
    if b.st = .sealed ∧ ¬ b.sup ∧ ((b.key = 0#64 ∧ b.sealer = ctx)
        ∨ (b.key ≠ 0#64 ∧ b.owner = t.owner ∧ b.sup = t.gen.sup ∧ ¬ others)) then some p.1 else none

/-! ### Retirement (R23, R94) -/

/-- A sub-partition without what a context held in it. -/
def Sub.freeCtx (x : Sub) (ctx : Nat) : Sub :=
  { x with
    slots := x.slots.keep fun _ t => t.ctx != ctx
    tileOwner := x.tileOwner.keep fun _ c => c != ctx
    mapOwner := x.mapOwner.keep fun _ c => c != ctx
    maps := x.maps.mapVals fun n m => if x.mapOwner.find n = some ctx then { m with reserved := false } else m }

/-- A team's slots, registers, scratchpad, tiles, maps and context return to the core's free pool (R23). -/
def Core.freeTeam (k : Core) (ctx : Nat) : Core :=
  match k.teams.find ctx with
  | none => k
  | some t =>
    let k := (k.retiredBlocks ctx t).foldl Core.release k
    { k with
      teams := k.teams.erase ctx
      subs := k.subs.mapVals fun _ x => x.freeCtx ctx
      granules := k.granules.mapVals fun _ q => if q.ctx = some ctx then { q with ctx := none } else q }

/-- Whether a team has no more to do: its context and every group have ended, and nothing of it is in flight: no result of a group that
has left, no copy and no matrix operation. -/
def Core.teamDone (c : Nat) (k : Core) (ctx : Nat) : Bool :=
  match k.teams.find ctx with
  | none => false
  | some t => t.gen.run == .exited && t.saving.isNone && (k.teamGroups c ctx).isEmpty
      && k.copies.all (fun o => o.ctx != ctx)
      && k.subs.vals.all fun x => x.late.all (fun r => r.ctx != ctx) && x.matrix.all fun o => o.ctx != ctx

/-- The team retires when it is done. -/
def State.retireIfDone (s : State) (core ctx : Nat) : State :=
  if (s.core core).teamDone core ctx then
    let s := match s.team? core ctx with
      | some t => s.modCluster t fun c => { c with retired := t.clrank :: c.retired }
      | none => s
    s.modCore core fun k => k.freeTeam ctx
  else s

/-! ### A group's leaving (R121, R338) -/

/-- What waits for a group elsewhere is withdrawn: its rendezvous entries (R259) and its cell requests. -/
def State.withdraw (s : State) (a : Agent) : State :=
  { s with
    slices := s.slices.mapVals fun _ x => { x with rendezvous := x.rendezvous.filter fun w => w.agent != a }
    cells := s.cells.mapVals fun _ l => l.filter fun r => r.agent != a }

/-- A fibre leaves its slot; the slot is free for its team when the last has left (R100). -/
def Slot.leave (t : Slot) (fib : Nat) : Slot :=
  let fs := t.fibres.erase fib
  if fs.cells.isEmpty then { t with fibres := fs }.vacant
  else { t with fibres := fs }.settleFbar

/-- A context that yields becomes ready early when a group of its team exits (R93). -/
def Team.wakeYield (t : Team) (clock : Nat) : Team :=
  match t.gen.run with
  | .yielding u => { t with gen := { t.gen with run := .yielding (min u clock) } }
  | _ => t

/-- A group retires: its results in flight still land in the bank, its fibre leaves the slot, it leaves every expected set, and its team retires when it was the last. -/
def State.removeGroup (s : State) (g : GroupRef) : State :=
  match s.view g with
  | none => s
  | some v =>
    let ctx := v.slot.ctx
    let clock := v.core.clock
    let s := s.modSub g.core g.sub fun x =>
      { x with late := x.late ++ v.fib.results.map fun r => ⟨g.slot, g.fib, ctx, r.issued, r.due, r.writes⟩ }
    let s := s.modSub g.core g.sub fun x => x.modSlot g.slot fun t => t.leave g.fib
    let s := if v.fib.aborting then s else s.leaveBarriers g.core ctx v.fib.grp
    let s := s.modTeam g.core ctx fun t => t.wakeYield clock
    s.retireIfDone g.core ctx

/-- The oldest result of the groups that have left a place lands, and the team retires when that was its last (R106, R121). -/
def State.landLate (s : State) (g : GroupRef) (r : Late) : State :=
  (s.modSub g.core g.sub fun x => x.landLate r).retireIfDone g.core r.ctx

/-- An aborted group leaves when everything it has in flight has completed (R338). -/
def State.settleAborted (s : State) (g : GroupRef) : State :=
  match s.fibre? g with
  | some f => if f.aborting && f.outstanding.isEmpty && f.results.isEmpty then s.removeGroup g else s
  | none => s

/-- Whether an operation of an aborted group is discarded and not completed: a wait, or an access with only held lanes left. -/
def Op.discarded (o : Op) : Bool :=
  match o.instr with
  | .bar _ | .cbar _ | .await _ | .acq _ => true
  | _ => o.held != 0#32 && (o.pending &&& ~~~o.held) == 0#32

/-- The operations that a team's groups have queued in a sub-partition's matrix unit and that have not started are discarded, and
their counters fall (R300). -/
def State.discardMatrix (s : State) (core sub ctx : Nat) : State :=
  let gone := ((s.core core).sub sub).matrix.filter fun o => o.ctx == ctx && o.started.isNone
  let s := s.modSub core sub fun x => { x with matrix := x.matrix.filter fun o => !(o.ctx == ctx && o.started.isNone) }
  gone.foldl (fun s o => s.modFibre ⟨core, sub, o.slot, o.fib⟩ fun f => f.complete o.id) s

/-- Whether every group of a team that is left on a sub-partition is leaving. -/
def Core.noneLeft (c : Nat) (k : Core) (sub ctx : Nat) : Bool :=
  (k.teamGroups c ctx).all fun p => p.1.sub != sub || p.2.2.aborting

/-- A group is made to exit (ABORT-GROUP, KILL-TEAM): held lanes are discarded, it leaves every barrier's expected set at once and
its system call ends; operations in flight complete first (R338). -/
def State.abort (s : State) (g : GroupRef) : State :=
  match s.view g with
  | none => s
  | some v =>
    if v.fib.aborting then s
    else
      let s := s.withdraw (.group g)
      let gone := v.fib.ops.filter Op.discarded
      let s := s.modFibre g fun f =>
        gone.foldl (fun (f : Fibre) o => f.finishOp o.id)
          { f with aborting := true, frozen := true, fbar := none, parked := none, sysc := none }
      let s := s.modFibre g fun f => { f with ops := f.ops.map fun o => { o with pending := o.pending &&& ~~~o.held, held := 0#32 } }
      let s := s.modSlot g Slot.settleFbar
      let s := s.leaveBarriers g.core v.slot.ctx v.fib.grp
      let s := s.modTeam g.core v.slot.ctx fun t => t.wakeYield v.core.clock
      let s := s.modSlice (sliceOf g.core) fun x =>
        { x with fault := { x.fault with live := x.fault.live.filter fun r => r.agent != .group g } }
      let s := if (s.core g.core).noneLeft g.core g.sub v.slot.ctx then s.discardMatrix g.core g.sub v.slot.ctx else s
      ((s.core g.core).teamGroups g.core v.slot.ctx).foldl (fun s p => s.settleAborted p.1) s

end Sys2Proof.Machine
end

