-- ==== Sys2Proof/Machine/Control.lean ====
section
/-!
DEFINITION. The meanings of the group-control instructions (R111-R125): transfers, LOOP, MASK, SPAWN with its completion,
EXIT, YIELD, FBAR and WAITC.
-/

namespace Sys2Proof.Machine

open Host (Outcome)

/-! ### Transfers (R38, R112, R113) -/

/-- The fibre at the target of a taken transfer, in its branch bubble (R113). -/
def Fibre.jump (f : Fibre) (h : BitVec 12) (off clock : Nat) : Fibre := { f with handle := h, off := off, earliest := clock }

/-- The word that a relative target names, when it lies in the sealed length of the current block (R38). -/
def View.relTarget (v : View) (x : BitVec 20) : Option Nat :=
  let t : Int := (v.fib.off : Int) + x.toInt
  let len := ((v.core.blocks.find (handleBlock v.fib.handle)).map Block.len).getD 0
  if 0 ≤ t ∧ t < len then some t.toNat else none

/-- The relative offset of a word. -/
def relOff (f : Fields) : BitVec 20 :=
  match f.ext with
  | .rel x => x
  | _ => 0#20

/-- A target resolved before the word issues: the new program counter with its bubble, or the fault's cause. -/
def View.relGoal (v : View) (x : BitVec 20) : Except Byte (BitVec 12 × Nat × Nat) :=
  match v.relTarget x with
  | some off => .ok (v.fib.handle, off, 2)
  | none => .error causeStale
/-- The same for a code address, checked by R112. -/
def View.codeGoal (v : View) (addr : Word) (offset : Nat) : Except Byte (BitVec 12 × Nat × Nat) :=
  match v.core.checkTarget v.team.owner v.fib.sup addr offset with
  | .ok (h, off) => .ok (h, off, 3)
  | .error c => .error c

/-- A word that transfers: its target is checked first (a fault stops it with nothing written), its own effect is done, and the
program counter moves. -/
def State.transfer (s : State) (v : View) (i : Instr) (goal : Except Byte (BitVec 12 × Nat × Nat)) (own : State → State) : State :=
  match goal with
  | .error c => s.faultTransfer v i c
  | .ok (h, off, bubble) => (own s).modFibre v.g fun b => b.jump h off (v.core.clock + bubble)

/-- The word issues with the flags of its reads and no other effect. -/
def State.issueFlags (s : State) (v : View) (i : Instr) (fl : Word) : State :=
  s.issueWith v i fun b => { b with gst := b.gst ||| fl }

/-- Every lane. -/
def fullMask : Mask := 0xFFFFFFFF#32

/-- A result written to every lane of D whatever the mask. -/
def outAll (d : Operand) (t : Tag) (w : Word) (fl : Word) : FixedOut := ⟨[(d, fullMask, ⟨t, lanesAll w⟩)], fl⟩

/-! ### The meanings -/

/-- NOP (R122). -/
def execNop (f : Fields) (s : State) : Outcome State Fault Refusal :=
  s.withSources (.nop f) f [] fun v _ _ fl => .next (s.issueFlags v (.nop f) fl)

/-- BRA (R114). -/
def execBra (f : Fields) (s : State) : Outcome State Fault Refusal :=
  s.withSources (.bra f) f [] fun v _ _ fl =>
    .next (s.transfer v (.bra f) (v.relGoal (relOff f)) fun s => s.issueFlags v (.bra f) fl)

/-- Whether a BRC is taken: its condition on the guarded active set (R114, R125). -/
def brcTaken (sub : BitVec 8) (exm act : Mask) : Bool :=
  if sub = 0#8 then act != 0#32 else if sub = 1#8 then act == exm else act == 0#32

/-- BRC (R114). -/
def execBrc (f : Fields) (s : State) : Outcome State Fault Refusal :=
  s.withSources (.brc f) f [] fun v act _ fl =>
    if brcTaken f.sub v.fib.exm act then
      .next (s.transfer v (.brc f) (v.relGoal (relOff f)) fun s => s.issueFlags v (.brc f) fl)
    else .next (s.issueFlags v (.brc f) fl)

/-- BRX (R115): the offset is 0 under kind 0 and imm20 under kind 2. -/
def execBrx (f : Fields) (s : State) : Outcome State Fault Refusal :=
  s.withSources (.brx f) f [.reg f.a (.tag tagN32)] fun v _ ls fl =>
    .next (s.transfer v (.brx f) (v.codeGoal (src ls 0 v.leader) f.imm20.toNat) fun s => s.issueFlags v (.brx f) fl)

/-- CALL to a label (R116). -/
def execCall (f : Fields) (s : State) : Outcome State Fault Refusal :=
  s.withSources (.call f) f [] fun v _ _ fl =>
    .next (s.transfer v (.call f) (v.relGoal (relOff f)) fun s =>
      s.commitFixed v (.call f) f.signal 4 (outAll f.d tagN32 (codeAddress v.fib.handle (v.fib.off + 1)) fl))

/-- CALL through a register (R116): the target is read before the link is written. -/
def execCallReg (f : Fields) (s : State) : Outcome State Fault Refusal :=
  s.withSources (.callReg f) f [.reg f.a (.tag tagN32)] fun v _ ls fl =>
    .next (s.transfer v (.callReg f) (v.codeGoal (src ls 0 v.leader) 0) fun s =>
      s.commitFixed v (.callReg f) f.signal 4 (outAll f.d tagN32 (codeAddress v.fib.handle (v.fib.off + 1)) fl))

/-- RET (R116). -/
def execRet (f : Fields) (s : State) : Outcome State Fault Refusal :=
  s.withSources (.ret f) f [.reg f.a (.tag tagN32)] fun v _ ls fl =>
    .next (s.transfer v (.ret f) (v.codeGoal (src ls 0 v.leader) 0) fun s => s.issueFlags v (.ret f) fl)

/-- LOOP (R117). -/
def execLoop (f : Fields) (s : State) : Outcome State Fault Refusal :=
  s.withSources (.loop f) f [.reg f.d (.tag tagN32)] fun v _ ls fl =>
    let c := src ls 0 v.leader - 1#32
    let own (s : State) : State := s.commitFixed v (.loop f) f.signal 4 (outAll f.d tagN32 c fl)
    if c ≠ 0#32 then .next (s.transfer v (.loop f) (v.relGoal (relOff f)) own) else .next (own s)

/-- The lanes of P in R118: the source is nonzero and the guard passes, over all 32 lanes. -/
def View.maskP (v : View) (g : Guard) (a : Lanes) : Mask := maskOf fun l => lane a l != 0#32 && v.guardLane g l

/-- The new mask of R118. -/
def maskNew (sub : BitVec 8) (old p : Mask) (restored : Word) : Mask :=
  match sub.toNat with
  | 0 => old
  | 1 => p
  | 2 => old &&& p
  | 3 => old &&& ~~~p
  | 4 => old ||| p
  | _ => restored

/-- MASK (R118). -/
def execMask (f : Fields) (s : State) : Outcome State Fault Refusal :=
  let srcs := if f.sub = 0#8 then [] else [.reg f.a (.tag (if f.sub = 5#8 then tagN32 else tagPred))]
  s.withSources (.mask f) f srcs fun v _ ls fl =>
    let new := maskNew f.sub v.fib.exm (v.maskP f.guard (ls.getD 0 (lanesAll 0#32))) (src ls 0 v.leader)
    let s := s.commitFixed v (.mask f) f.signal 4 (outAll f.d tagN32 v.fib.exm fl)
    .next (s.modFibre v.g fun b => { b with exm := new })

/-- SPAWN (R119): the request is in flight; it holds the entry of the team's table as its issue finds it. -/
def execSpawn (f : Fields) (s : State) : Outcome State Fault Refusal :=
  s.withSources (.spawn f) f [.reg f.a (.tag tagN32), .reg f.b (.tag tagN32)] fun v act ls fl =>
    let t := v.team.settleEntries v.core.clock
    let o := newOp v (.spawn f) act [] ls [f.d] fl
    .next (s.startOp v (.spawn f) ((f.signal).getD 0) { o with entry := t.entries.find f.imm20.toNat })

/-- How many groups a SPAWN starts, and the state after. -/
def State.spawnGroups (s : State) (core ctx : Nat) (o : Op) : State × Nat :=
  let l := lowestLane o.active
  let q := (src o.data 0 l).toNat
  match o.entry with
  | none => (s, 0)
  | some e =>
    if o.active = 0#32 ∨ q = 0 ∨ q > 32 then (s, 0)
    else s.startGroups core ctx e q (fun n => startFile (BitVec.ofNat 32 n) (src o.data 1 l)) ((s.core core).clock + 1)

/-- Where a group stands in the order in which SPAWNs of one clock are served: by sub-partition, slot and fibre (R120). -/
def spawnPlace (g : GroupRef) : Nat := g.sub * 16 + g.slot * 4 + g.fib

/-- The SPAWNs of a core that complete at the end of its present clock, in the order of R120, each with its issue clock and operation:
those whose completion has come (stage 1), and those that have waited 8 clocks. -/
def Core.spawnLandings (c : Nat) (k : Core) : List (Nat × GroupRef × Nat) :=
  (k.groups c).flatMap fun p => p.2.2.ops.filterMap fun o => match o.instr with
    | .spawn _ => if o.stage = 1 ∨ o.issued + 8 ≤ k.clock then some (o.issued, p.1, o.id) else none
    | _ => none
/-- Those SPAWNs, each by its group's operation. -/
def Core.dueSpawns (c : Nat) (k : Core) : List (GroupRef × Nat) := (k.spawnLandings c).map (·.2)

/-- SPAWN_COMPLETE (R119, R120): at the end of a clock the groups are created, D receives their number in every lane and the counter
falls; the new groups may issue from the next clock. It takes at least 4 clocks from the issue, and the end of the eighth clock
completes it (State.closeTurns); within an earlier clock the event says that this clock is the one. SPAWNs of one clock are served in
the order of R120: one that comes before a SPAWN already served in this clock is not served in it, and those that come before this one
are served first. -/
def execSpawnComplete (g : GroupRef) (id : Nat) (s : State) : Outcome State Fault Refusal :=
  match s.view g with
  | none => .next s
  | some v => match v.fib.op? id with
    | none => .next s
    | some o => match o.instr with
      | .spawn _ =>
        let first := (v.core.dueSpawns g.core).filter fun p => decide (spawnPlace p.1 < spawnPlace g)
        let passed := v.core.spawnAt.any fun p => p.1 == v.core.clock && decide (spawnPlace g < p.2)
        if v.core.clock < o.issued + 4 ∨ passed then .next s
        else if !v.core.closing then .next (s.modFibre g fun b => b.modOp id fun p => { p with stage := 1 })
        else if !first.isEmpty then
          .next { s with agenda := first.map (fun p => .event (.spawnComplete p.1 p.2)) ++ [.event (.spawnComplete g id)] ++ s.agenda }
        else
          let s := s.modCore g.core fun k => { k with spawnAt := some (k.clock, spawnPlace g) }
          let (s, n) := s.spawnGroups g.core v.slot.ctx o
          let s := s.writeOps g o.dest fullMask [⟨tagN32, lanesAll (BitVec.ofNat 32 n)⟩]
          let s := s.modFibre g fun b => b.finishWith id o.flags
          .next (s.settleAborted g)
      | _ => .next s

/-- EXIT (R121): held until every counter is zero. -/
def execExit (f : Fields) (s : State) : Outcome State Fault Refusal :=
  s.withSources (.exit f) f [] fun v _ _ _ =>
    if v.fib.countersZero then .next ((s.issue v.g (.exit f)).removeGroup v.g) else .next s

/-- YIELD (R122): the slot passes to the next ready fibre at the end of the clock, or of the first later one in which there is one (R110). -/
def execYield (f : Fields) (s : State) : Outcome State Fault Refusal :=
  s.withSources (.yield f) f [] fun v _ _ fl =>
    .next ((s.issueFlags v (.yield f) fl).modSlot v.g fun t => { t with passing := true })

/-- The bit of a fibre in a fibre mask. -/
def fibreBit (n : Nat) : BitVec 4 := 1#4 <<< n

/-- FBAR (R123): held until every fixed-latency result of the fibre has landed; then the fibre arrives and waits, and the barrier
releases when its need is met. -/
def execFbar (f : Fields) (s : State) : Outcome State Fault Refusal :=
  s.withSources (.fbar f) f [] fun v _ _ _ =>
    if v.fib.results.isEmpty then
      let n := f.sub.toNat
      let own := fibreBit v.g.fib
      let s := s.issueWith v (.fbar f) fun b =>
        { b with fbar := some (n, f.imm20.setWidth 4 ||| own), earliest := v.core.clock + 1 }
      .next (s.modSlot v.g fun t => { t with arrived := t.arrived.set n (t.arrived.get n 0#4 ||| own) }.settleFbar)
    else .next s

/-- WAITC with an immediate threshold (R124): held until the counter is at or below it. -/
def execWaitc (f : Fields) (s : State) : Outcome State Fault Refusal :=
  s.withSources (.waitc f) f [] fun v _ _ fl =>
    if v.fib.counter f.sub.toNat ≤ f.imm20.toNat then .next (s.issueFlags v (.waitc f) fl) else .next s

/-- WAITC with a threshold in the leader lane of A (R124). -/
def execWaitcReg (f : Fields) (s : State) : Outcome State Fault Refusal :=
  s.withSources (.waitcReg f) f [.reg f.a (.tag tagN32)] fun v _ ls fl =>
    if v.fib.counter f.sub.toNat ≤ (src ls 0 v.leader).toNat then .next (s.issueFlags v (.waitcReg f) fl) else .next s

end Sys2Proof.Machine
end

