-- ==== Sys2Proof/Machine/Errors.lean ====
section
/-!
DEFINITION. What ends a team and what is reported of it: KILL-TEAM (R338), error records and the consumers of an error (R406,
R412), the wires of the APLIC (R395), and the launch words that a store or atomic may meet (R253, R254, R313, R314).
-/

namespace Sys2Proof.Machine

/-! ### The wires of an APLIC (R395) -/

/-- A register of an APLIC. -/
def Aplic.reg (a : Aplic) (off : Nat) : Word := a.regs.get off 0#32

/-- The mode of a wired source: 0 inactive, 1 detached, 4 and 5 rising and falling edge, 6 and 7 high and low level. -/
def Aplic.mode (a : Aplic) (src : Nat) : Nat := ((a.reg (4 * src)).extractLsb' 0 3).toNat

/-- The rectified input of a source: whether it is active under its mode. -/
def Aplic.input (a : Aplic) (src : Nat) : Bool := decide (4 ≤ a.mode src) && (a.level.getLsbD src != (a.mode src % 2 == 1))

/-- The physical address of the M-level interrupt file of a hart by its mhartid (R395). -/
def machineFile (hart : Nat) : Nat := 0x00FE000000000000 + 0x01000000 * (hart / 4) + 0x1000 * (hart % 4)

/-- An MSI of a slice's APLIC to a hart by its mhartid; one outside the partition is a violation of cause 4 (R363). -/
def State.aplicMsi (s : State) (slice hart : Nat) (id : BitVec 11) : State :=
  s.sendMsi slice (((s.slice slice).part).getD 0) (BitVec.ofNat 64 (machineFile hart)) (id.setWidth 32)

/-- A pending source that is enabled is sent as the MSI that its target register names, and is pending no more. The register
layout is the AIA's: domaincfg at 0, sourcecfg of source n at 4n, setie at 0x1E00, target of source n at 0x3000 + 4n with the hart in
[31:18] and the identity in [10:0] (PRESUMED: notes/assumptions). -/
def State.forwardWire (s : State) (slice src : Nat) : State :=
  let a := (s.slice slice).aplic
  let t := a.reg (0x3000 + 4 * src)
  if a.pending.getLsbD src && (a.reg 0x1E00).getLsbD src && (a.reg 0).getLsbD 8 then
    let s := s.modSlice slice fun x => { x with aplic := { x.aplic with pending := x.aplic.pending &&& ~~~(1#8 <<< src) } }
    s.aplicMsi slice (t.extractLsb' 18 14).toNat (t.extractLsb' 0 11)
  else s

/-- A wired source of the APLIC takes a level: its rectified input that rises makes it pending, and that of a source that goes by the
level, when it falls, makes it pending no more. -/
def State.wire (s : State) (slice src : Nat) (level : Bool) : State :=
  let a := (s.slice slice).aplic
  let bit : BitVec 8 := 1#8 <<< src
  let b := { a with level := if level then a.level ||| bit else a.level &&& ~~~bit }
  let rises := b.input src && !a.input src
  let falls := decide (6 ≤ a.mode src) && !b.input src
  let pending := if rises then b.pending ||| bit else if falls then b.pending &&& ~~~bit else b.pending
  let s := s.modSlice slice fun x => { x with aplic := { b with pending := pending } }
  if rises then s.forwardWire slice src else s

/-! ### The error summary (R412, R413) -/

/-- ESUM takes a value, and source 7 follows its bits [5:0]. -/
def State.setEsum (s : State) (slice : Nat) (v : BitVec 8) : State :=
  let s := s.modSlice slice fun x => { x with err := { x.err with esum := v } }
  s.wire slice 7 (v.extractLsb' 0 6 != 0#6)

/-- ESUM.SPAREREQ follows what awaits a spare. -/
def State.settleSpareReq (s : State) (slice : Nat) : State :=
  let e := (s.slice slice).err
  let waits := e.waitPch || e.waitHart != 0#4 || e.waitCore != 0#16
  s.setEsum slice (if waits then e.esum ||| 0x40#8 else e.esum &&& ~~~0x40#8)

/-- The bits of ESUM that a record of a cause sets (R413, R418-R426); the owner rule sets OWNERKILL besides when it ends a team. -/
def esumOf (cause : Byte) : BitVec 8 :=
  match cause.toNat with
  | 0x80 => 0x02#8
  | 0x81 => 0x10#8
  | 0x82 => 0x02#8
  | 0x83 => 0x02#8
  | 0x85 => 0x20#8
  | 0x86 => 0x04#8
  | _ => 0#8

/-- Whether a slice's buffer has a place for a record, or the ring takes it at once; else who found the error is held (R337). -/
def State.recordRoom (s : State) (slice : Nat) : Bool :=
  let b := (s.slice slice).fault
  b.waiting.isEmpty && (decide (b.used < 32) || (b.buffer.isEmpty && b.qbase != 0#64))

/-- An error record: INFO 1, FTAG 0, not answered (R412). -/
def State.postError (s : State) (slice : Nat) (r : Rec) : State :=
  let s := s.setEsum slice ((s.slice slice).err.esum ||| esumOf r.cause)
  s.postRecord slice { r with info := true, ftag := 0#16 }

/-- Records 0x84, 0x85, 0x86 and 0x88 that cannot enter the buffer merge at their place of the unit-record store (R337). -/
def State.postUnit (s : State) (slice unit : Nat) (r : Rec) : State :=
  let key := unit * 256 + r.cause.toNat
  let s := s.setEsum slice ((s.slice slice).err.esum ||| esumOf r.cause)
  let r := { r with info := true, ftag := 0#16 }
  if s.recordRoom slice then s.postRecord slice r
  else
    s.modSlice slice fun x =>
      let held := x.fault.waiting
      let merged := if held.any fun u => u.1 == some key then held.map fun u =>
          if u.1 = some key then (u.1, { u.2 with count := u.2.count + 1#32, cyc := x.cyc, detail := r.detail }) else u
        else held ++ [(some key, { r with cyc := x.cyc })]
      { x with fault := { x.fault with waiting := merged } }

/-! ### The end of a context and of a team (R94, R338) -/

/-- A context's own open block is released and its words are lost (R82). -/
def Core.discardOpen (k : Core) (ctx : Nat) : Core :=
  match (k.teams.find ctx).bind fun t => t.gen.opened with
  | none => k
  | some n =>
    let k := k.release n
    let k := { k with blocks := match k.blocks.find n with
      | some b => k.blocks.set n { b with len := 0 }
      | none => k.blocks }
    k.modTeam ctx fun t => { t with gen := { t.gen with opened := none, queue := [] } }

/-- A context ends (R94). -/
def Core.endContext (k : Core) (ctx : Nat) : Core :=
  (k.discardOpen ctx).modTeam ctx fun t => { t with gen := { t.gen with run := .exited } }

/-- GEXIT, and ABORT-GROUP at level G (R94, R96): the context ends, and its team retires when it was the last of it. -/
def State.endGen (s : State) (c : CtxRef) : State :=
  let s := s.withdraw (.ctx c)
  (s.modCore c.core fun k => k.endContext c.ctx).retireIfDone c.core c.ctx

/-- The copies of a team that have not started, and those that a fault holds, are discarded (R277, R338). -/
def State.discardCopies (s : State) (core : Nat) (p : CopyOp → Bool) : State :=
  let gone := (s.core core).copies.filter p
  let s := s.modCore core fun k => { k with copies := k.copies.filter fun o => !p o }
  gone.foldl (fun s o => s.modFibre o.g fun f => f.complete o.opId) s

/-- Whether a fault holds a copy: at acceptance (R270, R276), when it has no part to serve and has not been started, or at a segment
of some part of it. -/
def CopyOp.faulted (o : CopyOp) : Bool := (!o.started && o.streams.isEmpty) || o.streams.any fun x => x.ftag.isSome

/-- A SPAWN in flight of a group that ends starts nothing. -/
def State.discardSpawns (s : State) (g : GroupRef) : State :=
  s.modFibre g fun f => (f.ops.filter fun o => match o.instr with
    | .spawn _ => true
    | _ => false).foldl (fun (f : Fibre) o => f.finishOp o.id) f

/-- KILL-TEAM (R338): every group and the context of the team end; what has not started is discarded, what is in flight completes,
and the team retires when nothing of it is left. -/
def State.killTeam (s : State) (core ctx : Nat) : State :=
  match s.team? core ctx with
  | none => s
  | some t =>
    let s := s.withdraw (.ctx ⟨core, ctx⟩)
    let s := ((t.saving.map Saving.removed).getD []).foldl (fun s o => s.modFibre ⟨core, o.1, o.2.slot, o.2.fib⟩ fun f => f.complete o.2.id) s
    let s := s.modCore core fun k => k.endContext ctx
    let s := s.modTeam core ctx fun t => { t with saving := none, preq := false, deadline := none, holdIssue := false, ended := true }
    let s := s.modSlice (sliceOf core) fun x =>
      { x with fault := { x.fault with live := x.fault.live.filter fun r => r.agent != .ctx ⟨core, ctx⟩ } }
    let s := s.discardCopies core fun o => o.ctx == ctx && (!o.started || o.faulted)
    let s := (s.core core).subs.keys.foldl (fun s i => s.discardMatrix core i ctx) s
    let s := ((s.core core).teamGroups core ctx).foldl (fun s g => (s.discardSpawns g.1).abort g.1) s
    s.retireIfDone core ctx

/-- ABORT-GROUP of a group (R338): its faulted copies lose their rest, and it exits without waiting. -/
def State.abortGroup (s : State) (g : GroupRef) : State :=
  (s.discardCopies g.core fun o => o.g == g && o.faulted).abort g

/-- An operation of a group is done; the group leaves if it was aborted and this was its last. -/
def State.opDone (s : State) (g : GroupRef) (id : Nat) : State :=
  ((s.modFibre g fun f => f.finishOp id).unfreeze g).settleAborted g

/-! ### Consumers of an error (R363, R406) -/

/-- A team as an error record names it. -/
def Team.errorRec (t : Team) (cause : Byte) (place : Word) (pa : Nat) (detail : Nat) : Rec :=
  { Rec.blank with
    cause := cause, place := place, world := t.desc.world, asid := t.asid, launch := BitVec.ofNat 8 t.launch,
    team := BitVec.ofNat 32 t.index, address := BitVec.ofNat 64 pa, detail := BitVec.ofNat 64 detail }

/-- What a group's operation says of itself in a record: its word, log entry and lanes (R419). -/
def Op.inRecord (o : Op) (r : Rec) (lanes : Mask) : Rec :=
  { r with
    op := (opSub o.instr).1, sub := (opSub o.instr).2, prov := o.prov, pc := codeAddress o.handle o.offset,
    lanes := lanes, lane := BitVec.ofNat 8 (lowestLane lanes).val,
    entry := match o.logSlot with
      | some n => BitVec.ofNat 8 n
      | none => 0xFF#8 }

/-- The unit code and bank of the home line that a record 0x81 names (R412): row 0 of R405 and the home bank. -/
def poisonDetail (pa : Nat) : Nat := homeBank pa * 256

/-- DETAIL of a consumer's record on a slice: the home line of poison, the failed link of an error response. -/
def State.consumeDetail (s : State) (slice part : Nat) (cause : Byte) (pa : Nat) : Nat :=
  if cause = 0x81#8 then poisonDetail pa else (s.way slice part pa).detail

/-- Whether a team has ended: its accesses in flight complete, and what they consume ends nothing and writes no record (R412, R425). -/
def State.teamEnded (s : State) (core ctx : Nat) : Bool := ((s.team? core ctx).map Team.ended).getD true

/-- Whether a consumer of an error of a team may complete: its record has a place, or there is none to write (R337). -/
def State.mayConsume (s : State) (core ctx : Nat) : Bool := s.teamEnded core ctx || s.recordRoom (sliceOf core)

/-- A consumer's record is written and its team ends (R406, R412). -/
def State.endConsumer (s : State) (core ctx : Nat) (r : Rec) : State :=
  if s.teamEnded core ctx then s else (s.postError (sliceOf core) r).killTeam core ctx

/-- A group's access meets poison (0x81) or an error response (0x87): its record, with an address and a detail, is written and its team
ends (R406). -/
def State.consumeAt (s : State) (v : View) (o : Op) (cause : Byte) (lanes : Mask) (pa detail : Nat) : State :=
  s.endConsumer v.g.core v.slot.ctx
    (o.inRecord (v.team.errorRec cause (placeOfGroup v.g v.fib.grp v.slot.ctx) pa detail) lanes)

/-- The same of an access to a physical address. -/
def State.consume (s : State) (v : View) (o : Op) (cause : Byte) (lanes : Mask) (pa : Nat) : State :=
  s.consumeAt v o cause lanes pa (s.consumeDetail (sliceOf v.g.core) v.team.part cause pa)

/-- The same for a generator access. -/
def State.consumeGen (s : State) (c : CtxRef) (t : Team) (cause : Byte) (pa : Nat) : State :=
  s.endConsumer c.core c.ctx (t.errorRec cause (placeOfCtx c) pa (s.consumeDetail (sliceOf c.core) t.part cause pa))

/-! ### Launch words (R253, R254, R313, R314) -/

/-- The physical address of a launch word, none when the entry is not valid (R313). -/
def launchAddr (w : DWord) : Option Nat := if w.getLsbD 63 then some ((w.toNat / 8 % 2 ^ 54) * 8) else none

/-- The entries whose launch words a byte range touches, each with the word's address. -/
def matchLaunch (words : List (Nat × DWord)) (pa n : Nat) : List (Nat × Nat) :=
  words.filterMap fun w => match launchAddr w.2 with
    | some a => if pa < a + 8 ∧ a < pa + n then some (w.1, a) else none
    | none => none

/-- The launch words that a core compares, as its own view stands (R313), that a byte range touches. -/
def State.coreLaunches (s : State) (core pa n : Nat) : List (Nat × Nat) := matchLaunch (s.core core).launchView.cells pa n
/-- The first of them. -/
def State.coreLaunch (s : State) (core pa n : Nat) : Option (Nat × Nat) := (s.coreLaunches core pa n).head?
/-- The launch words of a partition that a byte range touches. -/
def State.partLaunches (s : State) (part pa n : Nat) : List (Nat × Nat) :=
  match s.part? part with
  | some p => matchLaunch (p.launches.cells.map fun e => (e.1, e.2.word)) pa n
  | none => []

def LaunchEntry.empty : LaunchEntry := ⟨0#64, 0#64, 0#64, 0#32, 0#32, 0#32, 0#32, [], []⟩

/-- An entry counts an error and records the address it concerns (R313); ERRCNT saturates. -/
def LaunchEntry.error (e : LaunchEntry) (addr : Nat) : LaunchEntry :=
  { e with errcnt := if e.errcnt = 0xFFFFFFFF#32 then e.errcnt else e.errcnt + 1#32, errlow := BitVec.ofNat 32 addr }

def State.modLaunch (s : State) (part idx : Nat) (f : LaunchEntry → LaunchEntry) : State :=
  s.modPart part fun p => { p with launches := p.launches.set idx (f (p.launches.get idx .empty)) }

/-- A refused access of a launch word (R254). -/
def State.refuseLaunch (s : State) (part idx pa : Nat) : State := s.modLaunch part idx fun e => e.error pa

/-- The base and length of a spill ring, none when there is no ring (R313). -/
def LaunchEntry.ringOf (e : LaunchEntry) : Option (Nat × Nat) :=
  let base := e.ring.toNat / 4096 * 4096
  if base = 0 then none else some (base, 2 ^ (e.ring.toNat % 32))

/-- The slice from which a partition's launch unit makes its accesses: its boot slice (DESIGN CHOICE: notes/assumptions). -/
def State.unitSlice (s : State) (part : Nat) : Nat := ((s.part? part).map Part.boot).getD 0

def State.launchOf (s : State) (part idx : Nat) : LaunchEntry := ((s.part? part).map fun p => p.launches.get idx .empty).getD .empty

/-- The arguments that wait for their writes of the ring are written, as far as no firewall holds them. -/
def State.flushRing (s : State) (part idx base n : Nat) : State :=
  (s.launchOf part idx).waiting.foldl (fun s _ =>
    let e := s.launchOf part idx
    let at_ := base + 8 * (e.put.toNat % n)
    match e.waiting with
    | [] => s
    | arg :: rest =>
      if s.way (s.unitSlice part) part at_ == .held then s
      else (s.unitWrite (s.unitSlice part) part at_ (leBytes 8 arg.toNat)).modLaunch part idx fun e => { e with put := e.put + 1#32, waiting := rest }) s

/-- An argument is queued (R314): into the FIFO, or into the ring when the FIFO is full or the ring holds one; false when the ring
is full or absent, or its write is refused, and then the entry counts the error. -/
def State.queueLaunch (s : State) (part idx : Nat) (arg : DWord) (addr : Nat) : State × Bool :=
  let e := s.launchOf part idx
  if e.put = e.take ∧ e.waiting.isEmpty ∧ e.fifo.length < 64 then (s.modLaunch part idx fun e => { e with fifo := e.fifo ++ [arg] }, true)
  else match e.ringOf with
    | none => (s.modLaunch part idx fun e => e.error addr, false)
    | some (base, n) =>
      if (e.put - e.take).toNat + e.waiting.length ≥ n then (s.modLaunch part idx fun e => e.error addr, false)
      else
        let at_ := base + 8 * ((e.put.toNat + e.waiting.length) % n)
        if (s.way (s.unitSlice part) part at_).errs then
          ((s.refuseUnit (s.unitSlice part) part at_).modLaunch part idx fun e => e.error addr, false)
        else ((s.modLaunch part idx fun e => { e with waiting := e.waiting ++ [arg] }).flushRing part idx base n, true)

/-! ### Writes of ports, devices and images -/

/-- A write of a device, or of the network port for one (R254): one that covers only part of a launch word is discarded whole and counted
at that word; any other performs all its bytes and queues a launch for each word it holds. -/
def State.deviceWrite (s : State) (part pa : Nat) (bs : List Byte) (owner : BitVec 12) : State :=
  let ws := s.partLaunches part pa bs.length
  let whole (w : Nat × Nat) : Bool := decide (pa ≤ w.2 ∧ w.2 + 8 ≤ pa + bs.length)
  if ws.all whole then
    ws.foldl (fun s w => (s.queueLaunch part w.1 (BitVec.ofNat 64 (leNat ((bs.drop (w.2 - pa)).take 8))) w.2).1) (s.portWrite part pa bs owner)
  else (ws.filter fun w => !whole w).foldl (fun s w => s.refuseLaunch part w.1 pa) s

end Sys2Proof.Machine
end

