-- ==== Sys2Proof/Machine/Bounds.lean ====
section
/-!
DEFINITION. The bounds that the approximate functions meet (R168): each exact function to some 100 bits in integer arithmetic, and
the test that a result lies within its bound. What bits a function returns inside its bound stays free (Config.sfuApprox).
-/

namespace Sys2Proof.Machine

/-- log2 of the spacing of FP32 at a positive value num/den * 2^e. -/
def ulpExp (num den : Nat) (e : Int) : Int := max (expOf num den e) (-126) - 23

/-- Whether a result differs from v * 2^q by at most t * 2^u. -/
def closeTo (c : FVal) (v q : Int) (t : Nat) (u : Int) : Bool :=
  match c with
  | .fin s n e =>
    let lo := min (min e q) u
    decide ((dyInt s n e lo - v * 2 ^ (q - lo).toNat).natAbs ≤ shiftBy t (u - lo))
  | _ => false

/-- A result kept when it lies within t * 2^u of v * 2^q, and else that value rounded. -/
def bounded (c : Word) (v q : Int) (t : Nat) (u : Int) : Word :=
  if closeTo (fmtF32.decode c.toNat) v q t u then c
  else BitVec.ofNat 32 (fmtF32.conv .rne false (.fin (decide (v < 0)) v.natAbs q)).1

/-- A result kept when it lies within 2 ulp of v * 2^q, within 1 subnormal ulp where that is subnormal. -/
def boundedUlp (c : Word) (v q : Int) : Word :=
  let x := expOf v.natAbs 1 q
  bounded c v q (if x < -126 then 1 else 2) (max x (-126) - 23)

/-- 2π * 2^320, ln 2 * 2^160 and log2 e * 2^160, rounded down. -/
def twoPi320 : Nat := 0x6487ed5110b4611a62633145c06e0e68948127044533e63a0105df531d89cd9128a5043cc71a026ef
def ln2At160 : Nat := 0xb17217f7d1cf79abc9e3b39803f2f6af40f34326
def log2eAt160 : Nat := 0x171547652b82fe1777d0ffda0d23a7d11d6aef552

/-- A dyadic value n * 2^e of a sign at scale 2^160, rounded down in magnitude. -/
def at160 (neg : Bool) (n : Nat) (e : Int) : Int := dyInt neg n (e + 160) 0

/-- The first terms of the exponential series of t * 2^-160, for 0 ≤ t < 2^160: term i of i + 1 on, at scale 2^160. -/
def expTerms (t : Nat) : Nat → Nat → Nat → Nat
  | 0, _, _ => 0
  | n + 1, i, term => term + expTerms t n (i + 1) (term * t / 2 ^ 160 / (i + 1))

/-- 2^x for x * 2^-160, as a mantissa at scale 2^160 in [1, 2] and an exponent. -/
def exp2At (x : Int) : Nat × Int :=
  (expTerms ((x % 2 ^ 160).toNat * ln2At160 / 2 ^ 160) 60 0 (2 ^ 160), x / 2 ^ 160)

/-- The bits of the fraction of log2 of a mantissa y * 2^-160 in [1, 2), by squaring. -/
def logBits : Nat → Nat → Nat → Nat
  | 0, _, acc => acc
  | n + 1, y, acc =>
    let y := y * y / 2 ^ 160
    if 2 ^ 161 ≤ y then logBits n (y / 2) (2 * acc + 1) else logBits n y (2 * acc)

/-- log2 of k * 2^e, k > 0, at scale 2^100. -/
def log2At (k : Nat) (e : Int) : Int :=
  let l := Nat.log2 k
  (e + l) * 2 ^ 100 + logBits 100 (shiftBy k (160 - l)) 0

/-- The terms of the sine or cosine series of r * 2^-160 from one on: each is the last times −r² over two factors. -/
def trigTerms (r : Int) : Nat → Nat → Int → Int
  | 0, _, _ => 0
  | n + 1, i, term => term + trigTerms r n (i + 2) (-(term * r / 2 ^ 160 * r / 2 ^ 160) / ((i + 1) * (i + 2)))

/-- The magnitude k * 2^e modulo 2π, at scale 2^160. -/
def angle (k : Nat) (e : Int) : Int := (shiftBy k (e + 320) % twoPi320 / 2 ^ 160 : Nat)

/-- sin and cos of a dyadic value at scale 2^160. -/
def sinAt (neg : Bool) (k : Nat) (e : Int) : Int :=
  let r := angle k e
  let s := trigTerms r 50 1 r
  if neg then -s else s
def cosAt (k : Nat) (e : Int) : Int := trigTerms (angle k e) 50 0 (2 ^ 160)

/-- tanh of k * 2^e at scale 2^160, for a magnitude up to 32; above that it is that of 32. -/
def tanhAt (neg : Bool) (k : Nat) (e : Int) : Int :=
  let x := min (at160 false k e) (32 * 2 ^ 160)
  let p := exp2At (2 * x * log2eAt160 / 2 ^ 160)
  let y : Int := p.1 * 2 ^ p.2.toNat
  let v := (y - 2 ^ 160) * 2 ^ 160 / (y + 2 ^ 160)
  if neg then -v else v

end Sys2Proof.Machine
end

