-- ==== Sys2Proof/Machine/Floating.lean ====
section
/-!
DEFINITION. The meanings of the floating-point and special-function class (R151-R172): FP32 arithmetic, minimum and maximum,
comparison, rounding to integral, class, scale, packed 16-bit arithmetic, dot products, and the special functions with their
exact cases, special operands and bounds.
-/

namespace Sys2Proof.Machine

open Host (Outcome)

/-! ### Lane functions on FP32 (R159-R164) -/

/-- A lane's bits as in32 reads them (R153). -/
def flush32 (ftz : Bool) (w : Word) : Word := if ftz && isSub32 w.toNat then w &&& 0x80000000#32 else w

/-- The mode of an RM field of this class (R152). -/
def rmOf (f : Fields) : RMode := rmodeOf f.rmF 0#32

def faddLane (ftz : Bool) (m : RMode) (x y : Word) : Word × Word := out32 ftz (fmtF32.add m (in32 ftz x) (in32 ftz y))
def fsubLane (ftz : Bool) (m : RMode) (x y : Word) : Word × Word := out32 ftz (fmtF32.add m (in32 ftz x) (in32 ftz y).negate)
def fmulLane (ftz : Bool) (m : RMode) (x y : Word) : Word × Word := out32 ftz (fmtF32.mul m (in32 ftz x) (in32 ftz y))
def ffmaLane (ftz : Bool) (m : RMode) (x y z : Word) : Word × Word :=
  out32 ftz (fmtF32.fma m (in32 ftz x) (in32 ftz y) (in32 ftz z))
def fdivLane (ftz : Bool) (m : RMode) (x y : Word) : Word × Word := out32 ftz (fmtF32.div m (in32 ftz x) (in32 ftz y))
def fsqrtLane (ftz : Bool) (m : RMode) (x : Word) : Word × Word := out32 ftz (fmtF32.sqrt m (in32 ftz x))

/-- minimumNumber or maximumNumber of two lanes (R160). -/
def fminmaxLane (ftz isMax : Bool) (x y : Word) : Word × Word :=
  let x := flush32 ftz x
  let y := flush32 ftz y
  let r := fmtF32.minmax isMax x.toNat y.toNat (fmtF32.decode x.toNat) (fmtF32.decode y.toNat)
  (BitVec.ofNat 32 r.1, r.2)

/-- A comparison of two lanes (R161). -/
def fcmpLane (ftz : Bool) (cc : Nat) (x y : Word) : Word × Word :=
  let r := fltCmp cc (in32 ftz x) (in32 ftz y)
  (if r.1 then 1#32 else 0#32, r.2)

/-- Rounding of a lane to an integral value (R162). -/
def frndLane (ftz : Bool) (m : RMode) (x : Word) : Word × Word :=
  let r := roundIntegral m (in32 ftz x)
  (BitVec.ofNat 32 r.1, r.2)

/-- x · 2^n of a lane (R164). Beyond ±400 every n gives what ±400 gives: overflow, or a magnitude under half the least
subnormal. -/
def fscaleLane (ftz : Bool) (m : RMode) (x n : Word) : Word × Word :=
  let n := clampInt (-400) 400 n.toInt
  match in32 ftz x with
  | .nan s => (BitVec.ofNat 32 fmtF32.nanCode, flagIf s flagNV)
  | .inf neg => (BitVec.ofNat 32 (fmtF32.withSign neg fmtF32.topCode), 0#32)
  | .fin neg k e =>
    if k = 0 then (BitVec.ofNat 32 (fmtF32.withSign neg 0), 0#32) else out32 ftz (fmtF32.deliver m false neg k 1 (e + n))

/-! ### Packed 16-bit lanes and dot products (R165, R166) -/

/-- The format of a packed TY. -/
def packedFmt (ty : Nat) : Fmt := if ty = 5 then fmtF16 else fmtBf16
/-- Element i of a packed 16-bit lane. -/
def half (w : Word) (i : Nat) : Nat := w.toNat / 2 ^ (16 * i) % 2 ^ 16
/-- Byte i of a lane. -/
def byteAt (w : Word) (i : Nat) : Nat := w.toNat / 2 ^ (8 * i) % 2 ^ 8

/-- An operation on both elements of a packed lane. -/
def packed2 (g : Nat → Nat × Word) : Word × Word :=
  let a := g 0
  let b := g 1
  (BitVec.ofNat 32 (a.1 + b.1 * 2 ^ 16), a.2 ||| b.2)

def hadd2Lane (p : Fmt) (m : RMode) (x y : Word) : Word × Word := packed2 fun i => p.add m (p.decode (half x i)) (p.decode (half y i))
def hmul2Lane (p : Fmt) (m : RMode) (x y : Word) : Word × Word := packed2 fun i => p.mul m (p.decode (half x i)) (p.decode (half y i))
def hfma2Lane (p : Fmt) (m : RMode) (x y z : Word) : Word × Word :=
  packed2 fun i => p.fma m (p.decode (half x i)) (p.decode (half y i)) (p.decode (half z i))
def hmnx2Lane (p : Fmt) (isMax : Bool) (x y : Word) : Word × Word :=
  packed2 fun i => p.minmax isMax (half x i) (half y i) (p.decode (half x i)) (p.decode (half y i))
/-- The comparison of both elements, in bits 0 and 1 (R161). -/
def hcmp2Lane (p : Fmt) (cc : Nat) (x y : Word) : Word × Word :=
  let r (i : Nat) := fltCmp cc (p.decode (half x i)) (p.decode (half y i))
  (BitVec.ofNat 32 (boolNat (r 0).1 + 2 * boolNat (r 1).1), (r 0).2 ||| (r 1).2)

/-- FDOT2 of a lane (R166). -/
def fdot2Lane (ftz : Bool) (p : Fmt) (m : RMode) (x y c : Word) : Word × Word :=
  out32 ftz (fmtF32.dot m ([0, 1].map fun i => (p.decode (half x i), p.decode (half y i))) (in32 ftz c))
/-- FDOT4 of a lane (R166). -/
def fdot4Lane (ftz : Bool) (p : Fmt) (m : RMode) (x y c : Word) : Word × Word :=
  out32 ftz (fmtF32.dot m ([0, 1, 2, 3].map fun i => (p.decode (byteAt x i), p.decode (byteAt y i))) (in32 ftz c))

/-! ### The special functions (R168, R169) -/

def nan32 : Word := 0x7FC00000#32
def inf32 (neg : Bool) : Word := if neg then 0xFF800000#32 else 0x7F800000#32
def one32 : Word := 0x3F800000#32

/-- Under FTZ a subnormal result is flushed without a flag (R168). -/
def quietFlush (ftz : Bool) (r : Word × Word) : Word × Word := (flush32 ftz r.1, r.2)

/-- Whether a magnitude n * 2^q differs from 1/(k * 2^e) by at most 1 ulp (R168). -/
def rcpOk (c : FVal) (k : Nat) (e : Int) : Bool :=
  match c with
  | .fin _ n q =>
    let u := ulpExp 1 k (-e)
    let lo := min (q + e) (min (u + e) 0)
    decide (((shiftBy (n * k) (q + e - lo) : Int) - shiftBy 1 (-lo)).natAbs ≤ shiftBy k (u + e - lo))
  | _ => false

/-- 1/√(k * 2^e) as n * 2^q, to more than 40 bits, and exactly where k * 2^e is a power of four: k * 2^e at an even exponent, and the
root of 2^120/k. -/
def rsqNear (k : Nat) (e : Int) : Nat × Int :=
  let x := if e % 2 = 0 then (k, e) else (2 * k, e - 1)
  (isqrt (2 ^ 120 / x.1), -60 - x.2 / 2)

/-- Whether a positive n * 2^q differs from 1/√(k * 2^e) by at most 2 ulp (R168): (n·2^q - 2u)²·x ≤ 1 ≤ (n·2^q + 2u)²·x. -/
def rsqOk (c : FVal) (k : Nat) (e : Int) : Bool :=
  match c with
  | .fin _ n q =>
    let near := rsqNear k e
    let u : Int := ulpExp near.1 1 near.2
    let lo := min q (u + 1)
    let v : Int := shiftBy n (q - lo)
    let d : Int := shiftBy 1 (u + 1 - lo)
    let sq (t : Int) : Nat := (t * t).toNat * k
    let x := 2 * lo + e
    let le (a : Nat) : Bool := if 0 ≤ x then decide (a * 2 ^ x.toNat ≤ 1) else decide (a ≤ 2 ^ (-x).toNat)
    let ge (a : Nat) : Bool := if 0 ≤ x then decide (1 ≤ a * 2 ^ x.toNat) else decide (2 ^ (-x).toNat ≤ a)
    (decide (v ≤ d) || le (sq (v - d))) && ge (sq (v + d))
  | _ => false

/-- The free function of an approximate operation. -/
def approx (op : Nat) (x : Word) : Word := Config.sfuApprox op x

/-- RCP of a lane: exact for powers of two with a normal reciprocal; else a free value within 1 ulp (R168, R169). -/
def rcpLane (ftz : Bool) (x : Word) : Word × Word :=
  let x := flush32 ftz x
  quietFlush ftz (match fmtF32.decode x.toNat with
  | .nan s => (nan32, flagIf s flagNV)
  | .inf neg => (BitVec.ofNat 32 (fmtF32.withSign neg 0), 0#32)
  | .fin neg k e =>
    if k = 0 then (inf32 neg, flagDZ)
    else
      let r := fmtF32.div .rne (.fin neg 1 0) (.fin false k e)
      let t := fmtF32.div .rtz (.fin neg 1 0) (.fin false k e)
      if t.2 &&& flagOF ≠ 0#32 then (inf32 neg, flagOF)
      else if 2 ^ Nat.log2 k = k ∧ ¬ isSub32 r.1 then (BitVec.ofNat 32 r.1, 0#32)
      else
        let c := approx 0x61 x
        if c.getLsbD 31 = neg ∧ rcpOk (fmtF32.decode c.toNat) k e then (c, 0#32) else (BitVec.ofNat 32 t.1, 0#32))

/-- RSQ of a lane: exact for powers of four; else a free value within 2 ulp. -/
def rsqLane (ftz : Bool) (x : Word) : Word × Word :=
  let x := flush32 ftz x
  quietFlush ftz (match fmtF32.decode x.toNat with
  | .nan s => (nan32, flagIf s flagNV)
  | .inf neg => if neg then (nan32, flagNV) else (0#32, 0#32)
  | .fin neg k e =>
    if k = 0 then (inf32 neg, flagDZ)
    else if neg then (nan32, flagNV)
    else
      let y := rsqNear k e
      let near := (fmtF32.conv .rne false (.fin false y.1 y.2)).1
      if 2 ^ Nat.log2 k = k ∧ (e + Nat.log2 k) % 2 = 0 then (BitVec.ofNat 32 near, 0#32)
      else
        let c := approx 0x62 x
        if c.getLsbD 31 = false ∧ rsqOk (fmtF32.decode c.toNat) k e then (c, 0#32) else (BitVec.ofNat 32 near, 0#32))

/-- The integer that a finite value is, when it is one. -/
def intOf (neg : Bool) (k : Nat) (e : Int) : Option Int :=
  if 0 ≤ e then some (dyInt neg k e 0)
  else if k % 2 ^ (-e).toNat = 0 then some (if neg then -((k / 2 ^ (-e).toNat : Nat) : Int) else (k / 2 ^ (-e).toNat : Nat))
  else none

/-- EXP2 of a lane: exact at integers, +infinity with OF from 128 up; else a free value within its bound (R168). Below −150 the
function is under half the least subnormal, so the bound leaves that or zero. -/
def exp2Lane (ftz : Bool) (x : Word) : Word × Word :=
  let x := flush32 ftz x
  quietFlush ftz (match fmtF32.decode x.toNat with
  | .nan s => (nan32, flagIf s flagNV)
  | .inf neg => if neg then (0#32, 0#32) else (inf32 false, 0#32)
  | .fin neg k e =>
    if k = 0 then (one32, 0#32)
    else if !neg && !fltLt (.fin false k e) (.fin false 128 0) then (inf32 false, flagOF)
    else match intOf neg k e with
      | some n =>
        if -149 ≤ n then (BitVec.ofNat 32 (fmtF32.magCode 1 n), 0#32)
        else if approx 0x64 x = 1#32 then (1#32, 0#32) else (0#32, 0#32)
      | none =>
        if neg && fltLt (.fin true k e) (.fin true 150 0) then (if approx 0x64 x = 1#32 then 1#32 else 0#32, 0#32)
        else let y := exp2At (at160 neg k e); (boundedUlp (approx 0x64 x) y.1 (y.2 - 160), 0#32))

/-- LOG2 of a lane: exact at 1 and at powers of two outside [0.5, 2]; else a free value within 2^-22 for x in [0.5, 2] and within 2 ulp
elsewhere (R168). -/
def log2Lane (ftz : Bool) (x : Word) : Word × Word :=
  let x := flush32 ftz x
  quietFlush ftz (match fmtF32.decode x.toNat with
  | .nan s => (nan32, flagIf s flagNV)
  | .inf neg => if neg then (nan32, flagNV) else (inf32 false, 0#32)
  | .fin neg k e =>
    if k = 0 then (inf32 true, flagDZ)
    else if neg then (nan32, flagNV)
    else
      let power := 2 ^ Nat.log2 k = k
      let n := e + Nat.log2 k
      let y := log2At k e
      if power ∧ n ≠ -1 ∧ n ≠ 1 then (BitVec.ofNat 32 (fmtF32.conv .rne false (.ofInt n)).1, 0#32)
      else if ((-1 : Int) ≤ n ∧ n ≤ 0) ∨ power then (bounded (approx 0x65 x) y (-100) 1 (-22), 0#32)
      else (boundedUlp (approx 0x65 x) y (-100), 0#32))

/-- SIN or COS of a lane: exact at zeros; else a free value within 2^-22 (R168). -/
def sincosLane (op : Nat) (ftz : Bool) (x : Word) : Word × Word :=
  let x := flush32 ftz x
  quietFlush ftz (match fmtF32.decode x.toNat with
  | .nan s => (nan32, flagIf s flagNV)
  | .inf _ => (nan32, flagNV)
  | .fin neg k e =>
    if k = 0 then (if op = 0x66 then x else one32, 0#32)
    else (bounded (approx op x) (if op = 0x66 then sinAt neg k e else cosAt k e) (-160) 1 (-22), 0#32))

/-- TANH of a lane: the source itself below 2^-12; else a free value within 2 ulp (R168). -/
def tanhLane (ftz : Bool) (x : Word) : Word × Word :=
  let x := flush32 ftz x
  quietFlush ftz (match fmtF32.decode x.toNat with
  | .nan s => (nan32, flagIf s flagNV)
  | .inf neg => (if neg then 0xBF800000#32 else one32, 0#32)
  | .fin neg k e =>
    if k = 0 ∨ fltLt (.fin false k e) (.fin false 1 (-12)) then (x, 0#32)
    else (boundedUlp (approx 0x68 x) (tanhAt neg k e) (-160), 0#32))

/-! ### Shapes (R156, R157) -/

/-- Sources that all expect one tag: A and src of a type. -/
def fbinSrcs (f : Fields) (t : SrcTy) (e : Tag) : List Src := regSrcs f.a [.tag e] ++ srcB f t [.tag e]
/-- Sources of a ternary form: A and B of one tag, src3 of a type and tag. -/
def fternSrcs (f : Fields) (e : Tag) (t : SrcTy) (c : Tag) : List Src := regSrcs f.a [.tag e] ++ regSrcs f.b [.tag e] ++ src3 f t [.tag c]

/-- A fixed-latency form of two sources whose lane function reads FTZ. -/
def execF2 (i : Instr) (f : Fields) (srcs : List Src) (t : Tag) (g : Bool → Word → Word → Word × Word) (s : State) :
    Outcome State Fault Refusal :=
  execFixed i f 4 srcs (fun v act ls => outFlags f.d act t fun l => g v.fib.ftz (src ls 0 l) (src ls 1 l)) s

/-- A fixed-latency form of three sources. -/
def execF3 (i : Instr) (f : Fields) (srcs : List Src) (t : Tag) (g : Bool → Word → Word → Word → Word × Word) (s : State) :
    Outcome State Fault Refusal :=
  execFixed i f 4 srcs (fun v act ls => outFlags f.d act t fun l => g v.fib.ftz (src ls 0 l) (src ls 1 l) (src ls 2 l)) s

/-- A unary form of the special-function unit. -/
def execSfu1 (i : Instr) (f : Fields) (g : Bool → Word → Word × Word) (s : State) : Outcome State Fault Refusal :=
  execSfu i f (regSrcs f.a [.tag tagF32]) (fun v act ls => outFlags f.d act tagF32 fun l => g v.fib.ftz (src ls 0 l)) s

/-! ### The meanings -/

/-- FADD (R159). -/
def execFadd (f : Fields) (s : State) : Outcome State Fault Refusal :=
  execF2 (.fadd f) f (fbinSrcs f .f32 tagF32) tagF32 (fun z => faddLane z (rmOf f)) s
/-- FSUB (R159). -/
def execFsub (f : Fields) (s : State) : Outcome State Fault Refusal :=
  execF2 (.fsub f) f (fbinSrcs f .f32 tagF32) tagF32 (fun z => fsubLane z (rmOf f)) s
/-- FMUL (R159). -/
def execFmul (f : Fields) (s : State) : Outcome State Fault Refusal :=
  execF2 (.fmul f) f (fbinSrcs f .f32 tagF32) tagF32 (fun z => fmulLane z (rmOf f)) s
/-- FFMA (R159). -/
def execFfma (f : Fields) (s : State) : Outcome State Fault Refusal :=
  execF3 (.ffma f) f (fternSrcs f tagF32 .f32 tagF32) tagF32 (fun z => ffmaLane z (rmOf f)) s
/-- FMIN (R160). -/
def execFmin (f : Fields) (s : State) : Outcome State Fault Refusal :=
  execF2 (.fmin f) f (fbinSrcs f .f32 tagF32) tagF32 (fun z => fminmaxLane z false) s
/-- FMAX (R160). -/
def execFmax (f : Fields) (s : State) : Outcome State Fault Refusal :=
  execF2 (.fmax f) f (fbinSrcs f .f32 tagF32) tagF32 (fun z => fminmaxLane z true) s
/-- FCMP (R161). -/
def execFcmp (f : Fields) (s : State) : Outcome State Fault Refusal :=
  execF2 (.fcmp f) f (fbinSrcs f .f32 tagF32) tagPred (fun z => fcmpLane z f.cc) s
/-- FRND (R162). -/
def execFrnd (f : Fields) (s : State) : Outcome State Fault Refusal :=
  execFixed (.frnd f) f 4 (regSrcs f.a [.tag tagF32])
    (fun v act ls => outFlags f.d act tagF32 fun l => frndLane v.fib.ftz (rmOf f) (src ls 0 l)) s
/-- FCLASS (R163). -/
def execFclass (f : Fields) (s : State) : Outcome State Fault Refusal :=
  execFixed (.fclass f) f 4 (regSrcs f.a [.tag tagF32])
    (fun _ act ls => outLanes f.d act tagN32 fun l => classMask (src ls 0 l)) s
/-- FSCALE (R164). -/
def execFscale (f : Fields) (s : State) : Outcome State Fault Refusal :=
  execF2 (.fscale f) f (regSrcs f.a [.tag tagF32] ++ srcB f .s32 [.tag tagS32]) tagF32 (fun z => fscaleLane z (rmOf f)) s
/-- FDOT2 (R166). -/
def execFdot2 (f : Fields) (s : State) : Outcome State Fault Refusal :=
  execF3 (.fdot2 f) f (fternSrcs f (tyTag f.ty) .f32 tagF32) tagF32 (fun z => fdot2Lane z (packedFmt f.ty) (rmOf f)) s
/-- FDOT4 (R166): SUB holds the binary8 index and the rounding mode (layout Q). -/
def execFdot4 (f : Fields) (s : State) : Outcome State Fault Refusal :=
  let m := rmodeOf (f.sub.toNat % 8) 0#32
  execF3 (.fdot4 f) f (fternSrcs f (BitVec.ofNat 6 (32 + f.qIndex)) .f32 tagF32) tagF32
    (fun z => fdot4Lane z (fmtBinary8 f.qIndex) m) s
/-- HADD2 (R165). -/
def execHadd2 (f : Fields) (s : State) : Outcome State Fault Refusal :=
  execF2 (.hadd2 f) f (fbinSrcs f .p16 (tyTag f.ty)) (tyTag f.ty) (fun _ => hadd2Lane (packedFmt f.ty) (rmOf f)) s
/-- HMUL2 (R165). -/
def execHmul2 (f : Fields) (s : State) : Outcome State Fault Refusal :=
  execF2 (.hmul2 f) f (fbinSrcs f .p16 (tyTag f.ty)) (tyTag f.ty) (fun _ => hmul2Lane (packedFmt f.ty) (rmOf f)) s
/-- HFMA2 (R165). -/
def execHfma2 (f : Fields) (s : State) : Outcome State Fault Refusal :=
  execF3 (.hfma2 f) f (fternSrcs f (tyTag f.ty) .p16 (tyTag f.ty)) (tyTag f.ty)
    (fun _ => hfma2Lane (packedFmt f.ty) (rmOf f)) s
/-- HMNX2 (R160): VAR 1 is .max. -/
def execHmnx2 (f : Fields) (s : State) : Outcome State Fault Refusal :=
  execF2 (.hmnx2 f) f (fbinSrcs f .p16 (tyTag f.ty)) (tyTag f.ty) (fun _ => hmnx2Lane (packedFmt f.ty) f.varF) s
/-- HCMP2 (R161). -/
def execHcmp2 (f : Fields) (s : State) : Outcome State Fault Refusal :=
  execF2 (.hcmp2 f) f (fbinSrcs f .p16 (tyTag f.ty)) tagN32 (fun _ => hcmp2Lane (packedFmt f.ty) f.cc) s
/-- RCP (R168, R169). -/
def execRcp (f : Fields) (s : State) : Outcome State Fault Refusal := execSfu1 (.rcp f) f rcpLane s
/-- RSQ (R168, R169). -/
def execRsq (f : Fields) (s : State) : Outcome State Fault Refusal := execSfu1 (.rsq f) f rsqLane s
/-- SQRT (R170). -/
def execSqrt (f : Fields) (s : State) : Outcome State Fault Refusal := execSfu1 (.sqrt f) f (fun z => fsqrtLane z (rmOf f)) s
/-- EXP2 (R168, R169). -/
def execExp2 (f : Fields) (s : State) : Outcome State Fault Refusal := execSfu1 (.exp2 f) f exp2Lane s
/-- LOG2 (R168, R169). -/
def execLog2 (f : Fields) (s : State) : Outcome State Fault Refusal := execSfu1 (.log2 f) f log2Lane s
/-- SIN (R168, R169). -/
def execSin (f : Fields) (s : State) : Outcome State Fault Refusal := execSfu1 (.sin f) f (sincosLane 0x66) s
/-- COS (R168, R169). -/
def execCos (f : Fields) (s : State) : Outcome State Fault Refusal := execSfu1 (.cos f) f (sincosLane 0x67) s
/-- TANH (R168, R169). -/
def execTanh (f : Fields) (s : State) : Outcome State Fault Refusal := execSfu1 (.tanh f) f tanhLane s
/-- FDIV (R170). -/
def execFdiv (f : Fields) (s : State) : Outcome State Fault Refusal :=
  execSfu (.fdiv f) f (fbinSrcs f .f32 tagF32) (fun v act ls =>
    outFlags f.d act tagF32 fun l => fdivLane v.fib.ftz (rmOf f) (src ls 0 l) (src ls 1 l)) s

/-! ### The unit's events (R167) -/

/-- SFU_ACCEPT: the unit accepts the next queued operation, 4 clocks or more after the last (R167). -/
def execSfuAccept (core sub : Nat) (s : State) : Outcome State Fault Refusal :=
  .next (s.modSub core sub fun x => x.sfuAcceptNext (s.core core).clock)

/-- The operation of a fibre completes: its destinations and flags are written and its counter falls in its place. Until then its
destinations read as they were (R107, R172; DESIGN CHOICE: notes/assumptions). -/
def State.finishSfu (s : State) (core sub : Nat) (o : SfuOp) : State :=
  let g : GroupRef := ⟨core, sub, o.slot, o.fib⟩
  let s := s.modSub core sub fun x => { x with sfu := x.sfu.filter fun p => !(p.slot == o.slot && p.fib == o.fib && p.id == o.id) }
  let s := s.writeRegs g o.writes
  s.modFibre g fun f => f.completeWith o.id o.flags

/-- SFU_COMPLETE: the operation of a number that has reached its completion completes; an aborted group may then leave. -/
def execSfuComplete (core sub id : Nat) (s : State) : Outcome State Fault Refusal :=
  let k := s.core core
  match (k.sub sub).sfu.find? fun o => o.id == id && (match o.due with
      | some d => decide (d ≤ k.clock)
      | none => false) with
  | none => .next s
  | some o => .next ((s.finishSfu core sub o).settleAborted ⟨core, sub, o.slot, o.fib⟩)

end Sys2Proof.Machine
end

