-- ==== Sys2Proof/Machine/Memory.lean ====
section
/-!
DEFINITION. The memory access class (R203-R233): the issue of its instructions, the checks of a lane, and how the lanes of one
line or row perform. What an access of the class does when it performs is given here for each kind; the event that makes one
perform, which serves the ordering class too, stands in Machine/Ordering.lean.
-/

namespace Sys2Proof.Machine

open Host (Outcome)

/-! ### Issue (R203-R206, R215, R219, R228, R229) -/

/-- The signed byte offset of a word: imm20 under kind 2, else 0. -/
def byteOff (f : Fields) : DWord := f.imm20.signExtend 64
/-- A source pair that forms global addresses. -/
def pairSrcs (o : Operand) : List Src := regSrcs o [.tag tagA64L, .tag tagA64H]
/-- The addresses of a group, lane by lane. -/
def laneAddrs (g : Fin 32 → DWord) : List DWord := allLanes.map g
/-- The captured address of a lane. -/
def Op.addr (o : Op) (l : Fin 32) : DWord := o.addrs.getD l.val 0#64

/-- An operation with a log entry starts; with no active lane it completes at once without effect; with no free entry the word
is held (R228, R229). -/
def State.startLogged (s : State) (v : View) (i : Instr) (f : Fields) (act : Mask) (o : Op) : State :=
  let cf := (f.signal).getD 0
  if act = 0#32 then s.startDone v i cf o.flags
  else match v.fib.freeLog with
    | none => s
    | some n => s.startOp v i cf { o with logSlot := some n }

/-- As startLogged, without a log entry. -/
def State.startPlain (s : State) (v : View) (i : Instr) (f : Fields) (act : Mask) (o : Op) : State :=
  let cf := (f.signal).getD 0
  if act = 0#32 then s.startDone v i cf o.flags
  else s.startOp v i cf o

/-- The registers of a result of a size code. -/
def szDest (f : Fields) : List Operand := fieldRegs f.d (szRegs f.sz)

/-- The global addresses of R203 from the first two sources. -/
def globalAddrs (f : Fields) (ls : List Lanes) : List DWord := laneAddrs fun l => src64 ls 0 l + byteOff f
/-- The 32-bit addresses of R204 and R205 from the first source. -/
def offsetAddrs (f : Fields) (ls : List Lanes) : List DWord :=
  laneAddrs fun l => (src ls 0 l + f.imm20.signExtend 32).setWidth 64

/-- LD (R217). -/
def execLd (f : Fields) (s : State) : Outcome State Fault Refusal :=
  s.withSources (.ld f) f (pairSrcs f.a) fun v act ls fl =>
    .next (s.startLogged v (.ld f) f act (newOp v (.ld f) act (globalAddrs f ls) [] (szDest f) fl))

/-- The data registers of a store, untyped. -/
def dataSrcs (f : Fields) (n : Nat) : List Src := (fieldRegs f.b n).map fun o => .reg o .any

/-- ST (R219): addresses and data are captured at issue. -/
def execSt (f : Fields) (s : State) : Outcome State Fault Refusal :=
  s.withSources (.st f) f (pairSrcs f.a ++ dataSrcs f (szRegs f.sz)) fun v act ls fl =>
    .next (s.startLogged v (.st f) f act (newOp v (.st f) act (globalAddrs f ls) (ls.drop 2) [] fl))

/-- LDS (R217). -/
def execLds (f : Fields) (s : State) : Outcome State Fault Refusal :=
  s.withSources (.lds f) f (regSrcs f.a [.tag tagN32]) fun v act ls fl =>
    .next (s.startLogged v (.lds f) f act (newOp v (.lds f) act (offsetAddrs f ls) [] (szDest f) fl))

/-- STS (R219). -/
def execSts (f : Fields) (s : State) : Outcome State Fault Refusal :=
  s.withSources (.sts f) f (regSrcs f.a [.tag tagN32] ++ dataSrcs f (szRegs f.sz)) fun v act ls fl =>
    .next (s.startLogged v (.sts f) f act (newOp v (.sts f) act (offsetAddrs f ls) (ls.drop 1) [] fl))

/-- LDR (R217). -/
def execLdr (f : Fields) (s : State) : Outcome State Fault Refusal :=
  s.withSources (.ldr f) f (regSrcs f.a [.tag tagN32]) fun v act ls fl =>
    .next (s.startLogged v (.ldr f) f act (newOp v (.ldr f) act (offsetAddrs f ls) [] (szDest f) fl))

/-- STR (R219). -/
def execStr (f : Fields) (s : State) : Outcome State Fault Refusal :=
  s.withSources (.str f) f (regSrcs f.a [.tag tagN32] ++ dataSrcs f (szRegs f.sz)) fun v act ls fl =>
    .next (s.startLogged v (.str f) f act (newOp v (.str f) act (offsetAddrs f ls) (ls.drop 1) [] fl))

/-- LDC (R218): the constant address is captured; no log entry. -/
def execLdc (f : Fields) (s : State) : Outcome State Fault Refusal :=
  s.withSources (.ldc f) f (regSrcs f.a [.tag tagN32]) fun v act ls fl =>
    .next (s.startPlain v (.ldc f) f act
      (newOp v (.ldc f) act (laneAddrs fun l => (src ls 0 l).setWidth 64) [] (szDest f) fl))

/-- What an atomic's operand expects (R220). -/
def atomExpect (f : Fields) : List Expect :=
  if 5 ≤ f.aop ∧ f.aop ≤ 9 then (if f.w64 then [.any, .any] else [.any])
  else if f.w64 then [.tag tagI64L, .tag tagI64H]
  else if f.aop = 10 then [.tag tagF32]
  else if f.aop = 1 ∨ f.aop = 2 then [.tag tagS32]
  else [.tag tagN32]

/-- The registers of an atomic's value. -/
def atomRegs (f : Fields) : Nat := if f.w64 then 2 else 1
/-- The sources of an atomic after its address: the operand, then the compare value of .cas. -/
def atomSrcs (f : Fields) : List Src :=
  regSrcs f.b (atomExpect f) ++ (if f.aop = 9 then (fieldRegs f.d (atomRegs f)).map fun o => .reg o .any else [])

/-- ATOM (R220). -/
def execAtom (f : Fields) (s : State) : Outcome State Fault Refusal :=
  s.withSources (.atom f) f (pairSrcs f.a ++ atomSrcs f) fun v act ls fl =>
    .next (s.startLogged v (.atom f) f act
      (newOp v (.atom f) act (laneAddrs fun l => src64 ls 0 l) (ls.drop 2) (fieldRegs f.d (atomRegs f)) fl))

/-- ATOMS (R220). -/
def execAtoms (f : Fields) (s : State) : Outcome State Fault Refusal :=
  s.withSources (.atoms f) f (regSrcs f.a [.tag tagN32] ++ atomSrcs f) fun v act ls fl =>
    .next (s.startLogged v (.atoms f) f act
      (newOp v (.atoms f) act (offsetAddrs f ls) (ls.drop 1) (fieldRegs f.d (atomRegs f)) fl))

/-- PREF (R222): no log entry. -/
def execPref (f : Fields) (s : State) : Outcome State Fault Refusal :=
  s.withSources (.pref f) f (pairSrcs f.a) fun v act ls fl =>
    .next (s.startPlain v (.pref f) f act (newOp v (.pref f) act (globalAddrs f ls) [] [] fl))

/-- The operation of the leader lane alone. -/
def Op.leaderOnly (o : Op) (v : View) : Op := { o with pending := 1#32 <<< v.leader.val }

/-- CINV (R224). -/
def execCinv (f : Fields) (s : State) : Outcome State Fault Refusal :=
  s.withSources (.cinv f) f (pairSrcs f.a ++ regSrcs f.b [.tag tagN32]) fun v act ls fl =>
    .next (s.startLogged v (.cinv f) f act
      ((newOp v (.cinv f) act (laneAddrs fun l => src64 ls 0 l) (ls.drop 2) [] fl).leaderOnly v))

/-- CWB (R224). -/
def execCwb (f : Fields) (s : State) : Outcome State Fault Refusal :=
  s.withSources (.cwb f) f (pairSrcs f.a ++ regSrcs f.b [.tag tagN32]) fun v act ls fl =>
    .next (s.startLogged v (.cwb f) f act
      ((newOp v (.cwb f) act (laneAddrs fun l => src64 ls 0 l) (ls.drop 2) [] fl).leaderOnly v))

/-! ### What an access is -/

/-- A pending operation of the leader lane. -/
def Op.leaderLane (o : Op) : Fin 32 := laneNum o.leader
where
  /-- A lane by number. -/
  laneNum (n : Nat) : Fin 32 := Fin.ofNat 32 n

/-- The bytes of an access by its fields: a size code, or an atomic's width. -/
def accessSize (i : Instr) : Nat :=
  match i with
  | .ld f | .st f | .lds f | .sts f | .ldr f | .str f => 2 ^ f.sz
  | .atom f | .atoms f => if f.w64 then 8 else 4
  | .await _ | .awake _ => 4
  | .acq _ | .rel _ => 64
  | _ => 1

/-- Whether an access reads memory, and whether it writes it, for the checks of R209. -/
def accessReads (i : Instr) : Bool :=
  match i with
  | .st _ => false
  | .cwb _ => false
  | _ => true
def accessWrites (i : Instr) : Bool :=
  match i with
  | .st _ | .atom _ | .cinv _ | .cwb _ | .acq _ | .rel _ => true
  | _ => false

/-- Whether an access may write a launch word whole (R254). -/
def launchForm (i : Instr) : Bool :=
  match i with
  | .st f => f.sz == 3
  | .atom f => f.aop == 8 && f.w64
  | _ => false

/-- What the checks of a lane give: a fault with its detail, a translation not cached, or the physical address. -/
inductive LaneCheck where
  | fault (cause : Byte) (detail : Nat)
  | miss
  | ready (pa : Nat) (e : TlbEntry)
  deriving DecidableEq, Repr

def LaneCheck.isReady : LaneCheck → Bool
  | .ready _ _ => true
  | _ => false
def LaneCheck.line : LaneCheck → Option Nat
  | .ready pa _ => some (pa / 128)
  | _ => none

/-- The number of a page. -/
def pageOf (va : DWord) : Nat := va.toNat % 2 ^ 57 / 4096

/-- The checks of one global address in the order of R231: those of the address alone, the walk's, the permissions, the launch
word, then the line's alias. -/
def State.checkGlobal (s : State) (v : View) (o : Op) (va : DWord) (size : Nat) (read write : Bool) : LaneCheck :=
  if ¬ canonical va then .fault causeNonCanonical 0
  else if va.toNat % size ≠ 0 then .fault causeMisaligned 0
  else match o.walkFaults.find? fun w => w.1 == pageOf va with
    | some w => .fault w.2 0
    | none => match (s.core v.g.core).lookup v.g.sub v.team.asid v.team.desc.world va with
      | none => .miss
      | some e => match permCause e o.sup read write v.team.desc.world with
        | some c => .fault c 0
        | none =>
          let pa := e.phys va
          if write ∧ ¬ launchForm o.instr ∧ (s.coreLaunch v.g.core pa (if size = 64 then 8 else size)).isSome then .fault causeLaunchWord 0
          else if (s.violation v.team.part pa).isSome then .ready pa e
          else match s.aliasCause v.team.part pa e with
            | some c =>
              let m := s.line v.team.part pa
              .fault c (m.attr.toNat + m.world.toNat * 4)
            | none => .ready pa e

/-- The checks of one page that a range touches, under R207-R209 alone. -/
def State.checkPage (s : State) (v : View) (o : Op) (va : DWord) (read write : Bool) : LaneCheck :=
  if ¬ canonical va then .fault causeNonCanonical 0
  else match o.walkFaults.find? fun w => w.1 == pageOf va with
    | some w => .fault w.2 0
    | none => match (s.core v.g.core).lookup v.g.sub v.team.asid v.team.desc.world va with
      | none => .miss
      | some e => match permCause e o.sup read write v.team.desc.world with
        | some c => .fault c 0
        | none => .ready (e.phys va) e

/-- What the pages of a byte range give: the first that fails or is not cached, or the pieces of physical memory in order. -/
inductive RangeCheck where
  | fault (cause : Byte) (page : DWord)
  | miss (page : DWord)
  | ready (pieces : List (Nat × Nat))
  deriving DecidableEq, Repr

/-- The pages of a byte range, each with the address and length of the part of the range in it. -/
def rangePieces (base n : Nat) : List (DWord × Nat) :=
  if n = 0 then []
  else (List.range ((base + n - 1) / 4096 - base / 4096 + 1)).map fun i =>
    let lo := max base ((base / 4096 + i) * 4096)
    let hi := min (base + n) ((base / 4096 + i + 1) * 4096)
    (BitVec.ofNat 64 lo, hi - lo)

/-- The pages of pieces checked in order. -/
def State.checkPieces (s : State) (v : View) (o : Op) (read write : Bool) : List (DWord × Nat) → RangeCheck
  | [] => .ready []
  | p :: r => match s.checkPage v o p.1 read write with
    | .fault c _ => .fault c (p.1 &&& ~~~4095#64)
    | .miss => .miss p.1
    | .ready pa _ => match s.checkPieces v o read write r with
      | .ready l => .ready ((pa, p.2) :: l)
      | x => x

/-- The physical scratchpad address of an offset of a team's range (R204, R225), none outside its size. -/
def Team.scratchAt (t : Team) (off n : Nat) : Option Nat :=
  if off + n ≤ t.desc.scratch then some (t.granules.getD (off / 131072) 0 * 131072 + off % 131072) else none

/-- What a remote address reaches: a place in a core's scratchpad, 2^21 bytes of place for each core, or the fault of R205; an access to
a team of the cluster that an image holds waits for it. -/
def State.remoteTarget (s : State) (v : View) (a n : Nat) : LaneCheck :=
  if a / 2 ^ 25 ≠ 0 then .fault causeRemote 0
  else match s.member v.g.core v.slot.ctx (a / 2 ^ 21 % 16) with
    | .gone => .fault causeRemote 0
    | .away => .miss
    | .here core _ t => match t.scratchAt (a % 2 ^ 21) n with
      | some p => .ready (core * 2 ^ 21 + p) .bare
      | none => .fault causeRemote 0

/-- The checks of a lane of any access of the class. For the scratchpads the address given is the place in its core's
scratchpad. -/
def State.checkLane (s : State) (v : View) (o : Op) (l : Fin 32) : LaneCheck :=
  let size := accessSize o.instr
  let a := (o.addr l).toNat
  match o.instr with
  | .lds _ | .sts _ | .atoms _ =>
    if a % size ≠ 0 then .fault causeMisaligned 0
    else match v.team.scratchAt a size with
      | some p => .ready p .bare
      | none => .fault causeScratch 0
  | .ldr _ | .str _ =>
    if a % size ≠ 0 then .fault causeMisaligned 0
    else s.remoteTarget v a size
  | .ldc _ | .pref _ => .ready 0 .bare
  | i => s.checkGlobal v o (o.addr l) size (accessReads i) (accessWrites i)

/-! ### Order among a group's accesses (R227) -/

/-- The kinds of access that R227 orders among themselves: global, scratchpad and remote. -/
def orderClass (i : Instr) : Nat :=
  match i with
  | .ld _ | .st _ | .atom _ | .cinv _ | .cwb _ => 1
  | .lds _ | .sts _ | .atoms _ => 2
  | .ldr _ | .str _ => 3
  | _ => 0

/-- The lines of virtual memory that an operation's lanes not yet performed touch: first and last. -/
def Op.lineSpans (o : Op) : List (Nat × Nat) :=
  match o.instr with
  | .cinv _ | .cwb _ =>
    let n := (lane (o.data.getD 0 (lanesAll 0#32)) o.leaderLane).toNat
    let b := (o.addr o.leaderLane).toNat
    if n = 0 then [] else [(b / 128, (b + n - 1) / 128)]
  | _ => (maskLanes o.pending).map fun l => ((o.addr l).toNat / 128, (o.addr l).toNat / 128)

/-- Whether two lists of line spans overlap. -/
def spansMeet (a b : List (Nat × Nat)) : Bool := a.any fun x => b.any fun y => decide (x.1 ≤ y.2 ∧ y.1 ≤ x.2)

/-- Whether a tile operation stores to the scratchpad and has not yet done so (R294, R295). -/
def MatOp.storesLater (o : MatOp) : Bool :=
  match o.instr with
  | .accst _ | .accq _ => !o.written
  | _ => false

/-- Whether a product holds its read set in a clock: from its issue until its occupancy ends (R297). -/
def MatOp.holdsAt (o : MatOp) (clock : Nat) : Bool := o.started.isNone || decide (clock < o.occEnd)

/-- Whether an older ACCST or ACCQ of a group stands before a scratchpad access of it: its bytes count as the group's stores, so a later
store or atomic waits for it (R227, R294); a load may return earlier bytes (R252, R355) until the write is held, when it waits for one to
its rows (R297). -/
def View.storesBefore (v : View) (o : Op) (spans : List (Nat × Nat)) : Bool :=
  v.sub.matrix.any fun m => m.slot == v.g.slot && m.fib == v.g.fib && decide (m.id < o.id) && m.storesLater && match o.instr with
    | .lds _ => m.started.isSome && decide (m.doneAt ≤ v.core.clock) && spans.any fun x => m.rows.contains (x.1 / 64)
    | _ => true

/-- The physical line of a virtual address of a group's team, as its core's caches or the page tables have it now. -/
def State.physLine (s : State) (v : View) (va : DWord) : Option Nat :=
  if ¬ canonical va then none
  else match (s.core v.g.core).lookup v.g.sub v.team.asid v.team.desc.world va with
    | some e => some (e.phys va / 128)
    | none => match s.walk v.team.part v.team.desc.root v.team.desc.world va with
      | .ok e => some (e.phys va / 128)
      | .error _ => none

/-- The physical lines, first and last of each run, that an operation's lanes not yet performed touch, as far as they are mapped. -/
def State.physSpans (s : State) (v : View) (o : Op) : List (Nat × Nat) :=
  match o.instr with
  | .cinv _ | .cwb _ =>
    let n := (lane (o.data.getD 0 (lanesAll 0#32)) o.leaderLane).toNat
    (rangePieces (o.addr o.leaderLane).toNat n).filterMap fun p => (s.physLine v p.1).map fun l => (l, l + (p.1.toNat % 128 + p.2 - 1) / 128)
  | _ => (maskLanes o.pending).filterMap fun l => (s.physLine v (o.addr l)).map fun n => (n, n)

/-- Whether an operation must wait for an older one of the same group before lanes of it in given spans perform: the same global
line, by virtual or by physical number; every older scratchpad access, or the row of a held one; the same remote line. -/
def State.waitsFor (s : State) (v : View) (o : Op) (spans phys : List (Nat × Nat)) : Bool :=
  (orderClass o.instr == 2 && v.storesBefore o spans) || v.fib.ops.any fun p =>
    decide (p.id < o.id) && orderClass p.instr == orderClass o.instr && p.pending != 0#32 &&
      match orderClass o.instr with
      | 1 => spansMeet p.lineSpans spans || spansMeet (s.physSpans v p) phys
      | 2 => (p.pending &&& ~~~p.held) != 0#32
          || (maskLanes p.held).any fun l => spans.any fun x => (p.addr l).toNat / 64 == x.1 / 64
      | 3 => spansMeet p.lineSpans spans
      | _ => false

/-- The memory- and ordering-class operations of a group issued before one, still in flight (R238). -/
def Fibre.earlier (f : Fibre) (id : Nat) : Bool :=
  f.ops.any fun p => decide (p.id < id) && match p.instr with
    | .spawn _ | .intr _ | .ctxsave _ | .ctxload _ | .tlbinv _ => false
    | _ => true

/-! ### Values -/

/-- The words of a loaded value (R217). -/
def loadWords (sz : Nat) (sx : Bool) (bs : List Byte) : List Word :=
  match sz with
  | 0 => let w : BitVec 8 := BitVec.ofNat 8 (leNat bs); [if sx then w.signExtend 32 else w.setWidth 32]
  | 1 => let w : BitVec 16 := BitVec.ofNat 16 (leNat bs); [if sx then w.signExtend 32 else w.setWidth 32]
  | _ => (List.range (bs.length / 4)).map fun k => BitVec.ofNat 32 (leNat ((bs.drop (4 * k)).take 4))
/-- The tag of a loaded value. -/
def loadTag (sz : Nat) (sx : Bool) : Tag := if sz ≤ 1 then (if sx then tagS32 else tagN32) else tagRaw

/-- The bytes that a lane stores (R219). -/
def Op.storeBytes (o : Op) (size : Nat) (l : Fin 32) : List Byte :=
  (o.data.flatMap fun d => leBytes 4 (lane d l).toNat).take size

/-- The operation of an atomic on w bits (R220): the new value from the old, the operand and the compare value. -/
def atomValue (aop w : Nat) (old b c : Nat) : Nat :=
  let signed (x : Nat) : Int := if x ≥ 2 ^ (w - 1) then (x : Int) - 2 ^ w else x
  match aop with
  | 0 => (old + b) % 2 ^ w
  | 1 => if signed b < signed old then b else old
  | 2 => if signed old < signed b then b else old
  | 3 => min old b
  | 4 => max old b
  | 5 => old &&& b
  | 6 => old ||| b
  | 7 => old ^^^ b
  | 8 => b
  | 9 => if old = c then b else old
  | _ => (fmtF32.add .rne (fmtF32.decode old) (fmtF32.decode b)).1

/-- The tags of an atomic's old value (R220). -/
def atomTags (f : Fields) : List Tag :=
  if f.w64 then [tagI64L, tagI64H]
  else [if f.aop = 1 ∨ f.aop = 2 then tagS32 else if f.aop = 10 then tagF32 else tagN32]

/-- The operand and the compare value of a lane of an atomic. -/
def Op.atomOperand (o : Op) (f : Fields) (l : Fin 32) : Nat :=
  if f.w64 then (src64 o.data 0 l).toNat else (src o.data 0 l).toNat
def Op.atomCompare (o : Op) (f : Fields) (l : Fin 32) : Nat :=
  if f.w64 then (src64 o.data 2 l).toNat else (src o.data 1 l).toNat

/-- The values of lanes written to an operation's destinations: for each destination its tag, and for each lane its words. -/
def State.writeLanes (s : State) (g : GroupRef) (o : Op) (tags : List Tag) (vals : List (Fin 32 × List Word)) : State :=
  let m := maskOf fun l => vals.any fun v => v.1 == l
  let reg (k : Nat) : Reg := ⟨tags.getD k (tags.getD 0 tagRaw), lanesOf fun l =>
    match vals.find? fun v => v.1 == l with
    | some v => v.2.getD k 0#32
    | none => 0#32⟩
  s.writeRegs g (o.dest.zipIdx.map fun d => ⟨d.1, m, reg d.2⟩)

/-- Lanes of an operation have performed. -/
def State.performed (s : State) (g : GroupRef) (id : Nat) (m : Mask) : State :=
  s.modFibre g fun f => f.modOp id fun o => { o with pending := o.pending &&& ~~~m }

/-- An operation that has performed whole completes: its flags land and its counter falls in its place (R46, R108). -/
def State.finishAccess (s : State) (g : GroupRef) (o : Op) : State :=
  (s.modFibre g fun f => { f with gst := f.gst ||| o.flags }).opDone g o.id

/-! ### Watches (R322) -/

/-- The lowest watch that an access of a team meets at a byte range, with the lowest byte that matches. -/
def Core.watchHit (k : Core) (asid : BitVec 12) (va n : Nat) (read write : Bool) : Option (Nat × Nat) :=
  k.watches.cells.findSome? fun p =>
    let w := p.2
    let base := w.base.toNat
    let on := (w.kind.getLsbD 0 && read) || (w.kind.getLsbD 1 && write)
    if on && w.asid == asid && decide (va < base + 2 ^ w.len.toNat ∧ base < va + n) then some (p.1, max va base) else none

/-- The watch fault of the lanes that have met a watch: its record names them (R322); once the team's save has begun it is kept in the
image (R332). A hit is a lane, its watch and the lowest byte that matches. -/
def State.watchFault (s : State) (v : View) (o : Op) (write : Bool) (k : Nat) (hits : List (Fin 32 × Nat × Nat)) : State :=
  let at_ := (hits.map (·.2.2)).min?.getD 0
  let m := maskOf fun l => hits.any fun x => x.1 == l
  let info := { v.faultAt 0x62#8 (opSub o.instr).1 (opSub o.instr).2 m (lowestLane m).val with
    prov := o.prov, pc := codeAddress o.handle o.offset, address := BitVec.ofNat 64 at_,
    entry := (o.logSlot.map fun n => BitVec.ofNat 8 n).getD 0xFF#8,
    detail := BitVec.ofNat 64 (k + if write then 4 else 0), opId := o.id }
  if v.team.saving.isNone then s.takeFaultS v info
  else s.modFibre v.g fun f => { f with kept := f.kept ++ [({ v.record info with deferred := true }, o.id)] }

/-- The watch faults of lanes that have just performed: a lane takes that of the lowest watch it meets, and one record names the lanes
of one watch, in rising order of watch (R322). -/
def State.watchLanes (s : State) (v : View) (o : Op) (lanes : List (Fin 32)) (read write : Bool) : State :=
  let size := accessSize o.instr
  let hits := if v.fib.aborting then [] else lanes.filterMap fun l => (v.core.watchHit v.team.asid (o.addr l).toNat size read write).map fun h => (l, h.1, h.2)
  (v.core.watches.keys.filter fun k => hits.any fun h => h.2.1 == k).foldl (fun s k =>
    s.watchFault v o write k (hits.filter fun h => h.2.1 == k)) s

end Sys2Proof.Machine
end

