-- ==== Sys2Proof/Machine/Perform.lean ====
section
/-!
DEFINITION. How accesses of the memory class perform: page-table walks (R210), the lanes of one line of LD, ST and ATOM (R211,
R217-R221, R236, R249, R253), of one row of the scratchpads, LDC, PREF, CINV and CWB (R218, R222, R224); and what the detection of
a lane's fault finds (R230-R232, R429).
-/

namespace Sys2Proof.Machine

open Host (Outcome)

/-! ### Walks (R210) -/

/-- A miss of a core, in a sub-partition's TLB or in the second level alone (noSub), joins the walk of its page and space, or starts one
when the walker has a place. -/
def State.joinWalk (s : State) (core sub : Nat) (t : Team) (va : DWord) : State :=
  let page := pageOf va * 4096
  let at_ : Nat × Nat := (core, sub)
  s.modSlice (sliceOf core) fun x =>
    match x.walks.cells.find? fun w => w.2.asid == t.asid && w.2.world == t.desc.world && w.2.va == page && w.2.part == t.part with
    | some w =>
      if w.2.cores.contains at_ then x else { x with walks := x.walks.set w.1 { w.2 with cores := w.2.cores ++ [at_] } }
    | none =>
      if x.walks.cells.length ≥ Config.walkPlaces then x
      else
        { x with
          walks := x.walks.set x.walkId ⟨t.asid, t.desc.world, page, t.desc.root, t.part, [at_]⟩
          walkId := x.walkId + 1 }

/-- A miss of a group. -/
def State.startWalk (s : State) (v : View) (va : DWord) : State := s.joinWalk v.g.core v.g.sub v.team va

/-- The pages that a range or the bound regions of an operation still have before them, each as the part of the range in it: value counts
those it has done. -/
def Op.pagesLeft (o : Op) : List (DWord × Nat) :=
  let all_ : List (DWord × Nat) := match o.instr with
    | .cinv _ | .cwb _ => rangePieces (o.addr o.leaderLane).toNat (lane (o.data.getD 0 (lanesAll 0#32)) o.leaderLane).toNat
    | _ => o.regions.flatMap fun r => rangePieces r.1.toNat r.2
  all_.drop o.value

/-- Whether an operation has a lane, or a range, that waits for a page: an image's range is within its 16 MiB + 64 KiB (R329). -/
def Op.waitsPage (o : Op) (page : Nat) : Bool :=
  let lead := pageOf (o.addr o.leaderLane)
  match o.instr with
  | .cinv _ | .cwb _ => o.pagesLeft.any fun p => pageOf p.1 == page
  | .acq _ | .rel _ => lead == page || o.pagesLeft.any fun p => pageOf p.1 == page
  | .ctxsave _ | .ctxload _ => decide (lead ≤ page ∧ page ≤ lead + 4112)
  | _ => (maskLanes (o.pending &&& ~~~o.held)).any fun l => pageOf (o.addr l) == page

/-- A walk's fault recorded by an operation that waits for the page. -/
def Op.takeWalkFault (o : Op) (page : Nat) (c : Byte) : Op :=
  if o.waitsPage page && !o.walkFaults.any (fun x => x.1 == page) then { o with walkFaults := o.walkFaults ++ [(page, c)] } else o

/-- A walk's fault recorded for a page. -/
def addFault (l : List (Nat × Byte)) (page : Nat) (c : Byte) : List (Nat × Byte) :=
  if l.any fun x => x.1 == page then l else l ++ [(page, c)]

/-- A walk's fault reaches the contexts and the copies of a core that wait for the page. -/
def Core.walkFault (k : Core) (w : Walk) (c : Byte) : Core :=
  let page := w.va / 4096
  let mine (t : Team) : Bool := t.asid == w.asid && t.desc.world == w.world
  { k with
    teams := k.teams.mapVals fun _ t =>
      if mine t && t.gen.waitPage == some page then
        { t with gen := { t.gen with walkFaults := addFault t.gen.walkFaults page c, waitPage := none } }
      else t
    copies := k.copies.map fun o =>
      if (k.teams.find o.ctx).any mine && o.waitPages.contains page then
        { o with walkFaults := addFault o.walkFaults page c, waitPages := o.waitPages.erase page }
      else o }

/-- A walk's fault reaches every access that joined it: those of a sub-partition, or those served by a core's second level alone. -/
def State.walkFault (s : State) (w : Walk) (c : Byte) (core sub : Nat) : State :=
  let k := s.core core
  let page := w.va / 4096
  if sub = noSub then s.modCore core fun k => k.walkFault w c
  else
  (k.groups core).foldl (fun s p =>
    let t := k.teams.find p.2.1.ctx
    if p.1.sub = sub ∧ (t.map Team.asid) = some w.asid ∧ (t.map fun t => t.desc.world) = some w.world then
      s.modFibre p.1 fun f => { f with ops := f.ops.map fun o => o.takeWalkFault page c }
    else s) s

/-- What a core's second-level TLB gives for an address of a context or an engine: a translation, the fault of the walk that it
joined, or a miss (R64, R210). -/
inductive Xlate where
  | ok (e : TlbEntry)
  | fault (c : Byte)
  | miss
  deriving DecidableEq, Repr

def Core.xlate (k : Core) (t : Team) (va : DWord) (faults : List (Nat × Byte)) : Xlate :=
  if ¬ canonical va then .fault causeNonCanonical
  else match faults.find? fun w => w.1 == pageOf va with
    | some w => .fault w.2
    | none => match k.lookup2 t va with
      | some e => .ok e
      | none => .miss

/-! ### LD, ST and ATOM (R211, R217, R219-R221) -/

/-- What follows the performing of lanes: they are pending no more, and the operation completes when none is. -/
def State.settleAccess (s : State) (g : GroupRef) (o : Op) (lanes : List (Fin 32)) (last : State → State) : State :=
  let m := maskOf fun l => lanes.contains l
  let s := s.performed g o.id m
  if (o.pending &&& ~~~m) = 0#32 then (last s).finishAccess g o else s.unfreeze g

/-- The offsets in its line of the bytes of an access. -/
def lineOffs (va : DWord) (size : Nat) : List Nat := (List.range size).map fun i => va.toNat % 128 + i

/-- Lanes complete with zero and tag RAW, and the team ends with a record of an address and a detail (R406). -/
def State.loseLanesAt (s : State) (v : View) (o : Op) (lanes : List (Fin 32)) (cause : Byte) (pa detail : Nat) : State :=
  if !s.mayConsume v.g.core v.slot.ctx then s
  else
    let m := maskOf fun l => lanes.contains l
    let s := s.writeLanes v.g o [tagRaw] (lanes.map fun l => (l, []))
    (s.settleAccess v.g o lanes id).consumeAt v o cause m pa detail

/-- Lanes of a line lost. ADDRESS of the record is that of its lowest lane. -/
def State.loseLanes (s : State) (v : View) (o : Op) (lanes : List (Fin 32)) (cause : Byte) (pa : Nat) : State :=
  let at_ := pa / 128 * 128 + (o.addr (lowestLane (maskOf fun l => lanes.contains l))).toNat % 128
  s.loseLanesAt v o lanes cause at_ (s.consumeDetail (sliceOf v.g.core) v.team.part cause at_)

/-- An operation that is not answered, or that reads poison, ends whole: nothing of it happens and its team ends (R256, R363, R406). -/
def State.loseOpAt (s : State) (v : View) (o : Op) (cause : Byte) (pa detail : Nat) : State :=
  if !s.mayConsume v.g.core v.slot.ctx then s else (s.opDone v.g o.id).consumeAt v o cause (1#32 <<< o.leader) pa detail

/-- The same at a physical address; an access that the firewall refuses is logged. -/
def State.loseOp (s : State) (v : View) (o : Op) (cause : Byte) (pa : Nat) : State :=
  if !s.mayConsume v.g.core v.slot.ctx then s
  else
    let s := if cause = 0x87#8 then s.refuseAccess v.g.core 1 pa else s
    s.loseOpAt v o cause pa (s.consumeDetail (sliceOf v.g.core) v.team.part cause pa)

/-- Whether a load of a line is served by its home bank (R211). -/
def loadFromHome (k : Core) (line ch : Nat) (offs : List Nat) : Bool :=
  match k.l1.find line with
  | some l => ch == 3 || !l.holds offs
  | none => true

/-- The lanes of one line of an LD perform at one instant (R236). A .stream or .nol1 load first writes the line's dirty bytes back
(R211). -/
def State.performLd (s : State) (v : View) (o : Op) (f : Fields) (lanes : List (Fin 32)) (pa : Nat) : State :=
  let line := pa / 128
  let s := if f.ch = 1 ∨ f.ch = 3 then s.writeBackLine v.g.core line else s
  let size := 2 ^ f.sz
  let offs := lanes.flatMap fun l => lineOffs (o.addr l) size
  if loadFromHome (s.core v.g.core) line (s.hint v.g.core f.ch) offs && (s.line v.team.part pa).poison then s.loseLanes v o lanes 0x81#8 pa
  else
    let r := s.loadLine v.g.core line f.ch offs
    let vals := lanes.zipIdx.map fun l => (l.1, loadWords f.sz f.sx ((r.1.drop (size * l.2)).take size))
    let s := r.2.writeLanes v.g o [loadTag f.sz f.sx] vals
    let s := s.settleAccess v.g o lanes id
    s.watchLanes v o lanes true false

/-- Before a launch store, or an atomic with release semantics: whether the wait of the release action is over, and the state after its
write-back (R238, R249, R253). A write-back whose way is not open holds the action. -/
def State.releaseFor (s : State) (v : View) (id scope : Nat) : Option State :=
  if scope = 0 then some s
  else if v.fib.earlier id then none
  else if scope = 1 then some s
  else if s.cacheStuck v.g.core then none
  else some (s.releaseCache v.g.core)

/-- The lanes of one line of an ST perform as one write (R219, R236); a launch word among them is sent to the home bank after a
release action and queues one launch (R253, R254). -/
def State.performSt (s : State) (v : View) (o : Op) (f : Fields) (lanes : List (Fin 32)) (pa : Nat) : State :=
  let line := pa / 128
  let size := 2 ^ f.sz
  let launch (l : Fin 32) : Option (Nat × Nat) := s.coreLaunch v.g.core (line * 128 + (o.addr l).toNat % 128) size
  let cells := lanes.flatMap fun l => (lineOffs (o.addr l) size).zip (o.storeBytes size l)
  let put (s : State) (ch : Nat) : State := s.storeLine v.g.core line ch cells v.team.asid
  match lanes.filterMap fun l => (launch l).map fun w => (w, l) with
  | [] => ((put s f.ch).settleAccess v.g o lanes id).watchLanes v o lanes false true
  | hits =>
    match s.releaseFor v o.id 3 with
    | none => s
    | some s =>
      let words := (hits.map (·.1)).dedup
      let s := put s 3
      let r := words.foldl (fun (p : State × Bool) w =>
        let l := (hits.filter fun h => h.1 == w).getLast?.map (·.2)
        let q := p.1.queueLaunch v.team.part w.1 (BitVec.ofNat 64 (leNat (o.storeBytes 8 (l.getD 0)))) w.2
        (q.1, p.2 && q.2)) (s, true)
      let s := (r.1.settleAccess v.g o lanes id).watchLanes v o lanes false true
      if r.2 then s else s.consume v o 0x87#8 (maskOf fun l => hits.any fun h => h.2 == l) pa

/-- One lane of an atomic at a home bank: the old value, and the state after. The new value is written, be it the old one (R220). -/
def State.atomLane (s : State) (v : View) (o : Op) (f : Fields) (pa : Nat) (l : Fin 32) : Nat × State :=
  let n := if f.w64 then 8 else 4
  let old := leNat (s.readMem v.team.part pa n)
  let new := atomValue f.aop (8 * n) old (o.atomOperand f l) (o.atomCompare f l)
  (old, s.bankWrite v.team.part (pa / 128) ((leBytes n new).zipIdx.map fun b => (pa % 128 + b.2, b.1)) v.team.asid)

/-- The words of an atomic's old value. -/
def atomWords (f : Fields) (old : Nat) : List Word :=
  if f.w64 then [BitVec.ofNat 32 old, BitVec.ofNat 32 (old / 2 ^ 32)] else [BitVec.ofNat 32 old]

/-- The lanes of one line of an ATOM perform in one indivisible step, in ascending order, after the line has left the issuing
core's cache (R221), with the actions of its semantics (R249); an exchange of a launch word queues its launch (R254). -/
def State.performAtom (s : State) (v : View) (o : Op) (f : Fields) (lanes : List (Fin 32)) (pa : Nat) : State :=
  let line := pa / 128
  let scope := (f.imm20 &&& 7#20).toNat
  let at_ (l : Fin 32) : Nat := line * 128 + (o.addr l).toNat % 128
  let launches := lanes.filterMap fun l => (s.coreLaunch v.g.core (at_ l) (accessSize o.instr)).map fun w => (w, l)
  let rel := if launches.isEmpty then (if f.semA ≥ 2 ∧ o.stage = 0 then scope else 0) else 3
  if f.semA % 2 = 1 ∧ scope ≥ 2 ∧ s.cacheStuck v.g.core then s
  else match s.releaseFor v o.id rel with
  | none => s
  | some s =>
    let s := s.modFibre v.g fun b => b.modOp o.id fun p => { p with stage := 1 }
    let s := s.flushLines v.g.core [line]
    if (s.line v.team.part pa).poison then s.loseLanes v o lanes 0x81#8 pa
    else
      let r := lanes.foldl (fun (p : List (Fin 32 × List Word) × State) l =>
        let q := p.2.atomLane v o f (at_ l) l
        (p.1 ++ [(l, atomWords f q.1)], q.2)) ([], s)
      let q := launches.foldl (fun (p : State × Bool) h =>
        let q := p.1.queueLaunch v.team.part h.1.1 (BitVec.ofNat 64 (o.atomOperand f h.2)) h.1.2
        (q.1, p.2 && q.2)) (r.2, true)
      let s := q.1.writeLanes v.g o (atomTags f) r.1
      let last (s : State) : State := if f.semA % 2 = 1 ∧ scope ≥ 2 then s.acquireCache v.g.core else s
      let s := (s.settleAccess v.g o lanes last).watchLanes v o lanes true true
      if q.2 then s else s.consume v o 0x87#8 (maskOf fun l => launches.any fun h => h.2 == l) pa

/-- Whether the lanes of an access to a line send a request to its home: a load that its cache does not serve, or that first writes dirty
bytes back, a store past the cache or to a launch word, and every atomic (R211, R221, R253). -/
def State.farAccess (s : State) (v : View) (o : Op) (lanes : List (Fin 32)) (pa : Nat) : Bool :=
  let past (ch : Nat) : Bool := ch == 1 || ch == 3
  match o.instr with
  | .ld f => loadFromHome (s.core v.g.core) (pa / 128) (s.hint v.g.core f.ch) (lanes.flatMap fun l => lineOffs (o.addr l) (2 ^ f.sz))
      || (past f.ch && s.stuck v.g.core (pa / 128))
  | .st f => past (s.hint v.g.core f.ch) || lanes.any fun l =>
      (s.coreLaunch v.g.core (pa / 128 * 128 + (o.addr l).toNat % 128) (2 ^ f.sz)).isSome
  | _ => true

/-- Whether an access puts its line in the first-level cache: a default or .keep load or store (R211). -/
def allocates (i : Instr) : Bool :=
  match i with
  | .ld f | .st f => f.ch == 0 || f.ch == 2
  | _ => false

/-- The lanes of a global access that lie in the line of a lead lane perform, when nothing of R227 stands before them; a miss
starts a walk, and a line in no valid region gives an error response (R363, R406), as a request over a failed link does (R411); one to a
slice in recovery is held (R414), and so is one whose line cannot come into a full cache. -/
def State.performGlobal (s : State) (v : View) (o : Op) (lead : Fin 32) : State :=
  match s.checkLane v o lead with
  | .fault _ _ => s
  | .miss => s.startWalk v (o.addr lead)
  | .ready pa _ =>
    let lanes := (maskLanes (o.pending &&& ~~~o.held)).filter fun l => (s.checkLane v o l).line == some (pa / 128)
    let spans := lanes.map fun l => ((o.addr l).toNat / 128, (o.addr l).toNat / 128)
    if s.waitsFor v o spans [(pa / 128, pa / 128)] then s
    else if (s.violation v.team.part pa).isSome then
      if s.mayConsume v.g.core v.slot.ctx then (s.refuseAccess v.g.core 1 pa).loseLanes v o lanes 0x87#8 pa else s
    else if s.farAccess v o lanes pa && s.way (sliceOf v.g.core) v.team.part pa != .free then
      if s.way (sliceOf v.g.core) v.team.part pa = .held then s else s.loseLanes v o lanes 0x87#8 pa
    else if allocates o.instr && s.l1Room v.g.core != 0 && !s.l1Takes v.g.core (pa / 128) then s
    else match o.instr with
      | .ld f => s.performLd v o f lanes pa
      | .st f => s.performSt v o f lanes pa
      | .atom f => s.performAtom v o f lanes pa
      | _ => s

/-! ### The scratchpads (R204, R205, R219, R221, R225, R297) -/

/-- Bytes of a core's scratchpad. -/
def Core.scratchBytes (k : Core) (p n : Nat) : List Byte := (List.range n).map fun i => k.scratch.get (p + i) 0#8
def Core.putScratch (k : Core) (p : Nat) (bs : List Byte) : Core :=
  { k with scratch := bs.zipIdx.foldl (fun m b => m.set (p + b.2) b.1) k.scratch }

/-- The ranks of remote accesses and of copies among the writers of a scratchpad in one clock: after every sub-partition (R233), and the
copies last (R278). -/
def remoteRank : Nat := 32
def copyRank : Nat := 33

/-- Whether a writer of a rank comes too late in the present clock for words of the scratchpad: one that R233 or R278 puts after it has
written there. -/
def Core.rowPassed (k : Core) (rank : Nat) (words : List Nat) : Bool :=
  k.rowLog.any fun p => p.1 == k.clock && decide (rank < p.2.2) && words.any fun w => if p.2.2 = copyRank then w / 16 == p.2.1 / 16 else w == p.2.1

/-- What a writer of a rank has written is noted for the rest of the clock. -/
def Core.logRow (k : Core) (rank : Nat) (words : List Nat) : Core :=
  { k with rowLog := (k.rowLog.filter fun p => p.1 == k.clock) ++ words.map fun w => (k.clock, w, rank) }

/-- Whether a write of bytes is held by the read set of a matrix operation (R297). -/
def Core.scratchHeld (k : Core) (p n : Nat) : Bool :=
  k.subs.vals.any fun x => x.matrix.any fun o => o.holdsAt k.clock && o.reads.any fun r => decide (p < r.1 + r.2 ∧ r.1 < p + n)

/-- The 4-byte words of a core's scratchpad that accesses of a size at some places touch. -/
def wordsOf (places : List Nat) (size : Nat) : List Nat :=
  (places.flatMap fun p => (List.range (max 1 (size / 4))).map fun i => p / 4 + i).dedup

/-- The lanes of one scratchpad row of an access perform, in a core's scratchpad: 2^21 bytes of place for each core. A remote access over a
failed link gets an error response (R406, R411). -/
def State.performRow (s : State) (v : View) (o : Op) (lead : Fin 32) : State :=
  match s.checkLane v o lead with
  | .ready p _ =>
    let core := p / 2 ^ 21
    let core := match o.instr with
      | .ldr _ | .str _ => core
      | _ => v.g.core
    let place (l : Fin 32) : Option Nat := match s.checkLane v o l with
      | .ready q _ => some q
      | _ => none
    let lanes := (maskLanes (o.pending &&& ~~~o.held)).filter fun l => (place l).map (· / 64) == some (p / 64)
    let spans := match o.instr with
      | .ldr _ | .str _ => lanes.map fun l => ((o.addr l).toNat / 128, (o.addr l).toNat / 128)
      | _ => lanes.map fun l => ((o.addr l).toNat, (o.addr l).toNat)
    let size := accessSize o.instr
    let at_ (l : Fin 32) : Nat := (place l).getD 0 % 2 ^ 21
    let held := lanes.any fun l => (s.core core).scratchHeld (at_ l) size
    let words := wordsOf (lanes.map at_) size
    let rank := match o.instr with
      | .ldr _ | .str _ => remoteRank
      | _ => v.g.sub
    let logged (s : State) : State := s.modCore core fun k => k.logRow rank words
    let way := s.wayTo v.team.part (sliceOf v.g.core) (sliceOf core)
    if s.waitsFor v o spans [] then s
    else if way.errs then s.loseLanesAt v o lanes 0x87#8 0 way.detail
    else if way = .held then s
    else match o.instr with
      | .lds f | .ldr f =>
        let s := if rank = remoteRank then logged s else s
        let vals := lanes.map fun l => (l, loadWords f.sz f.sx ((s.core core).scratchBytes (at_ l) size))
        (s.writeLanes v.g o [loadTag f.sz f.sx] vals).settleAccess v.g o lanes id
      | .sts _ | .str _ =>
        if held || (s.core core).rowPassed rank words then s
        else
          let s := (logged s).modCore core fun k => lanes.foldl (fun k l => k.putScratch (at_ l) (o.storeBytes size l)) k
          s.settleAccess v.g o lanes id
      | .atoms f =>
        if held || (s.core core).rowPassed rank words then s
        else
          let s := logged s
          let r := lanes.foldl (fun (q : List (Fin 32 × List Word) × Core) l =>
            let old := leNat (q.2.scratchBytes (at_ l) size)
            let new := atomValue f.aop (8 * size) old (o.atomOperand f l) (o.atomCompare f l)
            (q.1 ++ [(l, atomWords f old)], q.2.putScratch (at_ l) (leBytes size new))) ([], s.core core)
          ((s.setCore core r.2).writeLanes v.g o (atomTags f) r.1).settleAccess v.g o lanes id
      | _ => s
  | _ => s

/-! ### LDC, PREF, CINV and CWB (R218, R222, R224) -/

/-- What a fill of the constant cache meets at the line of a word: nothing, poison (0x81) or an error response (0x87). -/
def State.fillCause (s : State) (slice part pa : Nat) : Option Byte :=
  if (s.way slice part pa).errs then some 0x87#8
  else if (s.line part pa).poison then some 0x81#8
  else none

/-- A read of a word of a constant window: the word, when it is present or its line comes from its home bank now, and the state after
what is missing has been sought: its page through the second-level TLB, then its line (R37, R218). A poisoned line or an error response
ends the team (R406), as one that a PTE of its page meets does. -/
def State.takeConst (s : State) (v : View) (o : Op) (k off : Nat) : Option Word × State :=
  let here := sliceOf v.g.core
  let lose (c : Byte) (pa : Nat) : State :=
    if s.mayConsume v.g.core v.slot.ctx then
      ((if c = 0x87#8 then s.refuseAccess v.g.core 1 pa else s).consume v o c o.active pa) else s
  match s.constAt v.g.core v.team o.sup k off, v.team.constAddress k off with
  | .zero, _ => (some 0#32, s)
  | .hit w, _ => (some w, s)
  | .miss, none => (some 0#32, s)
  | .miss, some va => match (s.core v.g.core).lookup2 v.team va with
    | none => match s.walkEnd here v.team.part v.team.desc.root v.team.desc.world va with
      | .lost c pa => (none, lose c pa)
      | _ => (none, s.joinWalk v.g.core noSub v.team va)
    | some e =>
      let pa := e.phys va
      if s.way here v.team.part pa = .held then (none, s)
      else match s.fillCause here v.team.part pa with
      | some c => (none, lose c pa)
      | none => (some (BitVec.ofNat 32 (leNat (s.readMem v.team.part pa 4))),
          s.modCore v.g.core fun c => { c with constCache := s.fillLine v.team.part (pa / 128) (c.room constUnit) c.constCache })

/-- A word of a constant window that a group waits for is sought. -/
def State.fillConst (s : State) (v : View) (o : Op) (k off : Nat) : State := (s.takeConst v o k off).2

/-- The window and the offset of word k of a lane of an LDC, none where R218 gives zero whatever the window holds: both words of an
access whose own index is negative are zero (DEDUCED: notes/assumptions). -/
def constRef (f : Fields) (a k : Nat) : Option (Nat × Nat) :=
  let i : Int := (a % 2 ^ 17 : Nat) + f.imm20.toInt
  if a / 2 ^ 20 ≠ 0 ∨ i < 0 then none else some (a / 2 ^ 17, i.toNat + k)

/-- The words of a list of references to constant windows, each read in its turn as it comes; none for one that is not there yet. -/
def State.takeConsts (s : State) (v : View) (o : Op) : List (Option (Nat × Nat)) → List (Option Word) × State
  | [] => ([], s)
  | none :: r => let q := s.takeConsts v o r; (some 0#32 :: q.1, q.2)
  | some x :: r =>
    let p := if (s.view v.g).isSome then s.takeConst v o x.1 x.2 else (none, s)
    let q := p.2.takeConsts v o r
    (p.1 :: q.1, q.2)

/-- LDC performs when each of its words is present: every lane's words are read (R218), and what is missing is sought. A team that the
search ends takes zero, tag RAW (R406). -/
def State.performLdc (s : State) (v : View) (o : Op) (f : Fields) : State :=
  let lanes := maskLanes o.pending
  let n := szRegs f.sz
  let q := s.takeConsts v o (lanes.flatMap fun l => (List.range n).map fun k => constRef f (o.addr l).toNat k)
  let ended := !(q.2.view v.g).any fun w => !w.fib.aborting
  if !ended && q.1.any Option.isNone then q.2
  else
    let word (i : Nat) : Word := if ended then 0#32 else (q.1.getD i none).getD 0#32
    let vals := lanes.zipIdx.map fun l => (l.1, (List.range n).map fun k => word (n * l.2 + k))
    (q.2.writeLanes v.g o [tagRaw] vals).settleAccess v.g o lanes id

/-- PREFDROP counts a dropped lane or a refused pin, and holds at its top (R223). -/
def Slice.countDrop (x : Slice) : Slice :=
  { x with prefdrop := if x.prefdrop = 0xFFFFFFFF#32 then x.prefdrop else x.prefdrop + 1#32 }

/-- Whether a pin is refused: what the counts of the line's bank settle, none where it turns on which set a line takes, which is not
published (R212, R222). A bank has 512 sets of 12 ways (R9), and a pin leaves 6 ways of its set neither pinned nor quarantined: with q
ways quarantined a set takes 6 - q pins. -/
def State.pinRefused (s : State) (part pa : Nat) : Option Bool :=
  let home := s.homeSlice part pa
  let pinned := (s.pins.keys.filter fun k => decide (k / 2 ^ 50 = memKey part 0 / 128 / 2 ^ 50) && homeBank (k % 2 ^ 50 * 128) == homeBank pa
    && s.homeSlice part (k % 2 ^ 50 * 128) == home && k != lineKey part pa).length
  let quar := match home with
    | some n => ((s.slice n).err.qmap.get (homeBank pa) 0#12).toNat
    | none => 0
  let free := 6 - (List.range 12).countP fun i => quar.testBit i
  if (s.pins.find (lineKey part pa)).isSome ∨ pinned < free then some false
  else if 512 * free ≤ pinned then some true
  else none

/-- The action of PREF on the line of a physical address (R222). A pin of a line that is pinned takes the new space's identifier, and a
refused pin counts at the issuing slice, of which R222 says neither (DESIGN CHOICE: notes/assumptions). -/
def State.prefLine (s : State) (v : View) (mode pa : Nat) : State :=
  let part := v.team.part
  match mode with
  | 0 =>
    if s.l1Room v.g.core = 0 ∨ s.l1Takes v.g.core (pa / 128) = false then s
    else s.putLine v.g.core (pa / 128) (s.filled part (pa / 128) (((s.core v.g.core).l1.find (pa / 128)).getD L1Line.empty))
  | 2 =>
    let n := s.fresh
    let refused := (s.pinRefused part pa).getD ((Config.freeWord n.1).getLsbD 0)
    if refused then n.2.modSlice (sliceOf v.g.core) Slice.countDrop
    else { n.2 with pins := n.2.pins.set (lineKey part pa) v.team.asid }
  | 3 => { s with pins := s.pins.erase (lineKey part pa) }
  | _ => s

/-- What a lane of a PREF finds for its address: the walk that its miss joined, its sub-partition's TLB, then the second level (R210). -/
def State.prefXlate (s : State) (v : View) (o : Op) (l : Fin 32) : Xlate :=
  let va := o.addr l
  if ¬ canonical va then .fault causeNonCanonical
  else match o.walkFaults.find? fun w => w.1 == pageOf va with
    | some w => .fault w.2
    | none => match (s.core v.g.core).lookup v.g.sub v.team.asid v.team.desc.world va with
      | some e => .ok e
      | none => .miss

/-- PREF of a lane whose line no earlier lane names; a lane that fails a check, or whose line is poisoned, is dropped (R222, R406). -/
def State.prefLane (s : State) (v : View) (mode : Nat) (done : List Nat) (va : DWord) (sup : Bool) (x : Xlate) : List Nat × State :=
  let drop (s : State) : List Nat × State := (done, s.modSlice (sliceOf v.g.core) Slice.countDrop)
  match x with
  | .fault _ => drop s
  | .miss => drop s
  | .ok e =>
    let pa := e.phys va
    if (permCause e sup true false v.team.desc.world).isSome then
      drop (s.modCore v.g.core fun k => k.dropTlb v.team.asid v.team.desc.world va)
    else if (s.way (sliceOf v.g.core) v.team.part pa).errs then drop (s.refuseAccess v.g.core 1 pa)
    else if (s.aliasCause v.team.part pa e).isSome || (s.line v.team.part pa).poison then drop s
    else if done.contains (pa / 128) then (done, s)
    else (pa / 128 :: done, s.prefLine v mode pa)

/-- Whether a line of a PREF is homed on a slice in recovery, whose requests its firewall holds (R414). -/
def State.prefHeld (s : State) (v : View) (o : Op) (lanes : List (Fin 32)) : Bool :=
  lanes.any fun l => match s.prefXlate v o l with
    | .ok e => s.way (sliceOf v.g.core) v.team.part (e.phys (o.addr l)) == .held
    | _ => false

/-- PREF performs for every active lane when no page of them waits for a walk. -/
def State.performPref (s : State) (v : View) (o : Op) (f : Fields) : State :=
  let lanes := maskLanes o.pending
  match lanes.filter fun l => s.prefXlate v o l == .miss with
  | [] => if s.prefHeld v o lanes then s else
    let r := lanes.foldl (fun (p : List Nat × State) l => p.2.prefLane v f.sub.toNat p.1 (o.addr l) o.sup (s.prefXlate v o l)) ([], s)
    r.2.settleAccess v.g o lanes id
  | missing => missing.foldl (fun s l => s.startWalk v (o.addr l)) s

/-- The lines of a core's cache that pieces of physical memory overlap. -/
def Core.linesOf (k : Core) (pieces : List (Nat × Nat)) : List Nat :=
  k.l1.keys.filter fun l => pieces.any fun p => decide (0 < p.2 ∧ p.1 / 128 ≤ l ∧ l ≤ (p.1 + p.2 - 1) / 128)

/-- One page of a range is done. -/
def State.pageDone (s : State) (g : GroupRef) (id : Nat) : State := s.modFibre g fun f => f.modOp id fun o => { o with value := o.value + 1 }

/-- The action of a group's operation on the pages that it has before it, in order, as far as each page passes: its lines are written
back, and dropped under CINV and the acquire action (R224, R238). Whether the last is done, and the state. A miss starts a walk; a
page waits for an earlier access of R227, and for a write-back whose way is not open. -/
def State.pageActions (s : State) (v : View) (o : Op) (drop read write : Bool) : List (DWord × Nat) → Bool × State
  | [] => (true, s)
  | p :: r => match s.checkPage v o p.1 read write with
    | .fault _ _ => (false, s)
    | .miss => (false, s.startWalk v p.1)
    | .ready pa _ =>
      let spans := [(p.1.toNat / 128, (p.1.toNat + p.2 - 1) / 128)]
      let phys := [(pa / 128, (pa + p.2 - 1) / 128)]
      let lines := (s.core v.g.core).linesOf [(pa, p.2)]
      if s.waitsFor v o spans phys || s.anyStuck v.g.core lines then (false, s)
      else
        let s := if drop then s.flushLines v.g.core lines else s.writeBackLines v.g.core lines
        (s.pageDone v.g o.id).pageActions v o drop read write r

/-- CINV and CWB perform page by page (R224). -/
def State.performRange (s : State) (v : View) (o : Op) (drop : Bool) : State :=
  let q := s.pageActions v o drop drop true o.pagesLeft
  if q.1 then q.2.settleAccess v.g o [o.leaderLane] id else q.2

/-! ### Detection of a fault (R230-R232, R429) -/

/-- What a lane fails: the cause, the address and detail of its record, and an address in the page that failed. -/
structure LaneFault where
  cause   : Byte
  address : DWord
  detail  : Nat
  page    : DWord
  deriving DecidableEq, Repr

/-- What a lane of an operation fails now. A range, and the bound regions of a cell whose action is outstanding, fail their leader
lane: a range with that lane's address (R231), a region with the page (R244). -/
def State.laneFault (s : State) (v : View) (o : Op) (l : Fin 32) : Option LaneFault :=
  let lane_ : Option LaneFault := match s.checkLane v o l with
    | .fault c d => some ⟨c, o.addr l, d, o.addr l⟩
    | _ => none
  let range (ps : List (DWord × Nat)) (read write : Bool) : Option LaneFault :=
    match s.checkPieces v o read write ps with
    | .fault c p => some ⟨c, p, 0, p⟩
    | _ => none
  let own (f : Option LaneFault) : Option LaneFault := f.map fun x => { x with address := o.addr l }
  match o.instr with
  | .cinv _ => own (range o.pagesLeft true true)
  | .cwb _ => own (range o.pagesLeft false true)
  | .acq _ => if o.stage = 2 then range o.pagesLeft true false else if o.stage = 0 then lane_ else none
  | .rel _ => if v.fib.earlier o.id then none else (range o.pagesLeft true false).or lane_
  | .await _ | .awake _ => if o.stage = 0 then lane_ else none
  | .mbind _ =>
    let base := src64 o.data 0 l
    let len := (src o.data 2 l).toNat
    if len = 0 then none
    else if ¬ canonical base then some ⟨causeNonCanonical, base, 0, base⟩
    else if base.toNat % 128 ≠ 0 ∨ len % 128 ≠ 0 ∨ len > 0xFFFFFF80 then some ⟨causeMisaligned, base, 0, base⟩
    else none
  | .ld _ | .st _ | .atom _ | .lds _ | .sts _ | .atoms _ | .ldr _ | .str _ => lane_
  | _ => none

/-- A cached translation whose use failed a check of R209 leaves every TLB of the core (R210). -/
def State.dropFailing (s : State) (v : View) (va : DWord) (c : Byte) : State :=
  if c = causeURW ∨ c = causeAttr3 ∨ c = causeWorld ∨ c = causeAD then
    s.modCore v.g.core fun k => k.dropTlb v.team.asid v.team.desc.world va
  else s

/-- Whether the fault of a lane is known in the clock after its issue: a check of the address alone, or a permission, A/D or launch-word
check on a translation that the sub-partition's TLB holds; and in the clock in which a walk has returned a fault (R429). -/
def State.faultKnown (s : State) (v : View) (o : Op) (x : LaneFault) : Bool :=
  let c := x.cause
  if c = causeNonCanonical ∨ c = causeMisaligned ∨ c = causeScratch ∨ c = causeRemote then true
  else if c = causeAliasAttr ∨ c = causeAliasWorld then false
  else o.walkFaults.any (fun w => w.1 == pageOf x.page)
    || ((s.core v.g.core).sub v.g.sub).tlb.any fun e => e.covers v.team.asid v.team.desc.world x.page

/-- The operations of a core with a lane, not held, whose fault the end of its present clock shows at the latest (R429). -/
def State.dueChecks (s : State) (core : Nat) : List (GroupRef × Nat) :=
  ((s.core core).groups core).flatMap fun p => match s.view p.1 with
    | none => []
    | some v => (v.fib.ops.filter fun o => decide (o.issued < v.core.clock)
        && (maskLanes (o.pending &&& ~~~o.held)).any fun l => (s.laneFault v o l).any fun x => s.faultKnown v o x).map fun o => (p.1, o.id)

/-- Lanes of an operation of a group that is made to exit never perform; the operation ends with its last (R232, R338). -/
def State.discardLanes (s : State) (g : GroupRef) (o : Op) (m : Mask) : State :=
  let s := s.performed g o.id m
  if (o.pending &&& ~~~m) = 0#32 then s.opDone g o.id else s

/-- A refused access of a launch word is counted at the word (R254). -/
def State.countRefused (s : State) (v : View) (o : Op) (x : LaneFault) : State :=
  if x.cause = causeLaunchWord then
    match (s.core v.g.core).lookup v.g.sub v.team.asid v.team.desc.world x.page with
    | some e => (s.coreLaunches v.g.core (e.phys x.page) (accessSize o.instr)).foldl (fun s w =>
        s.refuseLaunch v.team.part w.1 (e.phys x.page)) s
    | none => s
  else s

/-- RESUME of a held entry (R232): its lanes are issued again and checked afresh. -/
def Fibre.reissue (f : Fibre) (id : Nat) : Fibre :=
  f.modOp id fun o => { o with held := 0#32, redo := o.redo ||| o.held, walkFaults := [] }

/-- Whether a line may leave a core's cache of itself: it is clean, and a .keep line goes last (R211, R237). -/
def Core.mayDrop (k : Core) (l : L1Line) : Bool := l.dirty.isEmpty && (!l.keep || k.l1.vals.all fun x => x.keep)

/-- L1_SPONTANEOUS_WRITEBACK (R237): a cache writes back a line's dirty bytes, or drops a clean line, at any instant. -/
def execL1SpontaneousWriteback (core line : Nat) (drop : Bool) (s : State) : Outcome State Fault Refusal :=
  match (s.core core).l1.find line with
  | none => .next s
  | some l =>
    if drop then (if (s.core core).mayDrop l then .next (s.dropLine core line) else .next s) else .next (s.writeBackLine core line)

/-- RESULT_LAND (R106): at the end of a clock, the oldest result of a group's place lands when it is due: one of a group that has left
comes before those of the group that is there. -/
def execResultLand (g : GroupRef) (s : State) : Outcome State Fault Refusal :=
  let k := s.core g.core
  let due (n : Nat) : Bool := decide (n < k.clock) || (k.closing && n == k.clock)
  match (k.sub g.sub).lateOf g with
  | some r => if due r.due then .next (s.landLate g r) else .next s
  | none => match (s.fibre? g).bind fun f => f.results.head? with
    | some r => if due r.due then .next ((s.landOne g).settleAborted g) else .next s
    | none => .next s

end Sys2Proof.Machine
end

