-- ==== Sys2Proof/Machine/Ordering.lean ====
section
/-!
DEFINITION. Ordering and synchronisation (R234-R259): the issue of the nine instructions of the class, sync cells and their
grants, the binding table, barriers, the rendezvous table, and the event that makes an access of the memory or ordering class
perform.
-/

namespace Sys2Proof.Machine

open Host (Outcome)

/-! ### The binding table (R240, R247) -/

/-- The bound regions of a cell in a team's table, in the order of their slots. -/
def Team.regionsOf (t : Team) (cell : DWord) : List (DWord × Nat) :=
  match t.bindings.find? fun b => b.cell == cell with
  | some b => b.slots.vals
  | none => []

/-- A region slot of a cell cleared; an entry without slots is freed. -/
def Team.unbind (t : Team) (cell : DWord) (k : Nat) : Team :=
  let bs := t.bindings.map fun b => if b.cell = cell then { b with slots := b.slots.erase k } else b
  { t with bindings := bs.filter fun b => !b.slots.cells.isEmpty }

/-- A region bound to a slot of a cell; none when all 16 entries name other cells. -/
def Team.bind (t : Team) (cell : DWord) (k : Nat) (r : DWord × Nat) : Option Team :=
  if t.bindings.any fun b => b.cell == cell then
    some { t with bindings := t.bindings.map fun b => if b.cell = cell then { b with slots := b.slots.set k r } else b }
  else if t.bindings.length < 16 then some { t with bindings := t.bindings ++ [⟨cell, ⟨[(k, r)]⟩⟩] }
  else none

/-! ### Issue (R243, R244) -/

/-- An operation of the leader lane at a cell, with the bound regions that its scope makes it act on. -/
def cellOp (v : View) (i : Instr) (f : Fields) (act : Mask) (ls : List Lanes) (fl : Word) : Op :=
  let o := (newOp v i act (globalAddrs f ls) [] [] fl).leaderOnly v
  { o with regions := if 2 ≤ f.sc then v.team.regionsOf (o.addr v.leader) else [] }

/-- ACQ (R245): the request is in flight. -/
def execAcq (f : Fields) (s : State) : Outcome State Fault Refusal :=
  s.withSources (.acq f) f (pairSrcs f.a) fun v act ls fl => .next (s.startLogged v (.acq f) f act (cellOp v (.acq f) f act ls fl))

/-- REL (R246). -/
def execRel (f : Fields) (s : State) : Outcome State Fault Refusal :=
  s.withSources (.rel f) f (pairSrcs f.a) fun v act ls fl => .next (s.startLogged v (.rel f) f act (cellOp v (.rel f) f act ls fl))

/-- The leader lane's word of a source, when it can be read. -/
def State.leaderWord (s : State) (f : Fields) (srcs : List Src) : Option Word :=
  match s.curView with
  | none => none
  | some v => (s.readSrcs v (v.active f.guard) srcs).map fun r => src r.1 0 v.leader

/-- MBIND (R247): no log entry; under a length of 0 the base is not read as an address. -/
def execMbind (f : Fields) (s : State) : Outcome State Fault Refusal :=
  let base := if s.leaderWord f (src3 f .n32 [.tag tagN32]) = some 0#32 then (fieldRegs f.b 2).map (Src.reg · .any) else pairSrcs f.b
  s.withSources (.mbind f) f (pairSrcs f.a ++ base ++ src3 f .n32 [.tag tagN32]) fun v act ls fl =>
    .next (s.startPlain v (.mbind f) f act
      ((newOp v (.mbind f) act (laneAddrs fun l => src64 ls 0 l) (ls.drop 2) [f.d] fl).leaderOnly v))

/-- MUNBIND (R247). -/
def execMunbind (f : Fields) (s : State) : Outcome State Fault Refusal :=
  s.withSources (.munbind f) f (pairSrcs f.a) fun v act ls fl =>
    .next (s.startPlain v (.munbind f) f act ((newOp v (.munbind f) act (laneAddrs fun l => src64 ls 0 l) [] [] fl).leaderOnly v))

/-- FENCE (R248): it acts whatever the mask and the guard hold. -/
def execFence (f : Fields) (s : State) : Outcome State Fault Refusal :=
  s.withSources (.fence f) f [] fun v act _ fl =>
    .next (s.startOp v (.fence f) ((f.signal).getD 0) ((newOp v (.fence f) act [] [] [] fl).leaderOnly v))

/-- BAR (R251). -/
def execBar (f : Fields) (s : State) : Outcome State Fault Refusal :=
  s.withSources (.bar f) f [] fun v act _ fl =>
    .next (s.startOp v (.bar f) ((f.signal).getD 0) ((newOp v (.bar f) act [] [] [] fl).leaderOnly v))

/-- CBAR (R251). -/
def execCbar (f : Fields) (s : State) : Outcome State Fault Refusal :=
  s.withSources (.cbar f) f [] fun v act _ fl =>
    .next (s.startOp v (.cbar f) ((f.signal).getD 0) ((newOp v (.cbar f) act [] [] [] fl).leaderOnly v))

/-- AWAIT (R256): the expected value is untyped. -/
def execAwait (f : Fields) (s : State) : Outcome State Fault Refusal :=
  s.withSources (.await f) f (pairSrcs f.a ++ [.reg f.b .any]) fun v act ls fl =>
    .next (s.startLogged v (.await f) f act
      ((newOp v (.await f) act (laneAddrs fun l => src64 ls 0 l) (ls.drop 2) [f.d] fl).leaderOnly v))

/-- AWAKE (R257). -/
def execAwake (f : Fields) (s : State) : Outcome State Fault Refusal :=
  s.withSources (.awake f) f (pairSrcs f.a) fun v act ls fl =>
    .next (s.startLogged v (.awake f) f act ((newOp v (.awake f) act (laneAddrs fun l => src64 ls 0 l) [] [f.d] fl).leaderOnly v))

/-! ### A context's step (R66, R95) -/

/-- A context goes to a word, which is its own from a clock on; what it waited for is over. -/
def Team.genTo (t : Team) (pc at_ : Nat) : Team :=
  { t with gen := { t.gen with pc := pc, run := .ready at_, done := 0, busy := false, waitPage := none, walkFaults := [] } }

/-- A context's instruction completes: the next word is its own a number of clocks later. -/
def Team.genStep (t : Team) (at_ : Nat) : Team := t.genTo (t.gen.pc + 1) at_

/-- The instruction is held: it issues again at the next clock. -/
def State.genHold (s : State) (c : CtxRef) (clock : Nat) : State :=
  s.modTeam c.core c.ctx fun t => { t with gen := { t.gen with run := .ready (clock + 1) } }

/-- The instruction's access is in flight: a save lets it complete first (R98). -/
def State.genBusy (s : State) (c : CtxRef) (clock : Nat) : State :=
  (s.genHold c clock).modTeam c.core c.ctx fun t => { t with gen := { t.gen with busy := true } }

/-- A context's access fails: a bad generator memory access (R95), or a refused write of a launch word. -/
def State.badGenAccess (s : State) (c : CtxRef) (i : Instr) (va : DWord) (count : Nat) : State :=
  s.takeFaultG c 1#8 (opSub i).1 (opSub i).2 va count none

/-- What the translation of a context's access gives: the physical address and the translation, the cause of a bad access, or a miss,
whose walk the context waits for (R64, R210). -/
inductive GenXlate where
  | ok (pa : Nat) (e : TlbEntry)
  | bad (c : Byte)
  | wait
  deriving DecidableEq, Repr

/-- The translation of a context's access by its core's second-level TLB, with its permissions (R64). -/
def State.genXlate (s : State) (c : CtxRef) (t : Team) (va : DWord) (read write : Bool) : GenXlate × State :=
  match (s.core c.core).xlate t va t.gen.walkFaults with
  | .fault x => (.bad x, s)
  | .miss => (.wait, (s.joinWalk c.core noSub t va).modTeam c.core c.ctx fun t => { t with gen := { t.gen with waitPage := some (pageOf va) } })
  | .ok e => match permCause e t.gen.sup read write t.desc.world with
    | some x => (.bad x, s.modCore c.core fun k => k.dropTlb t.asid t.desc.world va)
    | none => (.ok (e.phys va) e, s)

/-- What the pages of bound regions give a context's action: all are done, one fails, or one is to wait for. -/
inductive GenPages where
  | ok
  | bad (page : DWord)
  | wait
  deriving DecidableEq, Repr

/-- A context's action on the pages of byte ranges, in order as far as each passes: the lines of a page are written back, and dropped under
the acquire action (R238); done counts the pages behind it. -/
def State.genPages (s : State) (c : CtxRef) (t : Team) (drop : Bool) : List (DWord × Nat) → GenPages × State
  | [] => (.ok, s)
  | p :: r => match s.genXlate c t p.1 true false with
    | (.bad _, s) => (.bad (p.1 &&& ~~~4095#64), s)
    | (.wait, s) => (.wait, s)
    | (.ok pa _, s) =>
      let lines := linesIn (s.core c.core).l1.keys pa p.2
      if s.anyStuck c.core lines then (.wait, s)
      else
        let s := if drop then s.flushLines c.core lines else s.writeBackLines c.core lines
        (s.modTeam c.core c.ctx fun x => { x with gen := { x.gen with done := x.gen.done + 1 } }).genPages c t drop r

/-- The pages of bound regions. -/
def regionPages (rs : List (DWord × Nat)) : List (DWord × Nat) := rs.flatMap fun r => rangePieces r.1.toNat r.2

/-! ### Sync cells (R239, R241) -/

/-- EXCL and SHARED of a STATE word, and the word with both replaced; bits [62:32] are kept. -/
def cellExcl (w : DWord) : Bool := w.getLsbD 63
def cellShared (w : DWord) : Nat := w.toNat % 2 ^ 32
def cellWith (w : DWord) (excl : Bool) (shared : Nat) : DWord :=
  (w &&& 0x7FFFFFFF00000000#64) ||| (if excl then 0x8000000000000000#64 else 0#64) ||| BitVec.ofNat 64 (shared % 2 ^ 32)

/-- STATE of the cell at a physical address. -/
def State.cellState (s : State) (part pa : Nat) : DWord := BitVec.ofNat 64 (leNat (s.readMem part pa 8))
/-- An aligned 8-byte value written at its home bank. -/
def State.bankWord (s : State) (part pa : Nat) (w : DWord) (owner : BitVec 12) : State :=
  s.bankWrite part (pa / 128) ((leBytes 8 w.toNat).zipIdx.map fun b => (pa % 128 + b.2, b.1)) owner

/-- The address-space identifier of an agent that is of a team. -/
def State.agentAsid (s : State) : Agent → BitVec 12
  | .group g => ((s.view g).map fun v => v.team.asid).getD 0#12
  | .ctx c => ((s.team? c.core c.ctx).map Team.asid).getD 0#12
  | _ => 0#12

/-- The acquire action of a context's GACQ after its grant, over its bound regions; a page that fails is the instruction's fault,
and the cell stays granted (R74, R244). -/
def State.finishGacq (s : State) (c : CtxRef) (t : Team) (sub : Byte) (regions : List (DWord × Nat)) : State :=
  let n := max 1 t.gen.done
  let s := s.modTeam c.core c.ctx fun t => { t with gen := { t.gen with done := n } }
  match s.genPages c t true ((if 2 ≤ (sub >>> 5).toNat then regionPages regions else []).drop (n - 1)) with
  | (.bad page, s) => s.takeFaultG c 1#8 0x16#8 sub page 0 none
  | (.wait, s) => s.genHold c (s.core c.core).clock
  | (.ok, s) => s.modTeam c.core c.ctx fun t => t.genStep ((s.core c.core).clock + 1)

/-- An agent's request has been granted: a group's ACQ has its acquire action left; a context performs its own. -/
def State.cellGranted (s : State) (r : CellReq) : State :=
  match r.agent with
  | .group g => s.modFibre g fun f => f.modOp r.opId fun o => { o with stage := 2 }
  | .ctx c => match s.team? c.core c.ctx with
    | some t => match t.gen.run with
      | .waitCell sub regions => s.finishGacq c t sub regions
      | _ => s
    | none => s
  | _ => s

/-- Whether the request at the head of a cell's queue can be granted; one behind it never can when it cannot, since an exclusive
request holds up the shared ones behind it and a shared one fails only while every request fails. -/
def CellReq.grantable (r : CellReq) (w : DWord) : Bool :=
  !cellExcl w && if r.excl then cellShared w == 0 else decide (cellShared w < 0xFFFFFFFF)

/-- The requests of a cell granted in order, as many as its queue holds at most. -/
def State.grantCell (s : State) (part pa : Nat) : Nat → State
  | 0 => s
  | n + 1 => match s.cells.get (memKey part pa) [] with
    | [] => s
    | r :: rest =>
      let w := s.cellState part pa
      if r.grantable w then
        let w := if r.excl then cellWith w true (cellShared w) else cellWith w false (cellShared w + 1)
        let s := s.bankWord part pa w (s.agentAsid r.agent)
        let s := { s with cells := if rest.isEmpty then s.cells.erase (memKey part pa) else s.cells.set (memKey part pa) rest }
        (s.cellGranted r).grantCell part pa n
      else s

/-- Every request of a cell that can be granted is granted. -/
def State.grantAll (s : State) (part pa : Nat) : State := s.grantCell part pa (s.cells.get (memKey part pa) []).length

/-- A request arrives at a cell's home bank. -/
def State.requestCell (s : State) (part pa : Nat) (r : CellReq) : State :=
  let s := { s with cells := s.cells.set (memKey part pa) (s.cells.get (memKey part pa) [] ++ [r]) }
  s.grantAll part pa

/-- A release arrives at a cell's home bank (R246). -/
def State.releaseCell (s : State) (part pa : Nat) (owner : BitVec 12) : State :=
  let w := s.cellState part pa
  let s := if cellExcl w then s.bankWord part pa (cellWith w false (cellShared w)) owner
    else if 0 < cellShared w then s.bankWord part pa (cellWith w false (cellShared w - 1)) owner
    else s
  s.grantAll part pa

/-- CELL_GRANT (R241): the waiting requests of a cell that can be granted are. -/
def execCellGrant (part cell : Nat) (s : State) : Outcome State Fault Refusal := .next (s.grantAll part cell)

/-! ### The leader lane's word -/

/-- An operation at the leader lane's physical address, when its checks pass. -/
def State.atLeader (s : State) (v : View) (o : Op) (reads : Bool) (k : Nat → State) : State :=
  match s.checkLane v o o.leaderLane with
  | .fault _ _ => s
  | .miss => s.startWalk v (o.addr o.leaderLane)
  | .ready pa _ =>
    let way := s.way (sliceOf v.g.core) v.team.part pa
    if way.errs then s.loseOp v o 0x87#8 pa
    else if way = .held then s
    else if reads && (s.line v.team.part pa).poison then s.loseOp v o 0x81#8 pa
    else k pa

/-! ### ACQ, REL, MBIND, MUNBIND and FENCE (R245-R248) -/

/-- An operation reaches a stage. -/
def State.setStage (s : State) (g : GroupRef) (id stage : Nat) : State :=
  s.modFibre g fun f => f.modOp id fun o => { o with stage := stage }

/-- ACQ: the request is sent; after the grant, the acquire action over the bound regions, page by page (R245). -/
def State.performAcq (s : State) (v : View) (o : Op) (f : Fields) : State :=
  match o.stage with
  | 0 => if v.team.saving.isSome then s else s.atLeader v o true fun pa =>
      (s.setStage v.g o.id 1).requestCell v.team.part pa ⟨.group v.g, o.id, f.var3 == 1⟩
  | 2 =>
    let q := s.pageActions v o true true false o.pagesLeft
    if q.1 then q.2.finishAccess v.g o else q.2
  | _ => s

/-- REL: the release action over the bound regions, page by page, then the cell (R246). -/
def State.performRel (s : State) (v : View) (o : Op) (f : Fields) : State :=
  if 1 ≤ f.sc ∧ v.fib.earlier o.id then s
  else
    let q := s.pageActions v o false true false o.pagesLeft
    if q.1 then q.2.atLeader v o true fun pa => (q.2.releaseCell v.team.part pa v.team.asid).finishAccess v.g o else q.2

/-- A status word in every active lane, tag N32. -/
def State.writeStatus (s : State) (g : GroupRef) (o : Op) (r : Nat) : State :=
  s.writeLanes g o [tagN32] ((maskLanes o.active).map fun l => (l, [BitVec.ofNat 32 r]))

/-- MBIND (R247): a bad base or length is the leader lane's fault, and nothing changes; with no entry of the cell and none free the status is
1, whatever the length. -/
def State.performMbind (s : State) (v : View) (o : Op) (f : Fields) : State :=
  let l := o.leaderLane
  let cell := o.addr l
  let len := (src o.data 2 l).toNat
  if (s.laneFault v o l).isSome then s
  else match v.team.bind cell f.sub.toNat (src64 o.data 0 l, len) with
    | some t =>
      let bs := if len = 0 then (v.team.unbind cell f.sub.toNat).bindings else t.bindings
      ((s.modTeam v.g.core v.slot.ctx fun x => { x with bindings := bs }).writeStatus v.g o 0).finishAccess v.g o
    | none => (s.writeStatus v.g o 1).finishAccess v.g o

/-- MUNBIND (R247). -/
def State.performMunbind (s : State) (v : View) (o : Op) (f : Fields) : State :=
  (s.modTeam v.g.core v.slot.ctx fun t => t.unbind (o.addr o.leaderLane) f.sub.toNat).finishAccess v.g o

/-- The action of a FENCE or GFENCE of a scope and semantics over the whole cache (R238, R248), which waits while a write-back of it
cannot perform. -/
def State.fenceAction (s : State) (core scope sem : Nat) : State :=
  if scope < 2 then s else if sem = 2 then s.releaseCache core else s.acquireCache core

/-- FENCE (R248). -/
def State.performFence (s : State) (v : View) (o : Op) (f : Fields) : State :=
  if v.fib.earlier o.id ∨ (2 ≤ f.sc ∧ s.cacheStuck v.g.core) then s else (s.fenceAction v.g.core f.sc f.semS).finishAccess v.g o

/-! ### Barriers (R250, R251) -/

/-- A barrier of a number: generation 0 and nobody arrived until it is used. -/
def barAt (m : SMap Barrier) (n : Nat) : Barrier := m.get n ⟨0#32, []⟩
/-- A group arrives; a second arrival in one phase changes nothing. -/
def Barrier.arrive (b : Barrier) (grp : Nat) : Barrier :=
  if b.arrived.contains grp then b else { b with arrived := b.arrived ++ [grp] }

/-- A group arrives at a team barrier and records its generation. -/
def State.arriveBar (s : State) (v : View) (n : Nat) : State :=
  let s := s.modFibre v.g fun f => { f with barGen := f.barGen.set n (barAt v.team.bars n).gen }
  let s := s.modTeam v.g.core v.slot.ctx fun t => { t with bars := t.bars.set n ((barAt t.bars n).arrive v.fib.grp) }
  s.settleBars v.g.core v.slot.ctx

/-- A group arrives at a cluster barrier and records its generation. -/
def State.arriveCbar (s : State) (v : View) (n : Nat) : State :=
  let s := s.modFibre v.g fun f => { f with cbarGen := f.cbarGen.set n (barAt v.team.cbars n).gen }
  let s := s.modTeam v.g.core v.slot.ctx fun t => { t with cbars := t.cbars.set n ((barAt t.cbars n).arrive v.fib.grp) }
  s.settleCbar v.g.core v.slot.ctx n

/-- Whether the phase that a group waits for is over: the generation differs from the one it recorded, or it recorded none. -/
def phaseOver (recorded : Option Word) (gen : Word) : Bool :=
  match recorded with
  | some r => r != gen
  | none => true

/-- The wait of BAR or CBAR ends when the generation differs from the one recorded. -/
def State.awaitPhase (s : State) (g : GroupRef) (o : Op) (cluster : Bool) (n : Nat) : State :=
  match s.view g with
  | none => s
  | some v =>
    let over_ := if cluster then phaseOver (v.fib.cbarGen.find n) (barAt v.team.cbars n).gen
      else phaseOver (v.fib.barGen.find n) (barAt v.team.bars n).gen
    if over_ then s.finishAccess g o else s.setStage g o.id 1

/-- The first way that is not free to a slice with a member of a group's cluster: an arrival at a cluster barrier travels to every one of
them (R11; DEDUCED: notes/assumptions). -/
def State.clusterWay (s : State) (v : View) : Way :=
  (((s.cbarTeams v.g.core v.slot.ctx).map fun m => s.wayTo v.team.part (sliceOf v.g.core) (sliceOf m.1)).find? (· != .free)).getD .free

/-- BAR and CBAR (R251). An arrival at a cluster barrier over a failed link gets an error response (R411). -/
def State.performBar (s : State) (v : View) (o : Op) (f : Fields) (cluster : Bool) : State :=
  let n := (f.sub &&& 15#8).toNat
  let mode := (f.sub >>> 4).toNat
  if o.stage = 0 ∧ mode ≠ 2 then
    let way := if cluster then s.clusterWay v else .free
    if v.fib.earlier o.id ∨ way = .held ∨ (cluster ∧ s.cacheStuck v.g.core) then s
    else if way.errs then s.loseOpAt v o 0x87#8 0 way.detail
    else
      let s := if cluster then (s.releaseCache v.g.core).arriveCbar v n else s.arriveBar v n
      if mode = 1 then s.finishAccess v.g o else s.awaitPhase v.g o cluster n
  else s.awaitPhase v.g o cluster n

/-! ### The rendezvous table (R255-R259) -/

/-- A waiter wakes with a result: a group's AWAIT has its acquire action left; a hart runs on after dw.await. -/
def State.wakeWaiter (s : State) (w : Waiter) (r : Nat) : State :=
  match w.agent with
  | .group g => s.modFibre g fun f => f.modOp w.opId fun o => { o with stage := 2, value := r }
  | .hart h => s.modHart h fun x => match x.run with
    | .sleeping rd => { x.setReg rd (BitVec.ofNat 64 r) with run := .running }
    | _ => x
  | _ => s

/-- Every waiter of a slice's table that passes a test leaves it and wakes with a result. -/
def State.wakeAll (s : State) (slice : Nat) (p : Waiter → Bool) (r : Nat) : State :=
  let ws := (s.slice slice).rendezvous.filter p
  let s := s.modSlice slice fun x => { x with rendezvous := x.rendezvous.filter fun w => !p w }
  ws.foldl (fun s w => s.wakeWaiter w r) s

/-- AWAKE at a key of a slice's table: the oldest waiter, or every one, wakes with 0; the number woken. -/
def State.wakeKey (s : State) (slice : Nat) (va : DWord) (asid : BitVec 12) (all_ : Bool) : State × Nat :=
  let ws := (s.slice slice).rendezvous.filter fun w => w.va == va && w.asid == asid
  if all_ then (s.wakeAll slice (fun w => w.va == va && w.asid == asid) 0, ws.length)
  else match ws with
    | [] => (s, 0)
    | w :: _ =>
      let s := s.modSlice slice fun x => { x with rendezvous := x.rendezvous.erase w }
      (s.wakeWaiter w 0, 1)

/-- The test of AWAIT at the home bank: the result with which it does not sleep, none when it sleeps (R256). -/
def State.awaitTest (s : State) (part pa slice : Nat) (expected : Word) (preq : Bool) : Option Nat :=
  if leNat (s.readMem part pa 4) ≠ expected.toNat then some 1
  else if preq then some 3
  else if (s.slice slice).rendezvous.length ≥ Config.rendezvousPlaces then some 2
  else none

/-- The end of an AWAIT: its acquire action, then its result. -/
def State.finishAwait (s : State) (v : View) (o : Op) (r : Nat) : State :=
  if s.cacheStuck v.g.core then s
  else ((s.acquireCache v.g.core).writeStatus v.g o r).finishAccess v.g o

/-- AWAIT (R256). -/
def State.performAwait (s : State) (v : View) (o : Op) : State :=
  match o.stage with
  | 0 =>
    if v.fib.earlier o.id ∨ v.team.saving.isSome then s
    else s.atLeader v o true fun pa =>
      let home := (s.tableSlice v.team.part pa).getD 0
      match s.awaitTest v.team.part pa home (src o.data 0 o.leaderLane) v.team.preq with
      | some r => s.finishAwait v o r
      | none => (s.setStage v.g o.id 1).modSlice home fun x =>
          { x with rendezvous := x.rendezvous ++ [⟨o.addr o.leaderLane, v.team.asid, pa, .group v.g, o.id⟩] }
  | 2 => s.finishAwait v o o.value
  | _ => s

/-- AWAKE (R257). -/
def State.performAwake (s : State) (v : View) (o : Op) (f : Fields) : State :=
  if v.fib.earlier o.id ∨ s.cacheStuck v.g.core then s
  else s.atLeader v o false fun pa =>
    let s := s.releaseCache v.g.core
    let r := s.wakeKey ((s.tableSlice v.team.part pa).getD 0) (o.addr o.leaderLane) v.team.asid (f.sub == 1#8)
    (r.1.writeStatus v.g o r.2).finishAccess v.g o

/-! ### The turns of the first-level cache (R266) -/

/-- Whether an operation acts on a byte range of its core's first-level cache. -/
def Op.isRange (o : Op) : Bool :=
  match o.instr with
  | .cinv _ | .cwb _ => true
  | _ => false

/-- The places of the lanes of a global access that pass their checks now. -/
def State.readyPlaces (s : State) (v : View) (o : Op) : List Nat :=
  (maskLanes (o.pending &&& ~~~o.held)).filterMap fun l => match s.checkLane v o l with
    | .ready pa _ => some pa
    | _ => none

/-- Whether an operation acts on its core's whole first-level cache when it performs next (R238, R253). -/
def State.wholeCache (s : State) (v : View) (o : Op) : Bool :=
  let launch (_ : Unit) : Bool := (s.readyPlaces v o).any fun pa => (s.coreLaunch v.g.core pa (accessSize o.instr)).isSome
  match o.instr with
  | .fence f => decide (2 ≤ f.sc)
  | .cbar f => o.stage == 0 && (f.sub >>> 4).toNat != 2
  | .await _ => o.stage == 2
  | .awake _ | .intr _ => true
  | .atom f => (decide (2 ≤ (f.imm20 &&& 7#20).toNat) && f.semA != 0) || launch ()
  | .st _ => launch ()
  | _ => false

/-- Whether what such an operation waits for is over, so that it can use the cache now. -/
def State.usesCache (s : State) (v : View) (o : Op) : Bool :=
  o.held == 0#32 && match o.instr with
    | .cinv _ | .cwb _ => match o.pagesLeft with
      | [] => true
      | p :: _ => (s.checkPage v o p.1 true true).isReady && !s.waitsFor v o [(p.1.toNat / 128, (p.1.toNat + p.2 - 1) / 128)] []
    | .await _ => true
    | .atom _ | .st _ | .awake _ => !v.fib.earlier o.id && !(s.readyPlaces v o).isEmpty
    | _ => !v.fib.earlier o.id

/-- Whether a place in the issue order of a core comes before another: by clock, then by sub-partition. -/
def issuedBefore (a : GroupRef) (p : Op) (b : GroupRef) (o : Op) : Bool :=
  decide (p.issued < o.issued) || (p.issued == o.issued && decide (a.sub < b.sub))

/-- Whether it is an operation's turn at the first-level cache: an action over the whole cache and another group's CINV or CWB use it one
after the other, in issue order on the core (R266). -/
def State.cacheTurn (s : State) (v : View) (o : Op) : Bool :=
  if !o.isRange && !s.wholeCache v o then true
  else (v.core.groups v.g.core).all fun p => p.1 == v.g || match s.view p.1 with
    | none => true
    | some w => w.fib.ops.all fun q => !issuedBefore p.1 q v.g o || !(if o.isRange then s.wholeCache w q else q.isRange) || !s.usesCache w q

/-- Whether a group's CINV or CWB has its turn at a core's cache before an action over the whole of it that arises now. -/
def State.rangeRuns (s : State) (core : Nat) : Bool :=
  ((s.core core).groups core).any fun p => match s.view p.1 with
    | none => false
    | some w => w.fib.ops.any fun q => q.isRange && s.usesCache w q

/-! ### The event that makes an access perform -/

/-- What an operation does when its access performs; lead is the lane whose line or row performs. -/
def State.performOp (s : State) (v : View) (o : Op) (lead : Fin 32) : State :=
  match o.instr with
  | .ld _ | .st _ | .atom _ => s.performGlobal v o lead
  | .lds _ | .sts _ | .atoms _ | .ldr _ | .str _ => s.performRow v o lead
  | .ldc f => s.performLdc v o f
  | .pref f => s.performPref v o f
  | .cinv _ => s.performRange v o true
  | .cwb _ => s.performRange v o false
  | .acq f => s.performAcq v o f
  | .rel f => s.performRel v o f
  | .mbind f => s.performMbind v o f
  | .munbind f => s.performMunbind v o f
  | .fence f => s.performFence v o f
  | .bar f => s.performBar v o f false
  | .cbar f => s.performBar v o f true
  | .await _ => s.performAwait v o
  | .awake f => s.performAwake v o f
  | _ => s

/-- MEMORY_ACCESS_COMPLETE (R217, R236): lanes of an access of the memory or ordering class perform, and the access completes when
no lane is left; a lane that a fault holds performs nothing. -/
def execMemoryAccessComplete (g : GroupRef) (id : Nat) (lead : Fin 32) (s : State) : Outcome State Fault Refusal :=
  match s.view g with
  | none => .next s
  | some v => match v.fib.op? id with
    | none => .next s
    | some o =>
      let open_ := o.pending &&& ~~~o.held
      let lanewise := orderClass o.instr != 0 && !(match o.instr with
        | .cinv _ | .cwb _ => true
        | _ => false)
      if !s.cacheTurn v o then .next s
      else if lanewise then (if inMask open_ lead then .next (s.performOp v o lead) else .next s)
      else if o.held = 0#32 then .next (s.performOp v o lead) else .next s

end Sys2Proof.Machine
end

