-- ==== Sys2Proof/Machine/Copy.lean ====
section
/-!
DEFINITION. The copy engine class (R267-R281): the issue of the five copies, the engine's segments with their checks, order and
faults, and the completion of a copy. What leaves for and comes back from the Adeser transport under CPYN is here too.
-/

namespace Sys2Proof.Machine

open Host (Outcome)

/-! ### Shapes (R269-R276) -/

/-- A word of a copy's quad. -/
def CopyOp.q (o : CopyOp) (n : Nat) : Nat := (o.shape.getD n 0#32).toNat
/-- The row width W, or the length of a CPYN. -/
def CopyOp.width (o : CopyOp) : Nat := o.q 0 % 2 ^ 24

/-- Whether a copy writes global memory: .out of CPY and CPYG, .glob of CPYF, and a get of CPYN. -/
def CopyOp.toGlobal (o : CopyOp) : Bool :=
  match o.instr with
  | .cpy f | .cpyg f | .cpyf f => f.sub.getLsbD 2
  | .cpyn f => !f.sub.getLsbD 2
  | _ => false

/-- Whether a copy has a global side: every one but CPYF into the scratchpad. -/
def CopyOp.hasGlobal (o : CopyOp) : Bool :=
  match o.instr with
  | .cpyf f => f.sub.getLsbD 2
  | _ => true

/-- Whether a copy has a scratchpad side. -/
def CopyOp.hasScratch (o : CopyOp) : Bool :=
  match o.instr with
  | .cpyn _ => false
  | .cpyf f => !f.sub.getLsbD 2
  | _ => true

/-- Whether a copy is a CPYM. -/
def CopyOp.isCpym (o : CopyOp) : Bool :=
  match o.instr with
  | .cpym _ => true
  | _ => false

/-- Rows and planes (R270): .d1 one of each, .d2 one plane; CPYM and CPYF as .d3; CPYN one row. -/
def CopyOp.rowCount (o : CopyOp) : Nat :=
  match o.instr with
  | .cpy f => if f.sub.toNat % 4 = 0 then 1 else o.q 1 % 65536 + 1
  | .cpym _ | .cpyf _ => o.q 1 % 65536 + 1
  | _ => 1
def CopyOp.planeCount (o : CopyOp) : Nat :=
  match o.instr with
  | .cpy f => if f.sub.toNat % 4 = 2 then o.q 1 / 65536 + 1 else 1
  | .cpym _ | .cpyf _ => o.q 1 / 65536 + 1
  | _ => 1

/-- The virtual address of a row's first byte; pitches wrap modulo 2^64 (R270, R271, R273). -/
def CopyOp.rowGlobal (o : CopyOp) (r : Nat) : Nat :=
  match o.instr with
  | .cpyg _ => (o.global.toNat + (lane o.index (Op.leaderLane.laneNum r)).toNat * o.q 2) % 2 ^ 64
  | .cpyn _ => o.global.toNat
  | _ => (o.global.toNat + r / o.rowCount * o.q 3 + r % o.rowCount * o.q 2) % 2 ^ 64

/-- The scratchpad offset of a row's first byte (R270, R271, R273). -/
def CopyOp.rowScratch (o : CopyOp) (r : Nat) : Nat :=
  match o.instr with
  | .cpyg _ => o.q 1 + r * o.pitch
  | _ => o.base + r / o.rowCount * (o.pitch * o.rowCount) + r % o.rowCount * o.pitch

/-- The element size of CPYF. -/
def CopyOp.elem (o : CopyOp) : Nat :=
  match o.instr with
  | .cpyf f => 2 ^ (f.sub.toNat % 4)
  | _ => 1

/-- A fault of the quad, or of CPYF's alignment, raised when the copy is accepted (R270, R276). -/
def CopyOp.malformed (o : CopyOp) : Bool :=
  o.q 0 / 2 ^ 24 != 0 || match o.instr with
    | .cpyg _ => o.q 3 != 0
    | .cpyf f =>
      let a := if f.sub.getLsbD 2 then o.global.toNat else o.base
      a % o.elem != 0 || o.width % o.elem != 0
    | _ => false

/-- The segment that a part of a copy comes to next (R267): its addresses and length. -/
structure CopySeg where
  row    : Nat
  x      : Nat
  index  : Nat
  va     : Nat
  off    : Nat
  len    : Nat
  deriving DecidableEq, Repr

def CopyOp.seg (o : CopyOp) (t : CopyStream) : CopySeg :=
  let g := (o.rowGlobal t.row + t.x) % 2 ^ 64
  let s := o.rowScratch t.row + t.x
  let room := if o.hasGlobal then 128 - g % 128 else 64 - s % 64
  ⟨t.row, t.x, t.index, g, s, min (o.width - t.x) room⟩

/-- The part after a segment. -/
def CopyOp.advance (o : CopyOp) (t : CopyStream) : CopyStream :=
  let n := (o.seg t).len
  if t.x + n < o.width then { t with x := t.x + n, index := t.index + 1 }
  else { t with row := t.row + 1, x := 0, index := t.index + 1 }

/-- A part that nothing holds. -/
def CopyStream.of (rows row x index : Nat) (targets : List Nat) : CopyStream := ⟨rows, row, x, index, targets, none, 0, none⟩

/-- Whether a fault holds a part. -/
def CopyStream.held (t : CopyStream) : Bool := t.fail.isSome || t.ftag.isSome

def CopyStream.finished (t : CopyStream) : Bool := decide (t.rows ≤ t.row)

/-- The segments of a part from where it stands, at most a number of them. -/
def CopyOp.segsFrom (o : CopyOp) : Nat → CopyStream → List CopySeg
  | 0, _ => []
  | n + 1, t => if t.finished then [] else o.seg t :: o.segsFrom n (o.advance t)

/-- Every segment that a part has left. -/
def CopyOp.segsLeft (o : CopyOp) (t : CopyStream) : List CopySeg := o.segsFrom ((t.rows - t.row) * (o.width / 64 + 2)) t

/-- The number of segments of a row. -/
def CopyOp.rowSegs (o : CopyOp) (r : Nat) : Nat := (o.segsLeft (CopyStream.of (r + 1) r 0 0 [])).length

/-- The parts of a copy as it is accepted: one row for each active lane of a CPYG (R273), else the whole. -/
def CopyOp.parts (o : CopyOp) : List CopyStream :=
  match o.instr with
  | .cpyg _ => ((maskLanes o.active).foldl (fun (p : List CopyStream × Nat) l =>
      (p.1 ++ [CopyStream.of (l.val + 1) l.val 0 p.2 []], p.2 + o.rowSegs l.val)) ([], 0)).1
  | .cpym _ => [CopyStream.of (o.rowCount * o.planeCount) 0 0 0 ((List.range 32).filter fun i => o.value.getLsbD i)]
  | _ => [CopyStream.of (o.rowCount * o.planeCount) 0 0 0 []]

/-! ### Acceptance (R267-R270) -/

/-- The fault record of a copy (R277), and the tag it takes. -/
def State.copyFault (s : State) (v : View) (o : CopyOp) (cause : Byte) (lanes : Mask) (address : Nat) (count detail : Nat) :
    BitVec 16 × State :=
  let info := { v.faultAt cause (opSub o.instr).1 (opSub o.instr).2 lanes (lowestLane lanes).val with
    prov := o.prov, pc := codeAddress o.handle o.offset, address := BitVec.ofNat 64 address, entry := 0xF#8,
    count := BitVec.ofNat 32 count, detail := BitVec.ofNat 64 detail, opId := o.opId }
  ((s.slice (sliceOf v.g.core)).fault.nextTag, s.takeFaultS v info)

/-- The leader lane of a copy as a mask. -/
def CopyOp.leaderMask (o : CopyOp) : Mask := 1#32 <<< o.leader

/-- A copy at its place among those accepted: after every one of an earlier clock, and of the same clock after those of the
sub-partitions before its own (R267). -/
def placeCopy (o : CopyOp) : List CopyOp → List CopyOp
  | [] => [o]
  | p :: r => if p.issued = o.issued ∧ o.g.sub < p.g.sub then o :: p :: r else p :: placeCopy o r

/-- The check at acceptance: a broken quad or alignment is the operation's fault, and it has no part to serve. -/
def State.acceptCopy (s : State) (v : View) (o : CopyOp) : State :=
  if o.malformed then
    let r := s.copyFault v o causeMisaligned o.leaderMask (if o.hasGlobal then o.global.toNat else o.base) 0 0
    r.2.modCore v.g.core fun k => { k with copies := placeCopy o k.copies }
  else s.modCore v.g.core fun k => { k with copies := placeCopy { o with streams := o.parts } k.copies }

/-- Whether a copy moves nothing: a width of 0, or an empty mask of CPYM. -/
def CopyOp.empty (o : CopyOp) : Bool :=
  !o.malformed && (o.width == 0 || match o.instr with
    | .cpym _ => o.value == 0#64
    | _ => false)

/-- A copy issues: it is held while the queue is full, moves nothing without an active lane, and is accepted otherwise. What its reads
set in %gst is set when it completes (R46). -/
def State.startCopy (s : State) (v : View) (i : Instr) (f : Fields) (act : Mask) (fl : Word) (o : CopyOp) : State :=
  let cf := (f.signal).getD 0
  if act = 0#32 ∨ o.empty then s.startDone v i cf fl
  else if Config.copyQueue ≤ v.core.copies.length then s
  else
    let s := (s.modFibre v.g fun b => b.raise cf).issue v.g i
    let s := s.modCore v.g.core fun k => { k with copyId := k.copyId + 1 }
    s.acceptCopy v { o with id := v.core.copyId, flags := fl }

/-- A copy of the acting group, with what it reads of the word's own state. -/
def newCopy (v : View) (i : Instr) (act : Mask) (shape : List Word) : CopyOp :=
  { id := 0, issued := v.core.clock, g := v.g, opId := v.fib.nextId, ctx := v.slot.ctx, instr := i, handle := v.fib.handle, offset := v.fib.off,
    prov := v.word.prov, sup := v.fib.sup, active := act, leader := v.leader.val, shape := shape, global := 0#64, base := 0, pitch := 0,
    index := lanesAll 0#32, value := 0#64, flags := 0#32, streams := [], sent := [], started := false, working := false,
    waitPages := [], walkFaults := [] }

/-- The quad of a copy: four registers that expect N32. -/
def quadSrcs (f : Fields) : List Src := regSrcs f.d [.tag tagN32, .tag tagN32, .tag tagN32, .tag tagN32]
/-- The quad's words in the leader lane. -/
def quadOf (ls : List Lanes) (l : Fin 32) : List Word := (List.range 4).map fun k => src ls k l
/-- The scratchpad row pitch: the immediate, or W. -/
def pitchOf (f : Fields) (q : List Word) : Nat :=
  match f.ext with
  | .imm x => x.toNat
  | _ => (q.getD 0 0#32).toNat % 2 ^ 24

/-- CPY (R271). -/
def execCpy (f : Fields) (s : State) : Outcome State Fault Refusal :=
  s.withSources (.cpy f) f (quadSrcs f ++ pairSrcs f.a ++ regSrcs f.b [.tag tagN32]) fun v act ls fl =>
    let q := quadOf ls v.leader
    .next (s.startCopy v (.cpy f) f act fl
      { newCopy v (.cpy f) act q with global := src64 ls 4 v.leader, base := (src ls 6 v.leader).toNat, pitch := pitchOf f q })

/-- CPYG (R273): the row index of each lane. -/
def execCpyg (f : Fields) (s : State) : Outcome State Fault Refusal :=
  s.withSources (.cpyg f) f (quadSrcs f ++ pairSrcs f.a ++ regSrcs f.b [.tag tagN32]) fun v act ls fl =>
    let q := quadOf ls v.leader
    .next (s.startCopy v (.cpyg f) f act fl
      { newCopy v (.cpyg f) act q with global := src64 ls 4 v.leader, index := ls.getD 6 (lanesAll 0#32), pitch := pitchOf f q })

/-- CPYM (R274): the mask of cluster ranks; the scratchpad side is dense. -/
def execCpym (f : Fields) (s : State) : Outcome State Fault Refusal :=
  s.withSources (.cpym f) f (quadSrcs f ++ pairSrcs f.a ++ regSrcs f.b [.tag tagN32] ++ src3 f .n32 [.tag tagN32]) fun v act ls fl =>
    let q := quadOf ls v.leader
    .next (s.startCopy v (.cpym f) f act fl
      { newCopy v (.cpym f) act q with
        global := src64 ls 4 v.leader, base := (src ls 6 v.leader).toNat, value := (src ls 7 v.leader).setWidth 64,
        pitch := (q.getD 0 0#32).toNat % 2 ^ 24 })

/-- CPYN (R275). -/
def execCpyn (f : Fields) (s : State) : Outcome State Fault Refusal :=
  s.withSources (.cpyn f) f (quadSrcs f ++ pairSrcs f.a) fun v act ls fl =>
    .next (s.startCopy v (.cpyn f) f act fl { newCopy v (.cpyn f) act (quadOf ls v.leader) with global := src64 ls 4 v.leader })

/-- CPYF (R276): the fill value is untyped. -/
def execCpyf (f : Fields) (s : State) : Outcome State Fault Refusal :=
  let glob := f.sub.getLsbD 2
  let wide := f.sub.toNat % 4 == 3
  let dst := if glob then pairSrcs f.a else regSrcs f.a [.tag tagN32]
  let fill := if wide then regSrcs f.b [.any, .any] else regSrcs f.b [.any]
  s.withSources (.cpyf f) f (quadSrcs f ++ dst ++ fill) fun v act ls fl =>
    let q := quadOf ls v.leader
    let n := 4 + dst.length
    .next (s.startCopy v (.cpyf f) f act fl
      { newCopy v (.cpyf f) act q with
        global := if glob then src64 ls 4 v.leader else 0#64, base := if glob then 0 else (src ls 4 v.leader).toNat,
        value := if wide then src64 ls n v.leader else (src ls n v.leader).setWidth 64, pitch := pitchOf f q })

/-! ### The bytes of a segment (R252, R278) -/

/-- Bytes that an engine reads or writes: of memory by physical address (space 0), or of a core's scratchpad (space core + 1). -/
structure Touch where
  space : Nat
  start : Nat
  len   : Nat
  write : Bool
  deriving DecidableEq, Repr

/-- Whether two touches share a byte that one of them writes. -/
def Touch.meets (a b : Touch) : Bool :=
  (a.write || b.write) && a.space == b.space && decide (a.start < b.start + b.len ∧ b.start < a.start + a.len)

/-- The physical places of bytes of a team's scratchpad, none when one lies outside its range (R204). -/
def Team.scratchPlaces (t : Team) (off n : Nat) : Option (List Nat) :=
  (List.range n).mapM fun i => t.scratchAt (off + i) 1

/-- The physical address of a global byte as it is translated now, without an effect on any cache. -/
def State.physNow (s : State) (core : Nat) (t : Team) (va : Nat) : Option Nat :=
  let a := BitVec.ofNat 64 va
  if ¬ canonical a then none
  else match (s.core core).tlb.find? fun e => e.covers t.asid t.desc.world a with
    | some e => some (e.phys a)
    | none => match s.walk t.part t.desc.root t.desc.world a with
      | .ok e => some (e.phys a)
      | .error _ => none

/-- The teams that a copy's scratchpad side reaches, each with its core: the issuing team, or those of the named ranks. -/
def State.copyTeams (s : State) (o : CopyOp) (t : CopyStream) : List (Nat × Team) :=
  match o.instr with
  | .cpym _ => (s.cbarTeams o.g.core o.ctx).filterMap fun m => if t.targets.contains m.2.2.clrank then some (m.1, m.2.2) else none
  | _ => match s.team? o.g.core o.ctx with
    | some m => [(o.g.core, m)]
    | none => []

/-- What a segment of a part touches. -/
def State.touches (s : State) (o : CopyOp) (t : CopyStream) (g : CopySeg) : List Touch :=
  let glob := if o.hasGlobal then
      match (s.team? o.g.core o.ctx).bind fun m => s.physNow o.g.core m g.va with
      | some pa => [⟨0, pa, g.len, o.toGlobal⟩]
      | none => []
    else []
  let scr := if o.hasScratch then
      (s.copyTeams o t).flatMap fun m => ((m.2.scratchPlaces g.off g.len).getD []).map fun p => ⟨m.1 + 1, p, 1, !o.toGlobal⟩
    else []
  glob ++ scr

/-- A segment in the transport as a part of its own. -/
def CopySent.stream (x : CopySent) : CopyStream := .of (x.row + 1) x.row x.x x.index []

/-- The bytes that a copy has still to read or write: those of its parts, and those of its segments in the transport. -/
def State.touchesLeft (s : State) (o : CopyOp) : List Touch :=
  (o.streams.flatMap fun t => (o.segsLeft t).flatMap fun g => s.touches o t g)
    ++ o.sent.flatMap fun x => s.touches o x.stream (o.seg x.stream)

/-- Whether a segment must wait: an older copy of the core has still to act on a byte of it (R278), or a matrix operation reads the
scratchpad bytes it writes (R297). -/
def State.copyBlocked (s : State) (o : CopyOp) (older : List CopyOp) (t : CopyStream) : Bool :=
  let mine := s.touches o t (o.seg t)
  older.any (fun p => (s.touchesLeft p).any fun b => mine.any fun a => a.meets b)
    || mine.any fun a => a.write && decide (0 < a.space) && (s.core (a.space - 1)).scratchHeld a.start a.len

/-- Whether a row of a scatter must wait for an earlier one that has still to write a byte of its segment (R273). -/
def State.rowBlocked (s : State) (o : CopyOp) (before : List CopyStream) (t : CopyStream) : Bool :=
  o.toGlobal && before.any fun b => (o.segsLeft b).any fun g => (s.touches o b g).any fun x => (s.touches o t (o.seg t)).any fun a => a.meets x

/-! ### A segment (R252, R254, R271-R277) -/

/-- A copy's record replaced. -/
def State.modCopy (s : State) (core id : Nat) (f : CopyOp → CopyOp) : State :=
  s.modCore core fun k => { k with copies := k.copies.map fun o => if o.id = id then f o else o }

/-- What the checks of a segment give: a page or a member team to wait for, a fault, an error that ends the team, or the physical
address. -/
inductive SegCheck where
  | wait
  | fault (f : SegFault)
  | lost (cause : Byte) (pa : Nat)
  | ready (pa : Nat)
  deriving DecidableEq, Repr

/-- The first byte from a place on that lies in one of the launch words touched. -/
def firstWord (pa : Nat) (ws : List (Nat × Nat)) : Nat := ((ws.map fun w => max pa w.2).min?).getD pa

/-- The checks of an engine's access to bytes of one line, in the order of R231 (R277). Its translation comes from the core's second-level
TLB, and a miss waits for a walk (R210). -/
def State.engineCheck (s : State) (o : CopyOp) (t : Team) (va n : Nat) (write : Bool) : SegCheck × State :=
  let a := BitVec.ofNat 64 va
  match (s.core o.g.core).xlate t a o.walkFaults with
  | .fault c => (.fault ⟨c, va, 0⟩, s)
  | .miss => (.wait, (s.joinWalk o.g.core noSub t a).modCopy o.g.core o.id fun p => { p with waitPages := [pageOf a] })
  | .ok e =>
    match permCause e o.sup (!write) write t.desc.world with
    | some c => (.fault ⟨c, va, 0⟩, s.modCore o.g.core fun k => k.dropTlb t.asid t.desc.world a)
    | none =>
      let pa := e.phys a
      match (if write then s.coreLaunches o.g.core pa n else []) with
      | w :: ws => (.fault ⟨causeLaunchWord, va + (firstWord pa (w :: ws) - pa), 0⟩, (w :: ws).foldl (fun s w => s.refuseLaunch t.part w.1 pa) s)
      | [] =>
        let offs := (List.range n).map fun i => pa % 128 + i
        let way := if write || loadFromHome (s.core o.g.core) (pa / 128) 0 offs then s.way (sliceOf o.g.core) t.part pa else .free
        if way.errs || (s.violation t.part pa).isSome then (.lost 0x87#8 pa, s)
        else if way = .held then (.wait, s)
        else match s.aliasCause t.part pa e with
          | some c => let m := s.line t.part pa; (.fault ⟨c, va, m.attr.toNat + m.world.toNat * 4⟩, s)
          | none =>
            if !write && loadFromHome (s.core o.g.core) (pa / 128) 0 offs && (s.line t.part pa).poison then (.lost 0x81#8 pa, s)
            else (.ready pa, s)

/-- The bytes an engine reads of a line: those that the issuing core's cache holds, the home bank's otherwise (R252). -/
def State.engineRead (s : State) (core part pa n : Nat) : List Byte :=
  let l := ((s.core core).l1.find (pa / 128)).getD L1Line.empty
  (List.range n).map fun i => match l.cells.find (pa % 128 + i) with
    | some c => c.1
    | none => memRead s.mem (memKey part (pa + i))

/-- A write of an engine at a home bank: the matching line leaves the issuing core's cache (R252). -/
def State.engineWrite (s : State) (core part pa : Nat) (bs : List Byte) (owner : BitVec 12) : State :=
  (s.flushLines core [pa / 128]).bankWrite part (pa / 128) (bs.zipIdx.map fun b => (pa % 128 + b.2, b.1)) owner

/-- Bytes put at places of a scratchpad. -/
def Core.putPlaces (k : Core) (ps : List Nat) (bs : List Byte) : Core :=
  { k with scratch := (ps.zip bs).foldl (fun m p => m.set p.1 p.2) k.scratch }

/-- The bytes of a fill at a place of a row (R276). -/
def CopyOp.fillBytes (o : CopyOp) (x n : Nat) : List Byte :=
  (List.range n).map fun i => o.value.extractLsb' (8 * ((x + i) % o.elem)) 8

/-- The first offset of a run of bytes that lies outside a scratchpad range of a size. -/
def firstOutside (off size : Nat) : Nat := max off size

/-- The lanes that a fault of a part names. -/
def CopyOp.partLanes (o : CopyOp) (t : CopyStream) : Mask :=
  match o.instr with
  | .cpyg _ => 1#32 <<< t.row
  | _ => o.leaderMask

/-- Bytes that an engine writes at places of a scratchpad: after every store of the same clock to their rows (R278). -/
def Core.engineScratch (k : Core) (ps : List Nat) (bs : List Byte) : Core :=
  (k.putPlaces ps bs).logRow copyRank (ps.map (· / 4)).dedup

/-- The rest of an aborted group's copy is discarded (R277, R338). -/
def State.dropCopy (s : State) (o : CopyOp) : State :=
  ((s.discardCopies o.g.core fun p => p.id == o.id).settleAborted o.g).retireIfDone o.g.core o.ctx

/-- A part of a copy fails at its segment, in the core's present clock, and is held there; the rest of an aborted group's copy is discarded
(R273, R277, R338). -/
def State.failPart (s : State) (v : View) (o : CopyOp) (i : Nat) (f : SegFault) : State :=
  if v.fib.aborting then s.dropCopy o
  else
    let now := (s.core o.g.core).clock
    s.modCopy o.g.core o.id fun p => { p with streams := p.streams.modify i fun t => { t with fail := some f, failAt := now } }

/-- A target of a CPYM that fails leaves its part: it is held in a part of its own, with a record of its own (R274). -/
def State.failTarget (s : State) (v : View) (o : CopyOp) (i : Nat) (rank off : Nat) : State :=
  let t := o.streams.getD i (.of 0 0 0 0 [])
  if v.fib.aborting then s.dropCopy o
  else
    let now := (s.core o.g.core).clock
    s.modCopy o.g.core o.id fun p =>
      { p with streams := (p.streams.modify i fun x => { x with targets := x.targets.filter (· ≠ rank) })
                            ++ [{ t with targets := [rank], fail := some ⟨causeRemote, rank * 2 ^ 21 + off % 2 ^ 21, 0⟩, failAt := now }] }

/-- The parts of a copy that have failed before a clock and that no record holds yet, by their places. -/
def CopyOp.failures (o : CopyOp) (clock : Nat) : List (Nat × CopyStream × SegFault) :=
  o.streams.zipIdx.filterMap fun t => if t.1.ftag.isNone ∧ t.1.failAt < clock then t.1.fail.map fun f => (t.2, t.1, f) else none

/-- The parts at some places are held by the record of a tag. -/
def CopyOp.holdParts (o : CopyOp) (places : List Nat) (tag : BitVec 16) : CopyOp :=
  { o with streams := o.streams.zipIdx.map fun t => if places.contains t.2 then { t.1 with ftag := some tag } else t.1 }

/-- The records of a copy's failures, and the freeze: one for the rows of a CPYG that have failed by now, which name their lanes, unless a
record of earlier rows stands, which then holds these too (R273); one for each part of any other (R274, R277). Those that failed before a
clock are recorded: a segment's failure shows in the clock after its issue (R429). -/
def State.postFailures (s : State) (core id clock : Nat) : State :=
  match (s.core core).copies.find? fun o => o.id == id with
  | none => s
  | some o => match s.view o.g, o.failures clock with
    | some v, (i, t, f) :: rest => match o.instr with
      | .cpyg _ =>
        let all_ := (i, t, f) :: rest
        let r := match o.streams.findSome? fun x => x.ftag with
          | some tag => (tag, s)
          | none => s.copyFault v o f.cause (maskOf fun l => all_.any fun x => x.2.1.row == l.val) f.address t.index f.detail
        r.2.modCopy core id fun p => p.holdParts (all_.map (·.1)) r.1
      | _ => ((i, t, f) :: rest).foldl (fun s x =>
          let r := s.copyFault v o x.2.2.cause (o.partLanes x.2.1) x.2.2.address x.2.1.index x.2.2.detail
          r.2.modCopy core id fun p => p.holdParts [x.1] r.1) s
    | _, _ => s

/-- The part moves past its segment. -/
def State.passSegment (s : State) (o : CopyOp) (i : Nat) : State :=
  s.modCopy o.g.core o.id fun p => { p with streams := p.streams.modify i p.advance, waitPages := [], walkFaults := [] }

/-- A copy's error record, with an address and a detail, and the end of its team; the segment is passed, and nothing is written for it
(R363, R406). -/
def State.consumeCopyAt (s : State) (v : View) (o : CopyOp) (m : Mask) (cause : Byte) (pa detail : Nat) (pass : State → State) : State :=
  if s.teamEnded v.g.core v.slot.ctx then pass s
  else if !s.recordRoom (sliceOf v.g.core) then s
  else
    let r : Rec :=
      { v.team.errorRec cause (placeOfGroup v.g v.fib.grp v.slot.ctx) pa detail with
        op := (opSub o.instr).1, sub := (opSub o.instr).2, prov := o.prov, pc := codeAddress o.handle o.offset, lanes := m,
        lane := BitVec.ofNat 8 (lowestLane m).val, entry := 0xF#8 }
    ((pass s).postError (sliceOf v.g.core) r).killTeam v.g.core v.slot.ctx

/-- The same at a physical address; an access that the firewall refuses is logged. -/
def State.consumeCopy (s : State) (v : View) (o : CopyOp) (m : Mask) (cause : Byte) (pa : Nat) (pass : State → State) : State :=
  let log := cause = 0x87#8 ∧ s.teamEnded v.g.core v.slot.ctx = false ∧ s.recordRoom (sliceOf v.g.core)
  (if log then s.refuseAccess v.g.core 3 pa else s).consumeCopyAt v o m cause pa (s.consumeDetail (sliceOf v.g.core) v.team.part cause pa) pass

/-- The first way that is not free to a target of a CPYM (R11, R411). -/
def State.targetWay (s : State) (o : CopyOp) (part : Nat) (t : CopyStream) : Way :=
  (((s.copyTeams o t).map fun m => s.wayTo part (sliceOf o.g.core) (sliceOf m.1)).find? (· != .free)).getD .free

/-- The targets of a CPYM segment that fail: no such rank, a team that has retired, or a byte outside its range (R205, R274). -/
def State.badTargets (s : State) (o : CopyOp) (t : CopyStream) (g : CopySeg) : List (Nat × Nat) :=
  t.targets.filterMap fun c => match s.member o.g.core o.ctx c with
    | .gone => some (c, g.off)
    | .away => none
    | .here _ _ m => if (m.scratchPlaces g.off g.len).isSome then none else some (c, firstOutside g.off m.desc.scratch)

/-- Whether a target of a CPYM is a team that an image holds: the segment waits until it is resident again. -/
def State.awaitsTarget (s : State) (o : CopyOp) (t : CopyStream) : Bool :=
  t.targets.any fun c => s.member o.g.core o.ctx c == .away

/-- The targets of a CPYM's next segment that fail leave its part. -/
def State.failTargets (s : State) (v : View) (o : CopyOp) (i : Nat) : State :=
  let t := o.streams.getD i (.of 0 0 0 0 [])
  (s.badTargets o t (o.seg t)).foldl (fun s b => s.failTarget v o i b.1 b.2) s

/-- Bytes written into the scratchpads that a segment reaches. -/
def State.writeTargets (s : State) (o : CopyOp) (t : CopyStream) (g : CopySeg) (bs : List Byte) : State :=
  (s.copyTeams o t).foldl (fun s m => match m.2.scratchPlaces g.off g.len with
    | some ps => s.modCore m.1 fun k => k.engineScratch ps bs
    | none => s) s

/-! ### The transport (R275, R402) -/

/-- What the look-up of a rank in a team's process-group table gives (R130): a page to wait for, no such rank, an error that ends the team,
or the rank's endpoint. -/
inductive RankAt where
  | wait
  | none_
  | lost (cause : Byte) (pa : Nat)
  | ok (e : BitVec 128)
  deriving DecidableEq, Repr

/-- The endpoint of a rank of a team's process-group table, which the engine reads as it reads the bytes that it moves (R130, R275). -/
def State.rankEndpoint (s : State) (o : CopyOp) (t : Team) (rank : Nat) : RankAt × State :=
  let stop : SegCheck → RankAt
    | .wait => .wait
    | .lost c pa => .lost c pa
    | _ => .none_
  let read (s : State) (pa n : Nat) : Nat := leNat (s.engineRead o.g.core t.part pa n)
  if t.desc.pgt = 0#64 then (.none_, s)
  else match s.engineCheck o t t.desc.pgt.toNat 4 false with
    | (.ready pa, s) =>
      if read s pa 4 ≤ rank then (.none_, s)
      else match s.engineCheck o t ((t.desc.pgt.toNat + 80 + 32 * rank) % 2 ^ 64) 16 false with
        | (.ready pa, s) => (.ok (BitVec.ofNat 128 (read s pa 16)), s)
        | (x, s) => (stop x, s)
    | (x, s) => (stop x, s)

/-- The endpoint of a slice's own port: its MAC, no VLAN and no key. -/
def State.ownEndpoint (s : State) (slice : Nat) : BitVec 128 := (s.slice slice).net.mac.setWidth 128

/-- The segment of a CPYN for an endpoint. -/
def State.segmentTo (s : State) (o : CopyOp) (e : BitVec 128) (x len : Nat) (bs : List Byte) : AdeserSegment :=
  { sender := s.ownEndpoint (sliceOf o.g.core), key := e.extractLsb' 64 64, put := !o.toGlobal,
    offset := BitVec.ofNat 64 (o.q 2 + o.q 3 * 2 ^ 32 + x), data := bs, len := len }

/-- A segment of a CPYN leaves from the issuing slice's port. -/
def State.sendSegment (s : State) (o : CopyOp) (e : BitVec 128) (g : CopySeg) (bs : List Byte) : State :=
  let slice := sliceOf o.g.core
  let seg := s.segmentTo o e g.x g.len bs
  s.modSlice slice fun x => { x with net := { x.net with segments := x.net.segments ++ [(e, seg)] } }

/-- The checks of a segment: those of the addresses alone, then the page and line of its global side (R277, R429). -/
def State.segCheck (s : State) (v : View) (o : CopyOp) (g : CopySeg) : SegCheck × State :=
  if o.hasGlobal && !canonical (BitVec.ofNat 64 g.va) then (.fault ⟨causeNonCanonical, g.va, 0⟩, s)
  else if o.hasScratch && !o.isCpym && (v.team.scratchPlaces g.off g.len).isNone then
    (.fault ⟨causeScratch, firstOutside g.off v.team.desc.scratch, 0⟩, s)
  else if o.hasGlobal then s.engineCheck o v.team g.va g.len o.toGlobal
  else (.ready 0, s)

/-- A segment has issued in the present clock. -/
def State.countSeg (s : State) (core : Nat) : State := s.modCore core fun k => { k with segs := k.segs + 1 }

/-- A segment moves its bytes; pa is where its global side lies. -/
def State.moveSegment (s : State) (v : View) (o : CopyOp) (t : CopyStream) (g : CopySeg) (pa : Nat) : State :=
  let core := o.g.core
  let part := v.team.part
  let own := (v.team.scratchPlaces g.off g.len).getD []
  match o.instr with
  | .cpyf _ =>
    let bs := o.fillBytes g.x g.len
    if o.toGlobal then s.engineWrite core part pa bs v.team.asid else s.modCore core fun k => k.engineScratch own bs
  | .cpym _ => s.writeTargets o t g (s.engineRead core part pa g.len)
  | _ =>
    if o.toGlobal then s.engineWrite core part pa (own.map fun p => (s.core core).scratch.get p 0#8) v.team.asid
    else s.modCore core fun k => k.engineScratch own (s.engineRead core part pa g.len)

/-- The next segment of a part performs, fails its checks, or waits for a page. -/
def State.runPart (s : State) (v : View) (o : CopyOp) (i : Nat) (send : Option (BitVec 128)) : State :=
  let t := o.streams.getD i (.of 0 0 0 0 [])
  let g := o.seg t
  let core := o.g.core
  match s.segCheck v o g with
  | (.wait, s) => s
  | (.fault f, s) => (s.countSeg core).failPart v o i f
  | (.lost c pa, s) => (s.countSeg core).consumeCopy v o (o.partLanes t) c pa fun s => s.passSegment o i
  | (.ready pa, s) =>
    let s := s.countSeg core
    match send with
    | none => (s.moveSegment v o t g pa).passSegment o i
    | some e =>
      let bs := if o.toGlobal then [] else s.engineRead core v.team.part pa g.len
      let at_ := (s.slice (sliceOf core)).cyc
      ((s.sendSegment o e g bs).passSegment o i).modCopy core o.id fun p =>
        { p with sent := p.sent ++ [⟨g.row, g.x, g.index, g.len, 0, e, at_⟩] }

/-- The next segment of a part: a CPYN finds its rank's endpoint first, and the targets of a CPYM that fail leave its part first; one that
a failed link cuts off gives an error response (R411). -/
def State.runSegment (s : State) (v : View) (o : CopyOp) (i : Nat) : State :=
  let core := o.g.core
  match o.instr with
  | .cpyn _ => match s.rankEndpoint o v.team (o.q 1) with
    | (.wait, s) => s
    | (.none_, s) => (s.countSeg core).failPart v o i ⟨0x40#8, o.global.toNat, 0⟩
    | (.lost c pa, s) => (s.countSeg core).consumeCopy v o o.leaderMask c pa fun s => s.passSegment o i
    | (.ok e, s) => s.runPart v o i (some e)
  | .cpym _ =>
    if !canonical (BitVec.ofNat 64 (o.seg (o.streams.getD i (.of 0 0 0 0 []))).va) then s.runPart v o i none
    else
      let s := s.failTargets v o i
      match (s.core core).copies.find? fun p => p.id == o.id with
      | none => s
      | some o =>
        let t := o.streams.getD i (.of 0 0 0 0 [])
        let way := s.targetWay o v.team.part t
        if t.targets.isEmpty || s.awaitsTarget o t || way == .held then s
        else if way.errs then (s.countSeg core).consumeCopyAt v o o.leaderMask 0x87#8 0 way.detail fun s => s.passSegment o i
        else s.runPart v o i none
  | _ => s.runPart v o i none

/-! ### The engine (R267) -/

/-- Whether nothing of a part is left: every segment has issued, or no target of a CPYM is left in it. -/
def CopyOp.partDone (o : CopyOp) (t : CopyStream) : Bool := t.finished || (o.isCpym && t.targets.isEmpty)

/-- Whether a copy has segments left that no fault holds. -/
def CopyOp.servedPart (o : CopyOp) : Bool := o.streams.any fun t => !t.held && !o.partDone t

/-- The working set: at most 8 copies with segments left that no fault holds, started in order of acceptance. -/
def refillWorking : Nat → List CopyOp → List CopyOp
  | _, [] => []
  | n, o :: r =>
    if !o.servedPart then { o with working := false } :: refillWorking n r
    else if o.working then o :: refillWorking n r
    else if n = 0 then o :: refillWorking 0 r
    else { o with working := true } :: refillWorking (n - 1) r

def Core.fillWorking (k : Core) : Core :=
  let busy := (k.copies.filter fun o => o.working && o.servedPart).length
  { k with copies := refillWorking (8 - busy) k.copies }

/-- The part of a copy whose segment comes next: the first that no fault holds and that has segments left, but that a held row of a
scatter, or one that waits for such a row, does not stand before (R273). -/
def State.nextPart (s : State) (o : CopyOp) : Option Nat :=
  (List.range o.streams.length).find? fun i =>
    let t := o.streams.getD i (.of 0 0 0 0 [])
    !t.held && !o.partDone t && !s.rowBlocked o ((o.streams.take i).filter fun b => !o.partDone b) t

/-- Whether a copy waits for a walk that it has joined (R210). -/
def State.copyWalks (s : State) (core : Nat) (t : Team) (o : CopyOp) : Bool :=
  (s.slice (sliceOf core)).walks.vals.any fun w =>
    o.waitPages.contains (w.va / 4096) && w.asid == t.asid && w.world == t.desc.world && w.part == t.part && w.cores.contains (core, noSub)

/-- Whether a team's copies are served: not while it is being saved, nor before the last of its cluster is restored (R279, R334). -/
def Team.copiesRun (t : Team) : Bool := t.saving.isNone && !t.holdIssue

/-- The copies of the working set whose next segment may issue, with the part it belongs to: from the clock after their acceptance. -/
def State.servable (s : State) (core : Nat) : List (CopyOp × Nat) :=
  let k := s.core core
  k.copies.filterMap fun o => match k.teams.find o.ctx, s.nextPart o with
    | some t, some i =>
      let older := k.copies.takeWhile fun p => p.id != o.id
      if o.working && t.copiesRun && decide (o.issued < k.clock) && !s.copyWalks core t o
        && !s.copyBlocked o older (o.streams.getD i (.of 0 0 0 0 [])) then some (o, i) else none
    | _, _ => none

/-- The copy of the lowest number. -/
def lowestCopy (l : List (CopyOp × Nat)) : Option (CopyOp × Nat) :=
  l.foldl (fun b p => match b with
    | some q => if p.1.id < q.1.id then some p else some q
    | none => some p) none

/-- One segment, of the next copy in round-robin order of the copies' numbers. -/
def State.serveOne (s : State) (core : Nat) : State :=
  let l := s.servable core
  let next := (s.core core).copyNext
  match (lowestCopy (l.filter fun p => decide (next ≤ p.1.id))).or (lowestCopy l) with
  | none => s
  | some (o, i) => match s.view o.g with
    | none => s
    | some v =>
      let s := s.modCore core fun k => { k with copyNext := o.id + 1 }
      let s := s.modCopy core o.id fun p => { p with started := true }
      s.runSegment v { o with started := true } i

/-- COPY_SEGMENT_ISSUE (R267): the engine's segments in one clock, at most two; a segment performs as it issues. What has failed before the
clock is recorded first (R429). -/
def execCopySegmentIssue (core : Nat) (s : State) : Outcome State Fault Refusal :=
  let fill (s : State) : State := s.modCore core Core.fillWorking
  let one (s : State) : State := if (s.core core).segs < 2 then (fill s).serveOne core else s
  let s := ((s.core core).copies.map CopyOp.id).foldl (fun s id => s.postFailures core id (s.core core).clock) s
  .next (fill (one (one s)))

/-- Whether every byte of a copy has performed. -/
def CopyOp.complete (o : CopyOp) : Bool :=
  o.started && o.sent.isEmpty && o.streams.all o.partDone

/-- COPY_COMPLETE (R268): the copy's counter falls, and what its reads have set in %gst is set (R46). -/
def execCopyComplete (core id : Nat) (s : State) : Outcome State Fault Refusal :=
  match (s.core core).copies.find? fun o => o.id == id with
  | none => .next s
  | some o =>
    if o.complete then
      let s := s.modCore core fun k => { k with copies := k.copies.filter fun p => p.id != id }
      let s := (s.modFibre o.g fun f => f.completeWith o.opId o.flags).settleAborted o.g
      .next (s.retireIfDone core o.ctx)
    else .next s

/-- RESUME of a copy (R277): the parts that a record holds go on from their failing segments; a copy that failed at acceptance is
checked as at acceptance, and fails again. -/
def State.resumeCopy (s : State) (v : View) (opId : Nat) (ftag : BitVec 16) : State :=
  match v.core.copies.find? fun o => o.g == v.g && o.opId == opId with
  | none => s
  | some o =>
    if o.malformed then
      (s.copyFault v o causeMisaligned o.leaderMask (if o.hasGlobal then o.global.toNat else o.base) 0 0).2
    else s.modCopy v.g.core o.id fun p =>
      { p with streams := p.streams.map fun t => if t.ftag = some ftag then { t with fail := none, ftag := none } else t, waitPages := [], walkFaults := [] }

/-! ### Detection of a fault (R230-R232, R277, R429) -/

/-- The copies of a core with a failed segment that the end of its present clock shows at the latest (R429), each by its group's operation. -/
def Core.dueFailures (k : Core) : List (GroupRef × Nat) :=
  (k.copies.filter fun o => !(o.failures k.clock).isEmpty).map fun o => (o.g, o.opId)

/-- ACCESS_FAULT_DETECT (R230, R231, R429): the lanes of an entry that fail are held and the fibre freezes; the entry writes one
record when it holds none yet. Those of a group that is made to exit are discarded. A copy's segment that has failed in an earlier clock is
recorded in the same way (R277). -/
def execAccessFaultDetect (g : GroupRef) (id : Nat) (s : State) : Outcome State Fault Refusal :=
  match s.view g with
  | none => .next s
  | some v => match v.fib.op? id with
    | none => match v.core.copies.find? fun o => o.g == g && o.opId == id with
      | some o => .next (s.postFailures g.core o.id v.core.clock)
      | none => .next s
    | some o =>
      let lanes := maskLanes (o.pending &&& ~~~o.held)
      let bad := lanes.filterMap fun l => (s.laneFault v o l).map fun x => (l, x)
      match bad with
      | [] => .next s
      | b :: _ =>
        let m := maskOf fun l => bad.any fun x => x.1 == l
        if v.core.clock ≤ o.issued then .next s
        else if v.fib.aborting then .next (s.discardLanes g o m)
        else
          let s := bad.foldl (fun s x => s.countRefused v o x.2) s
          let s := bad.foldl (fun s x => s.dropFailing v x.2.page x.2.cause) s
          let s := s.modFibre g fun f => f.modOp id fun p => { p with held := p.held ||| m }
          if o.held ≠ 0#32 then .next s
          else
            let info := { v.faultAt b.2.cause (opSub o.instr).1 (opSub o.instr).2 m b.1.val with
              prov := o.prov, pc := codeAddress o.handle o.offset, address := b.2.address,
              entry := (o.logSlot.map fun n => BitVec.ofNat 8 n).getD 0xFF#8,
              detail := BitVec.ofNat 64 b.2.detail, opId := id }
            .next (s.takeFaultS v info)

/-! ### The return of a walk (R210) -/

/-- A group's operation whose page's walk met an error response or poison: its lanes of the page, or the operation, are lost, and the team
ends; a lane of a PREF is dropped (R222, R406; DEDUCED: notes/assumptions). -/
def State.loseWaiting (s : State) (v : View) (o : Op) (page : Nat) (cause : Byte) (pa detail : Nat) : State :=
  match o.instr with
  | .ld _ | .st _ | .atom _ =>
    s.loseLanesAt v o ((maskLanes (o.pending &&& ~~~o.held)).filter fun l => pageOf (o.addr l) == page) cause pa detail
  | .pref _ => s.modFibre v.g fun f => f.modOp o.id fun o => o.takeWalkFault page causeNoLeaf
  | _ => s.loseOpAt v o cause pa detail

/-- What a walk that met an error does to a context that waits for its page, and to a copy. -/
def State.loseContext (s : State) (c : CtxRef) (t : Team) (cause : Byte) (pa : Nat) : State :=
  let s := s.modTeam c.core c.ctx fun t => { t with gen := { t.gen with waitPage := none } }
  if s.mayConsume c.core c.ctx then s.consumeGen c t cause pa else s
def State.loseCopy (s : State) (o : CopyOp) (cause : Byte) (pa detail : Nat) : State :=
  let s := s.modCopy o.g.core o.id fun p => { p with waitPages := [] }
  match s.view o.g with
  | some v => s.consumeCopyAt v o o.leaderMask cause pa detail id
  | none => s

/-- Every access that joined a walk which met an error: those of a sub-partition, or those served by a core's second level alone. -/
def State.walkLost (s : State) (w : Walk) (cause : Byte) (pa core sub : Nat) : State :=
  let k := s.core core
  let page := w.va / 4096
  let detail := s.consumeDetail (sliceOf core) w.part cause pa
  let mine (t : Team) : Bool := t.asid == w.asid && t.desc.world == w.world
  if sub = noSub then
    let s := k.teams.cells.foldl (fun s p =>
      if mine p.2 && p.2.gen.waitPage == some page then s.loseContext ⟨core, p.1⟩ p.2 cause pa else s) s
    k.copies.foldl (fun s o => if (k.teams.find o.ctx).any mine && o.waitPages.contains page then s.loseCopy o cause pa detail else s) s
  else
    (k.groups core).foldl (fun s p => match s.view p.1 with
      | none => s
      | some v =>
        if p.1.sub = sub ∧ mine v.team then
          (v.fib.ops.filter fun o => o.waitsPage page).foldl (fun s o => s.loseWaiting v o page cause pa detail) s
        else s) s

/-- WALK_RETURN (R210): the walk ends with what memory holds now; its translation enters the caches of every core that joined, or
its fault reaches every access that joined. A PTE that the firewall refuses is logged for the first of them (R363), and an access whose
walk meets an error gets an error response; a walk to a slice in recovery waits (R414). -/
def execWalkReturn (slice walk : Nat) (s : State) : Outcome State Fault Refusal :=
  match (s.slice slice).walks.find walk with
  | none => .next s
  | some w =>
    let gone := s.modSlice slice fun x => { x with walks := x.walks.erase walk }
    match s.walkEnd slice w.part w.root w.world (BitVec.ofNat 64 w.va) with
    | .held => .next s
    | .lost c pa =>
      let s := if c = 0x87#8 then gone.refuseAccess ((w.cores.head?.map (·.1)).getD (16 * slice)) 1 pa else gone
      .next (w.cores.foldl (fun s p => s.walkLost w c pa p.1 p.2) s)
    | .result (.ok e) => .next (w.cores.foldl (fun s c => s.modCore c.1 fun k => k.fillTlb c.2 e) gone)
    | .result (.error c) => .next (w.cores.foldl (fun s p => s.walkFault w c p.1 p.2) gone)

/-! ### What comes back from the transport (R275, R277, R402) -/

/-- A segment in the transport fails: the copy goes back to it and is held there. -/
def State.failSent (s : State) (v : View) (o : CopyOp) (x : CopySent) (f : SegFault) : State :=
  let o := { o with sent := o.sent.filter (fun y => decide (y.index < x.index)), streams := [.of 1 x.row x.x x.index []] }
  ((s.modCopy o.g.core o.id fun _ => o).failPart v o 0 f).postFailures o.g.core o.id ((s.core o.g.core).clock + 1)

/-- The slice of this package whose port an endpoint names. -/
def State.portAt (s : State) (e : BitVec 128) : Option Nat :=
  (List.range Config.slices).find? fun n => (s.slice n).part.isSome && (s.slice n).net.mac == e.extractLsb' 0 48

/-- A segment without its bytes. -/
def bareSegment (g : AdeserSegment) : AdeserSegment := { g with data := [] }

/-- An acknowledgement is taken from the port that sent it: one of this package has replied so to the segment; what another package's
port has sent is not held here. -/
def State.takeReply (s : State) (o : CopyOp) (x : CopySent) (refused : Bool) (data : List Byte) : Option State :=
  match s.portAt x.dest with
  | none => some s
  | some n =>
    let mine (r : AdeserSegment × Bool × List Byte) : Bool :=
      bareSegment r.1 == s.segmentTo o x.dest x.x x.len [] && r.2.1 == refused && r.2.2 == data
    match (s.slice n).net.replies.find? mine with
    | none => none
    | some r => some (s.modSlice n fun y => { y with net := { y.net with replies := y.net.replies.erase r } })

/-- ADESER_ACK (R275): a segment has performed at the remote partition, or is refused there (0x41). The bytes of a get are written at
the home bank; a page of theirs that is not at hand is walked first. -/
def execAdeserAck (core id segment : Nat) (data : List Byte) (refused : Bool) (s : State) : Outcome State Fault Refusal :=
  match (s.core core).copies.find? fun o => o.id == id with
  | none => .next s
  | some o => match s.view o.g, o.sent.find? fun x => x.index == segment with
    | some v, some x =>
      let at_ := (o.global.toNat + x.x) % 2 ^ 64
      let gone (s : State) : State := s.modCopy core id fun p => { p with sent := p.sent.filter fun y => y.index != segment }
      match s.takeReply o x refused data with
      | none => .next s
      | some s' =>
        if refused then .next (s'.failSent v o x ⟨0x41#8, at_, 0⟩)
        else if o.toGlobal then
          match s'.engineCheck o v.team at_ x.len true with
          | (.wait, _) => .next (s.engineCheck o v.team at_ x.len true).2
          | (.ready pa, s) => .next (gone (s.engineWrite core v.team.part pa (data.take x.len) v.team.asid))
          | (.fault f, s) => .next (s.failSent v o x f)
          | (.lost c pa, s) => .next (s.consumeCopy v o o.leaderMask c pa gone)
        else .next (gone s')
    | _, _ => .next s

/-- How long a segment waits for its acknowledgement before it is sent again, in clocks of %cyc: 20 us (R402). -/
def resendAfter : Nat := 20000

/-- A segment in the transport leaves once more, with what its bytes are now. -/
def State.sendAgain (s : State) (o : CopyOp) (x : CopySent) (e : BitVec 128) (bs : List Byte) : State :=
  let at_ := (s.slice (sliceOf o.g.core)).cyc
  (s.sendSegment o e (o.seg x.stream) bs).modCopy o.g.core o.id fun p =>
    { p with sent := p.sent.map fun y => if y.index = x.index then { y with retries := y.retries + 1, dest := e, at_ := at_ } else y }

/-- ADESER_RESEND_TIMEOUT (R402): a segment that has gone unacknowledged for 20 us is sent again, with its sources read again and checked;
after 8 such retries the operation faults with 0x42. -/
def execAdeserResendTimeout (core id segment : Nat) (s : State) : Outcome State Fault Refusal :=
  match (s.core core).copies.find? fun o => o.id == id with
  | none => .next s
  | some o => match s.view o.g, o.sent.find? fun x => x.index == segment with
    | some v, some x =>
      let at_ := (o.global.toNat + x.x) % 2 ^ 64
      if ((s.slice (sliceOf core)).cyc - x.at_).toNat < resendAfter then .next s
      else if 8 ≤ x.retries then .next (s.failSent v o x ⟨0x42#8, at_, 0⟩)
      else match s.rankEndpoint o v.team (o.q 1) with
        | (.wait, s) => .next s
        | (.none_, s) => .next (s.failSent v o x ⟨0x40#8, o.global.toNat, 0⟩)
        | (.lost c pa, s) => .next (s.consumeCopy v o o.leaderMask c pa fun s => s)
        | (.ok e, s) =>
          if o.toGlobal then .next (s.sendAgain o x e [])
          else match s.engineCheck o v.team at_ x.len false with
            | (.wait, s) => .next s
            | (.ready pa, s) => .next (s.sendAgain o x e (s.engineRead core v.team.part pa x.len))
            | (.fault f, s) => .next (s.failSent v o x f)
            | (.lost c pa, s) => .next (s.consumeCopy v o o.leaderMask c pa fun s => s)
    | _, _ => .next s

end Sys2Proof.Machine
end

