-- ==== Sys2Proof/Machine/Generator.lean ====
section
/-!
DEFINITION. The generator class (R62-R99): a context's next word and the meanings of the class's 28 words, emission with its validation and provenance, blocks and
their handles, start descriptors, and the events that end a context's wait, drain its queue and reclaim its blocks.
-/

namespace Sys2Proof.Machine

open Host (Outcome)

/-! ### The acting context -/

/-- What a meaning of a generator word begins with: the context whose turn it is, its team and the core's clock. -/
def State.withCtx (s : State) (k : CtxRef → Team → Nat → State) : Outcome State Fault Refusal :=
  match s.cur with
  | .ctx c => match s.team? c.core c.ctx with
    | some t => .next (k c t (s.core c.core).clock)
    | none => .fault .noAgent
  | _ => .fault .noAgent

/-- A g-register: g0 reads zero (R62). -/
def GenCtx.reg (x : GenCtx) (r : BitVec 6) : DWord := if r = 0#6 then 0#64 else x.g.get r.toNat 0#64
/-- A g-register written: a write to g0 is discarded (R62). -/
def GenCtx.setReg (x : GenCtx) (r : BitVec 6) (v : DWord) : GenCtx := if r = 0#6 then x else { x with g := x.g.set r.toNat v }
def Team.greg (t : Team) (r : BitVec 6) : DWord := t.gen.reg r
def Team.setGreg (t : Team) (r : BitVec 6) (v : DWord) : Team := { t with gen := t.gen.setReg r v }

/-- The raw immediate of a generator word under kind 2, else 0. -/
def genImm (f : GenFields) : BitVec 20 :=
  match f.ext with
  | .imm x => x
  | _ => 0#20

/-- gA + off, the address of a generator access. -/
def Team.genAddr (t : Team) (f : GenFields) : DWord := t.greg f.a + (genImm f).signExtend 64

/-- The instruction completes a number of clocks after its issue, and the program counter moves on (R66). -/
def State.genNextWord (s : State) (c : CtxRef) (at_ : Nat) (u : Team → Team) : State :=
  s.modTeam c.core c.ctx fun t => (u t).genStep at_

/-! ### GALU, GMOVI and GRDSR (R68, R69, R71) -/

/-- Whether an operation of GALU takes its immediate as signed (R68). -/
def galuSigned (op : Nat) : Bool := [0, 1, 8, 10, 12, 13].contains op

/-- The second operand of GALU (R35, R68). -/
def Team.galuB (t : Team) (f : GenFields) : DWord :=
  let sg := galuSigned f.sub.toNat
  match f.ext with
  | .imm x => if sg then x.signExtend 64 else x.setWidth 64
  | .shifted x => if sg then (x ++ 0#12).signExtend 64 else (x ++ 0#12).setWidth 64
  | _ => t.greg f.b

/-- The result of GALU (R68). -/
def galuValue (op : Nat) (a b : DWord) : DWord :=
  let n := b.toNat % 64
  match op with
  | 0 => a + b
  | 1 => a - b
  | 2 => a &&& b
  | 3 => a ||| b
  | 4 => a ^^^ b
  | 5 => a <<< n
  | 6 => a >>> n
  | 7 => a.sshiftRight n
  | 8 => a * b
  | 9 => BitVec.ofNat 64 (a.toNat * b.toNat / 2 ^ 64)
  | 10 => if a.slt b then 1#64 else 0#64
  | 11 => if a.ult b then 1#64 else 0#64
  | 12 => if b.slt a then b else a
  | 13 => if a.slt b then b else a
  | 14 => if b.ult a then b else a
  | _ => if a.ult b then b else a

/-- GALU (R68). -/
def execGalu (f : GenFields) (s : State) : Outcome State Fault Refusal :=
  s.withCtx fun c t clock =>
    s.genNextWord c (clock + 1) fun x => x.setGreg f.d (galuValue f.sub.toNat (t.greg f.a) (t.galuB f))

/-- A chunk of a register replaced (R69). -/
def gmoviValue (chunk : Nat) (old : DWord) (x : BitVec 20) : DWord :=
  match chunk with
  | 0 => setField old 0 20 x.toNat
  | 1 => setField old 20 20 x.toNat
  | 2 => setField old 40 20 x.toNat
  | _ => setField old 60 4 x.toNat

/-- GMOVI (R69). -/
def execGmovi (f : GenFields) (s : State) : Outcome State Fault Refusal :=
  s.withCtx fun c t clock =>
    s.genNextWord c (clock + 1) fun x => x.setGreg f.d (gmoviValue f.sub.toNat (t.greg f.d) (genImm f))

/-- The extents of a launch's grid (R63): [21:0] x, [42:22] y, [63:43] z. -/
def Desc.gridX (d : Desc) : Nat := (d.grid.extractLsb' 0 22).toNat
def Desc.gridY (d : Desc) : Nat := (d.grid.extractLsb' 22 21).toNat
def Desc.gridZ (d : Desc) : Nat := (d.grid.extractLsb' 43 21).toNat
/-- The number of teams of the grid. -/
def Desc.teams (d : Desc) : Nat := d.gridX * d.gridY * d.gridZ

/-- The special registers that every agent of a team reads alike (R59, R71, R128). -/
def State.teamSr (s : State) (core : Nat) (t : Team) (n : Nat) : DWord :=
  let w (x : Nat) : DWord := BitVec.ofNat 64 (x % 2 ^ 32)
  match n with
  | 0x05 => w core
  | 0x06 => w (sliceOf core)
  | 0x07 => w t.part
  | 0x08 => w t.x
  | 0x09 => w t.y
  | 0x0A => w t.z
  | 0x0B => w t.desc.teams
  | 0x0C => w t.clrank
  | 0x0D => w ((t.cluster.map (·.2)).getD 1)
  | 0x0E => w t.rank
  | 0x0F => w t.nranks
  | 0x12 => w (boolNat t.preq)
  | 0x13 => (s.slice (sliceOf core)).cyc
  | 0x14 => w t.desc.world
  | _ => 0#64

/-- GRDSR (R71). -/
def execGrdsr (f : GenFields) (s : State) : Outcome State Fault Refusal :=
  s.withCtx fun c t clock =>
    let v := if f.sub = 0x11#8 then (withMode 0#32 t.gen.sup).setWidth 64 else s.teamSr c.core t f.sub.toNat
    s.genNextWord c (clock + 1) fun x => x.setGreg f.d v

/-! ### Transfers (R70) -/

/-- The condition of GBR (R70). -/
def gbrTaken (cc : Nat) (a b : DWord) : Bool :=
  match cc with
  | 0 => a == b
  | 1 => a != b
  | 2 => a.slt b
  | 3 => !a.slt b
  | 4 => a.ult b
  | _ => !a.ult b

/-- The word index of a relative target. -/
def Team.genRel (t : Team) (f : GenFields) : Int :=
  match f.ext with
  | .rel x => (t.gen.pc : Int) + x.toInt
  | _ => t.gen.pc

/-- A transfer to a word index: the context's own write comes first; an index at or beyond GEN_WORDS is then a bad generator memory
access, at the transfer, and any other is where the program counter goes. -/
def State.genJump (s : State) (c : CtxRef) (t : Team) (i : Instr) (target : Int) (clock : Nat) (u : Team → Team) : State :=
  let s := s.modTeam c.core c.ctx u
  if target < 0 ∨ (t.hdr.genWords : Int) ≤ target then
    s.badGenAccess c i (t.desc.image + BitVec.ofNat 64 t.hdr.genOff + BitVec.ofInt 64 (12 * target)) 0
  else s.modTeam c.core c.ctx fun x => x.genTo target.toNat (clock + 2)

/-- GBR (R70). -/
def execGbr (f : GenFields) (s : State) : Outcome State Fault Refusal :=
  s.withCtx fun c t clock =>
    if gbrTaken f.sub.toNat (t.greg f.a) (t.greg f.b) then s.genJump c t (.gbr f) (t.genRel f) clock id
    else s.genNextWord c (clock + 1) id

/-- GJMP to a label (R70). -/
def execGjmp (f : GenFields) (s : State) : Outcome State Fault Refusal :=
  s.withCtx fun c t clock => s.genJump c t (.gjmp f) (t.genRel f) clock id

/-- GJMP to the index in a register (R70). -/
def execGjmpReg (f : GenFields) (s : State) : Outcome State Fault Refusal :=
  s.withCtx fun c t clock => s.genJump c t (.gjmpReg f) (t.greg f.a).toNat clock id

/-- GCALL to a label (R70). -/
def execGcall (f : GenFields) (s : State) : Outcome State Fault Refusal :=
  s.withCtx fun c t clock =>
    s.genJump c t (.gcall f) (t.genRel f) clock fun x => x.setGreg f.d (BitVec.ofNat 64 (t.gen.pc + 1))

/-- GCALL to the index in a register, which is read before the link is written (R29, R70). -/
def execGcallReg (f : GenFields) (s : State) : Outcome State Fault Refusal :=
  s.withCtx fun c t clock =>
    s.genJump c t (.gcallReg f) (t.greg f.a).toNat clock fun x => x.setGreg f.d (BitVec.ofNat 64 (t.gen.pc + 1))

/-- GRET (R70). -/
def execGret (f : GenFields) (s : State) : Outcome State Fault Refusal :=
  s.withCtx fun c t clock => s.genJump c t (.gret f) (t.greg f.a).toNat clock id

/-! ### Memory (R72-R75) -/

/-- What the checks of a context's access give: a miss to wait for, a fault's cause, an error that ends the team with its record's cause
and address, or the physical address. -/
inductive GenAccess where
  | wait
  | bad (cause : Byte)
  | lost (cause : Byte) (pa : Nat)
  | ready (pa : Nat)
  deriving DecidableEq, Repr

/-- Whether a context's load or store of the default hint sends a request to its line's home: a load that the core's cache does not serve,
a store past the cache or to a launch word (R211, R253). -/
def State.genFar (s : State) (core : Nat) (va : DWord) (pa size : Nat) (write : Bool) : Bool :=
  if write then s.hint core 0 == 3 || (s.coreLaunch core pa size).isSome
  else loadFromHome (s.core core) (pa / 128) (s.hint core 0) (lineOffs va size)

/-- The checks of a context's access to size bytes (R72, R209, R214, R254, R363); launch says that the access may write a launch
word. -/
def State.genCheck (s : State) (c : CtxRef) (t : Team) (va : DWord) (size : Nat) (read write launch : Bool) : GenAccess × State :=
  if va.toNat % size ≠ 0 then (.bad 1#8, s)
  else match s.genXlate c t va read write with
    | (.bad _, s) => (.bad 1#8, s)
    | (.wait, s) => (.wait, s)
    | (.ok pa e, s) =>
      match (if write && !launch then s.coreLaunch c.core pa (min size 8) else none) with
      | some w => (.bad causeLaunchWord, s.refuseLaunch t.part w.1 pa)
      | none =>
        let way := s.way (sliceOf c.core) t.part pa
        let far := (read && write) || s.genFar c.core va pa size write
        if way = .refused ∨ (far ∧ way.errs) then (.lost 0x87#8 pa, s)
        else if (far ∧ way = .held) ∨ (¬ far ∧ s.l1Room c.core ≠ 0 ∧ s.l1Takes c.core (pa / 128) = false) then (.wait, s)
        else if (s.aliasCause t.part pa e).isSome then (.bad 1#8, s)
        else (.ready pa, s)

/-- The team of a context ends for an error that its access consumed; it waits for a place in the record buffer (R337, R406). -/
def State.genLost (s : State) (c : CtxRef) (t : Team) (cause : Byte) (pa clock : Nat) : State :=
  if !s.mayConsume c.core c.ctx then s.genHold c clock
  else (if cause = 0x87#8 then s.refuseAccess c.core 1 pa else s).consumeGen c t cause pa

/-- What a read of a context's code, templates or descriptors gives: the bytes, a page to wait for, the cause of a bad access, or an error
that ends the team. -/
inductive GenBytes where
  | ok (bs : List Byte)
  | wait
  | bad (c : Byte)
  | lost (cause : Byte) (pa : Nat)
  deriving DecidableEq, Repr

/-- The pieces of a byte range that lie in one line each. -/
def linePieces (va : DWord) (n : Nat) : List (DWord × Nat) :=
  (List.range (n / 128 + 2)).filterMap fun i =>
    let lo := max va.toNat ((va.toNat / 128 + i) * 128)
    let hi := min (va.toNat + n) ((va.toNat / 128 + i + 1) * 128)
    if lo < hi then some (BitVec.ofNat 64 lo, hi - lo) else none

/-- Bytes of one line through the core's generator cache, which a miss fills (R64, R66). -/
def State.genLine (s : State) (c : CtxRef) (t : Team) (va : DWord) (n : Nat) : GenBytes × State :=
  match s.genXlate c t va true false with
  | (.bad x, s) => (.bad x, s)
  | (.wait, s) => (.wait, s)
  | (.ok pa e, s) =>
    let way := s.way (sliceOf c.core) t.part pa
    if way = .refused then (.lost 0x87#8 pa, s)
    else match s.aliasCause t.part pa e with
      | some x => (.bad x, s)
      | none => match (s.core c.core).genCache.find (pa / 128) with
        | some l => (.ok (l.at pa n), s)
        | none =>
          if way.errs then (.lost 0x87#8 pa, s)
          else if way = .held then (.wait, s)
          else if (s.line t.part pa).poison then (.lost 0x81#8 pa, s)
          else (.ok (s.readMem t.part pa n), s.modCore c.core fun k => { k with genCache := s.fillLine t.part (pa / 128) (k.room genUnit) k.genCache })

/-- Bytes of several lines, in order. -/
def State.genLines (s : State) (c : CtxRef) (t : Team) : List (DWord × Nat) → GenBytes × State
  | [] => (.ok [], s)
  | p :: r => match s.genLine c t p.1 p.2 with
    | (.ok a, s) => match s.genLines c t r with
      | (.ok b, s) => (.ok (a ++ b), s)
      | x => x
    | x => x

/-- Bytes of a context's code, templates or data section at a virtual address (R64). -/
def State.genBytes (s : State) (c : CtxRef) (t : Team) (va : DWord) (n : Nat) : GenBytes × State := s.genLines c t (linePieces va n)

/-- A context's access, when its checks pass; a bad one is the level-G fault of its cause (R95). -/
def State.genAccess (s : State) (c : CtxRef) (t : Team) (i : Instr) (va : DWord) (size : Nat) (read write launch : Bool)
    (clock : Nat) (k : State → Nat → State) : State :=
  match s.genCheck c t va size read write launch with
  | (.wait, s) => match i with
    | .gacq _ => s.genHold c clock
    | _ => s.genBusy c clock
  | (.bad x, s) => s.takeFaultG c x (opSub i).1 (opSub i).2 va 0 none
  | (.lost x pa, s) => s.genLost c t x pa clock
  | (.ready pa, s) => k s pa

/-- The watch that a context's access meets: it has performed, and the context freezes at its next word (R322). -/
def State.genWatch (s : State) (c : CtxRef) (t : Team) (i : Instr) (va : DWord) (size : Nat) (read write : Bool) : State :=
  match (s.core c.core).watchHit t.asid va.toNat size read write with
  | none => s
  | some (k, at_) =>
    let s := s.modTeam c.core c.ctx fun t => { t with gen := { t.gen with run := .frozen } }
    let r : Rec :=
      { Rec.blank with
        cause := 0x62#8, op := (opSub i).1, sub := (opSub i).2, mode := t.gen.sup, level := true, place := placeOfCtx c,
        address := BitVec.ofNat 64 at_, prov := BitVec.ofNat 32 t.gen.pc, world := t.desc.world, asid := t.asid,
        launch := BitVec.ofNat 8 t.launch, team := BitVec.ofNat 32 t.index, detail := BitVec.ofNat 64 (k + if write then 4 else 0) }
    s.postAnswerable (sliceOf c.core) r (.ctx c) 0

/-- The bytes of a context's load of the default hint, none when the line it reads at the home bank is poisoned. -/
def State.genRead (s : State) (c : CtxRef) (t : Team) (va : DWord) (pa size : Nat) : Option (List Byte) × State :=
  let offs := lineOffs va size
  if loadFromHome (s.core c.core) (pa / 128) (s.hint c.core 0) offs && (s.line t.part pa).poison then (none, s)
  else let r := s.loadLine c.core (pa / 128) 0 offs; (some r.1, r.2)

/-- The value of GLD (R72). -/
def gldValue (size : Nat) (sx : Bool) (bs : List Byte) : DWord :=
  let n := leNat bs
  if sx ∧ 2 ^ (8 * size - 1) ≤ n then BitVec.ofInt 64 ((n : Int) - 2 ^ (8 * size)) else BitVec.ofNat 64 n

/-- The size of GLD and GST. -/
def genSize (f : GenFields) : Nat := 2 ^ (f.sub &&& 3#8).toNat

/-- GLD (R72). -/
def execGld (f : GenFields) (s : State) : Outcome State Fault Refusal :=
  s.withCtx fun c t clock =>
    let va := t.genAddr f
    let size := genSize f
    s.genAccess c t (.gld f) va size true false false clock fun s pa =>
      match s.genRead c t va pa size with
      | (none, s) => s.genLost c t 0x81#8 pa clock
      | (some bs, s) =>
        (s.genNextWord c (clock + 1) fun x => x.setGreg f.d (gldValue size (f.sub.getLsbD 2) bs)).genWatch c t (.gld f) va size true false

/-- A launch that a context's store or exchange queues; one that cannot be queued ends the team (R254, R314). -/
def State.genLaunch (s : State) (c : CtxRef) (t : Team) (w : Nat × Nat) (arg : DWord) : State :=
  let q := s.queueLaunch t.part w.1 arg w.2
  if q.2 then q.1 else q.1.consumeGen c t 0x87#8 w.2

/-- Whether an action of a context over its core's whole first-level cache waits: for a write-back whose way is not open, or for the turn
of a group's CINV or CWB (R266). -/
def State.genCacheWaits (s : State) (core : Nat) : Bool := s.cacheStuck core || s.rangeRuns core

/-- GST (R72); a store of a launch word follows a release action and queues a launch (R253, R254). -/
def execGst (f : GenFields) (s : State) : Outcome State Fault Refusal :=
  s.withCtx fun c t clock =>
    let va := t.genAddr f
    let size := genSize f
    let v := t.greg f.b
    s.genAccess c t (.gst f) va size false true (size == 8) clock fun s pa =>
      let cells := (lineOffs va size).zip (leBytes size v.toNat)
      match s.coreLaunch c.core pa size with
      | none =>
        ((s.storeLine c.core (pa / 128) 0 cells t.asid).genNextWord c (clock + 1) id).genWatch c t (.gst f) va size false true
      | some w =>
        if s.genCacheWaits c.core then s.genBusy c clock else
        let s := ((s.releaseCache c.core).storeLine c.core (pa / 128) 3 cells t.asid).genNextWord c (clock + 1) id
        (s.genWatch c t (.gst f) va size false true).genLaunch c t w v

/-- AOP, W and SEM of GATOM (R49). -/
def gatomAop (f : GenFields) : Nat := (f.sub >>> 4).toNat
def gatomW (f : GenFields) : Bool := f.sub.getLsbD 3
def gatomSem (f : GenFields) : Nat := ((f.sub >>> 1) &&& 3#8).toNat

/-- GATOM (R73) at partition scope, with the actions of its semantics (R249). -/
def execGatom (f : GenFields) (s : State) : Outcome State Fault Refusal :=
  s.withCtx fun c t clock =>
    let va := t.genAddr f
    let size := if gatomW f then 8 else 4
    s.genAccess c t (.gatom f) va size true true (gatomAop f == 8 && gatomW f) clock fun s pa =>
      let launch := s.coreLaunch c.core pa size
      if (gatomSem f ≠ 0 ∨ launch.isSome) ∧ s.genCacheWaits c.core then s.genBusy c clock else
      let s := if 2 ≤ gatomSem f ∨ launch.isSome then s.releaseCache c.core else s
      let s := s.flushLines c.core [pa / 128]
      if (s.line t.part pa).poison then s.genLost c t 0x81#8 pa clock
      else
        let m := 2 ^ (8 * size)
        let old := leNat (s.readMem t.part pa size)
        let new := atomValue (gatomAop f) (8 * size) old ((t.greg f.b).toNat % m) ((t.greg f.d).toNat % m)
        let s := s.bankWrite t.part (pa / 128) ((lineOffs va size).zip (leBytes size new)) t.asid
        let s := if gatomSem f % 2 = 1 then s.acquireCache c.core else s
        let s := s.genNextWord c (clock + 1) fun x => x.setGreg f.d (BitVec.ofNat 64 old)
        let s := s.genWatch c t (.gatom f) va size true true
        match launch with
        | some w => s.genLaunch c t w (t.greg f.b)
        | none => s

/-! ### GACQ, GREL and GFENCE (R74) -/

/-- The bound regions on which an action of a scope works. -/
def Team.boundFor (t : Team) (f : GenFields) (cell : DWord) : List (DWord × Nat) :=
  if 2 ≤ (f.sub >>> 5).toNat then t.regionsOf cell else []

/-- GACQ (R74, R245): the context waits for the grant; after a fault of its acquire action only that action is done again. -/
def execGacq (f : GenFields) (s : State) : Outcome State Fault Refusal :=
  s.withCtx fun c t clock =>
    let va := t.genAddr f
    let regions := t.boundFor f va
    if 1 ≤ t.gen.done then s.finishGacq c t f.sub regions
    else s.genAccess c t (.gacq f) va 64 true true false clock fun s pa =>
      if (s.line t.part pa).poison then s.genLost c t 0x81#8 pa clock
      else
        let s := s.modTeam c.core c.ctx fun x => { x with gen := { x.gen with run := .waitCell f.sub regions } }
        s.requestCell t.part pa ⟨.ctx c, 0, f.sub.getLsbD 0⟩

/-- GREL (R74, R246): a page of a bound region that fails is the instruction's fault. -/
def execGrel (f : GenFields) (s : State) : Outcome State Fault Refusal :=
  s.withCtx fun c t clock =>
    let va := t.genAddr f
    match s.genPages c t false ((regionPages (t.boundFor f va)).drop t.gen.done) with
    | (.bad page, s) => s.badGenAccess c (.grel f) page 0
    | (.wait, s) => s.genBusy c clock
    | (.ok, s) => s.genAccess c t (.grel f) va 64 true true false clock fun s pa =>
        if (s.line t.part pa).poison then s.genLost c t 0x81#8 pa clock
        else (s.releaseCell t.part pa t.asid).genNextWord c (clock + 1) id

/-- GFENCE (R74, R248). -/
def execGfence (f : GenFields) (s : State) : Outcome State Fault Refusal :=
  s.withCtx fun c _ clock =>
    if 2 ≤ (f.sub >>> 5).toNat ∧ s.genCacheWaits c.core then s.genHold c clock
    else (s.fenceAction c.core (f.sub >>> 5).toNat ((f.sub >>> 3) &&& 3#8).toNat).genNextWord c (clock + 1) id

/-! ### Blocks (R76-R83) -/

/-- The lowest free block number, and the lowest run of free granules of a length (R79). -/
def Core.freeBlock (k : Core) : Option Nat := (List.range Config.storeBlocks).find? fun n => (k.blocks.find n).isNone
def Core.granuleFree (k : Core) (n : Nat) : Bool := k.blocks.vals.all fun b => decide (n < b.base ∨ b.base + b.granules ≤ n)
def Core.freeRun (k : Core) (n : Nat) : Option Nat :=
  (List.range (Config.storeGranules + 1 - n)).find? fun b => (List.range n).all fun i => k.granuleFree (b + i)

/-- A block opened for a context, when a number and a run of granules are free. -/
def Core.openBlock (k : Core) (ctx : Nat) (t : Team) (cap : Nat) : Option (Core × Nat) :=
  let n := ceilDiv cap 64
  match k.freeBlock, k.freeRun n with
  | some b, some base =>
    let blk : Block := ⟨.opened, base, n, 0, 64 * n, t.owner, t.gen.sup, 0#64, 0, ctx⟩
    some ({ k with blocks := k.blocks.set b blk }.modTeam ctx fun t => { t with gen := { t.gen with opened := some b } }, b)
  | _, _ => none

/-- A handle as a register holds it. -/
def Core.handleWord (k : Core) (n : Nat) : DWord := (k.handleOf n).setWidth 64

/-- The block that a handle in a register names, when it is current: bits [63:12] are zero (R77). -/
def Core.currentWord (k : Core) (h : DWord) : Option (Nat × Block) :=
  if h.extractLsb' 12 52 = 0#52 then (k.current (h.extractLsb' 0 12)).map fun b => (handleBlock (h.extractLsb' 0 12), b) else none

/-- A level-G block-state fault: the handle or the descriptor's offset (R95). -/
def State.blockFault (s : State) (c : CtxRef) (i : Instr) (address : DWord) : State :=
  s.takeFaultG c 5#8 (opSub i).1 (opSub i).2 address 0 none

/-- GBLKOPEN (R79). Its fault names the open block's handle, or with none a value that the specification does not state. -/
def execGblkopen (f : GenFields) (s : State) : Outcome State Fault Refusal :=
  s.withCtx fun c t clock =>
    let cap := match f.ext with
      | .imm x => x.toNat
      | _ => (t.greg f.a).toNat
    match t.gen.opened with
    | some n => s.blockFault c (.gblkopen f) ((s.core c.core).handleWord n)
    | none =>
      if cap = 0 ∨ 4096 < cap then let r := s.freeDWord; r.2.blockFault c (.gblkopen f) r.1
      else match (s.core c.core).openBlock c.ctx t cap with
        | some (k, n) => (s.setCore c.core k).genNextWord c (clock + 2) fun x => x.setGreg f.d (k.handleWord n)
        | none => s.modTeam c.core c.ctx fun x => { x with gen := { x.gen with run := .waitOpen clock cap f.d } }

/-- BLOCK_OPEN_GRANT (R79): a waiting GBLKOPEN takes a number and a run as soon as both are free. -/
def execBlockOpenGrant (c : CtxRef) (s : State) : Outcome State Fault Refusal :=
  match s.team? c.core c.ctx with
  | none => .next s
  | some t => match t.gen.run with
    | .waitOpen _ cap d => match (s.core c.core).openBlock c.ctx t cap with
      | some (k, n) => .next ((s.setCore c.core k).genNextWord c (k.clock + 1) fun x => x.setGreg d (k.handleWord n))
      | none => .next s
    | _ => .next s

/-- BLOCK_OPEN_TIMEOUT (R79): a wait that reaches 4,096 clocks ends with the null handle. -/
def execBlockOpenTimeout (c : CtxRef) (s : State) : Outcome State Fault Refusal :=
  match s.team? c.core c.ctx with
  | none => .next s
  | some t => match t.gen.run with
    | .waitOpen since _ d =>
      let clock := (s.core c.core).clock
      if since + 4096 ≤ clock then .next (s.genNextWord c (clock + 1) fun x => x.setGreg d nullHandle) else .next s
    | _ => .next s

/-- GBLKSEAL (R80): the seal completes 2 clocks after the queue is empty. -/
def execGblkseal (f : GenFields) (s : State) : Outcome State Fault Refusal :=
  s.withCtx fun c t clock =>
    match t.gen.opened with
    | none => let r := s.freeDWord; r.2.blockFault c (.gblkseal f) r.1
    | some _ =>
      let key := t.greg f.a
      s.modTeam c.core c.ctx fun x =>
        { x with gen := { x.gen with run := if t.gen.queue.isEmpty then .sealing (clock + 2) f.d key else .waitSeal f.d key } }

/-- GBLKFIND (R81). -/
def execGblkfind (f : GenFields) (s : State) : Outcome State Fault Refusal :=
  s.withCtx fun c t clock =>
    let k := s.core c.core
    let key := t.greg f.a
    let hit := k.blocks.cells.find? fun p =>
      p.2.st == .sealed && key != 0#64 && p.2.key == key && p.2.owner == t.owner && p.2.sup == t.gen.sup && decide (p.2.regAt < clock)
    let h := match hit with
      | some p => k.handleWord p.1
      | none => nullHandle
    s.genNextWord c (clock + 3) fun x => x.setGreg f.d h

/-- Whether a context may free a block by GBLKFREE (R82). -/
def Team.mayFree (t : Team) (n : Nat) (b : Block) : Bool :=
  let own := b.owner == t.owner && b.sup == t.gen.sup
  match b.st with
  | .sealed => own || (t.gen.sup && b.sup)
  | .opened => own && t.gen.opened == some n
  | .released => false

/-- GBLKFREE (R82). -/
def execGblkfree (f : GenFields) (s : State) : Outcome State Fault Refusal :=
  s.withCtx fun c t clock =>
    let h := t.greg f.a
    match (s.core c.core).currentWord h with
    | none => s.blockFault c (.gblkfree f) h
    | some (n, b) =>
      if t.mayFree n b then
        let s := s.modCore c.core fun k => if b.st = .opened then k.discardOpen c.ctx else k.release n
        s.genNextWord c (clock + 2) id
      else s.blockFault c (.gblkfree f) h

/-- BLOCK_RECLAIM (R78): a released block that is idle. -/
def execBlockReclaim (core block : Nat) (s : State) : Outcome State Fault Refusal :=
  let k := s.core core
  match k.blocks.find block with
  | some b => if b.st = .released ∧ k.blockIdle core block then .next (s.setCore core (k.reclaim block)) else .next s
  | none => .next s

/-- Whether the condition of GWAITB holds: the handle is no longer current, or no group's program counter lies in the block, which
holds of an idle block too (R83). -/
def Core.blockQuiet (c : Nat) (k : Core) (h : DWord) : Bool :=
  match k.currentWord h with
  | none => true
  | some (n, _) => k.noPc c n

/-- GWAITB (R83). -/
def execGwaitb (f : GenFields) (s : State) : Outcome State Fault Refusal :=
  s.withCtx fun c t clock =>
    let h := t.greg f.a
    if (s.core c.core).blockQuiet c.core h then s.genNextWord c (clock + 1) fun x => x.setGreg f.d 0#64
    else s.modTeam c.core c.ctx fun x =>
      { x with gen := { x.gen with run := .waitIdle clock (16 * (genImm f).toNat) f.d h } }

/-- GWAITB_WAKE (R83). -/
def execGwaitbWake (c : CtxRef) (s : State) : Outcome State Fault Refusal :=
  match s.team? c.core c.ctx with
  | none => .next s
  | some t => match t.gen.run with
    | .waitIdle _ _ d h =>
      let k := s.core c.core
      if k.blockQuiet c.core h then .next (s.genNextWord c (k.clock + 1) fun x => x.setGreg d 0#64) else .next s
    | _ => .next s

/-- GWAITB_TIMEOUT (R83): the bound passes first. -/
def execGwaitbTimeout (c : CtxRef) (s : State) : Outcome State Fault Refusal :=
  match s.team? c.core c.ctx with
  | none => .next s
  | some t => match t.gen.run with
    | .waitIdle since bound d h =>
      let k := s.core c.core
      if bound ≠ 0 ∧ since + bound ≤ k.clock ∧ ¬ k.blockQuiet c.core h then
        .next (s.genNextWord c (k.clock + 1) fun x => x.setGreg d 1#64)
      else .next s
    | _ => .next s

/-! ### Emission (R84-R89) -/

/-- Whether a word is valid in a context's open block (R84): not malformed, and a privileged form only in a supervisor block. -/
def emitValid (b : Block) (w : IWord) : Bool :=
  match decodeGroupWord w with
  | .ok i => !i.privileged || b.sup
  | .error _ => false

/-- The provenance entry of a word that a context emits (R89). -/
def provOf (ctx pc : Nat) : Word := BitVec.ofNat 32 (ctx * 2 ^ 29 + pc % 2 ^ 29)

/-- What the validation of a word gives: its level-G fault with its address, or the open block. -/
inductive EmitCheck where
  | noBlock
  | malformed
  | beyond
  | ok (n : Nat) (b : Block)
  deriving DecidableEq, Repr

/-- The check of a word that a context emits into its open block (R84). A malformed word is that also where the block has no room left
(DESIGN CHOICE: notes/assumptions). -/
def Core.emitCheck (k : Core) (t : Team) (w : IWord) : EmitCheck :=
  match t.gen.opened.bind fun n => (k.blocks.find n).map fun b => (n, b) with
  | none => .noBlock
  | some (n, b) => if !emitValid b w then .malformed else if b.capacity ≤ b.len then .beyond else .ok n b

/-- The level-G fault of an emission that its check refuses, after count words (R95). -/
def State.emitFault (s : State) (c : CtxRef) (t : Team) (i : Instr) (w : IWord) (count : Nat) (e : EmitCheck) : State :=
  let pc := BitVec.ofNat 64 t.gen.pc
  match e with
  | .noBlock => let r := s.freeDWord; r.2.blockFault c i r.1
  | .malformed => s.takeFaultG c 3#8 (opSub i).1 (opSub i).2 pc count (some w)
  | .beyond => s.takeFaultG c 4#8 (opSub i).1 (opSub i).2 pc count none
  | .ok _ _ => s

/-- One word emitted through the queue: a full queue holds the context (R84, R85). -/
def State.emitOne (s : State) (c : CtxRef) (t : Team) (i : Instr) (w : IWord) (clock latency : Nat) : State :=
  match (s.core c.core).emitCheck t w with
  | .ok n b =>
    if Config.emitQueue ≤ t.gen.queue.length then s.genHold c clock
    else
      let s := s.modCore c.core fun k => { k with blocks := k.blocks.set n { b with len := b.len + 1 } }
      s.genNextWord c (clock + latency) fun x =>
        { x with gen := { x.gen with queue := x.gen.queue ++ [⟨w, provOf c.ctx t.gen.pc⟩] } }
  | e => s.emitFault c t i w 0 e

/-- The 96-bit image in gE:gO (R86). -/
def Team.image (t : Team) (e : BitVec 6) : IWord := (t.greg (e + 1#6)).extractLsb' 0 32 ++ t.greg e

/-- GEMIT (R86). -/
def execGemit (f : GenFields) (s : State) : Outcome State Fault Refusal :=
  s.withCtx fun c t clock => s.emitOne c t (.gemit f) (t.image f.b) clock 1

/-- The bits of a word that a patch mask selects (R28, R49, R87). -/
def patchBits (m : Byte) : IWord :=
  let field (i lo n : Nat) : IWord := if m.getLsbD i then BitVec.ofNat 96 ((2 ^ n - 1) * 2 ^ lo) else 0#96
  field 7 80 8 ||| field 6 70 10 ||| field 5 60 10 ||| field 4 50 10 ||| field 3 30 20 ||| field 2 26 4 ||| field 1 20 6 ||| field 0 0 20

/-- What the reading of a word gives: a page to wait for, a bad access at an address, an error that ends the team, or the word. -/
inductive RunWord where
  | wait
  | bad (address : DWord)
  | lost (cause : Byte) (pa : Nat)
  | word (w : IWord)
  deriving DecidableEq, Repr

/-- The template word at a byte offset of the template section, read through the generator cache (R64, R66, R87); a bad access is at the
offset. -/
def State.template (s : State) (c : CtxRef) (t : Team) (off : DWord) : RunWord × State :=
  if off.toNat % 12 ≠ 0 ∨ t.hdr.tmplLen < off.toNat + 12 then (.bad off, s)
  else match s.genBytes c t (t.desc.image + BitVec.ofNat 64 (t.hdr.tmplOff + off.toNat)) 12 with
    | (.ok bs, s) => (.word (BitVec.ofNat 96 (leNat bs)), s)
    | (.wait, s) => (.wait, s)
    | (.lost x pa, s) => (.lost x pa, s)
    | (.bad _, s) => (.bad off, s)

/-- GEMITT (R87): a bad template offset is found before the open block is looked for (DESIGN CHOICE: notes/assumptions). -/
def execGemitt (f : GenFields) (s : State) : Outcome State Fault Refusal :=
  s.withCtx fun c t clock =>
    match s.template c t (t.genAddr f) with
    | (.wait, s) => s.genHold c clock
    | (.bad a, s) => s.badGenAccess c (.gemitt f) a 0
    | (.lost x pa, s) => s.genLost c t x pa clock
    | (.word w, s) =>
      let m := patchBits f.sub
      s.emitOne c t (.gemitt f) ((w &&& ~~~m) ||| (t.image f.b &&& m)) clock 3

/-- A word written straight into the open block (R88). -/
def Core.putWord (k : Core) (n : Nat) (b : Block) (w : EmitWord) : Core :=
  { k with store := k.store.set (b.base * 64 + b.len) w, blocks := k.blocks.set n { b with len := b.len + 1 } }

/-- A run of words copied into the open block from word i on (R88); a fault at word i leaves the words before it written. The source is
read before the open block is looked for (DESIGN CHOICE: notes/assumptions). fuel is
one more than the capacity left, since the capacity ends every run. -/
def State.copyRun (read : State → Nat → RunWord × State) (c : CtxRef) (t : Team) (i : Instr) (n clock : Nat) :
    Nat → Nat → State → State
  | 0, _, s => s
  | fuel + 1, j, s =>
    if n ≤ j then s.genNextWord c (clock + 1 + ceilDiv (j - t.gen.done) 2) id
    else
      let stop (s : State) : State := s.modTeam c.core c.ctx fun x => { x with gen := { x.gen with done := j } }
      match read s j with
      | (.wait, s) => (stop s).genHold c clock
      | (.bad a, s) => (stop s).badGenAccess c i a j
      | (.lost x pa, s) => (stop s).genLost c t x pa clock
      | (.word w, s) => match (s.core c.core).emitCheck t w with
        | .ok b blk =>
          State.copyRun read c t i n clock fuel (j + 1) (s.modCore c.core fun k => k.putWord b blk ⟨w, provOf c.ctx t.gen.pc⟩)
        | e => (stop s).emitFault c t i w j e

/-- GEMITB and GBLKLOAD over the words that a read gives: each waits first for its own queue to drain (R88). -/
def State.runWords (s : State) (c : CtxRef) (t : Team) (i : Instr) (n clock : Nat) (read : State → Nat → RunWord × State) : State :=
  if !t.gen.queue.isEmpty then s.genHold c clock else State.copyRun read c t i n clock 4098 t.gen.done s

/-- GEMITB (R88): template words, unchanged. -/
def execGemitb (f : GenFields) (s : State) : Outcome State Fault Refusal :=
  s.withCtx fun c t clock =>
    s.runWords c t (.gemitb f) (t.greg f.b).toNat clock fun s j => s.template c t (t.genAddr f + BitVec.ofNat 64 (12 * j))

/-- The words of four bytes at consecutive addresses that a context reads. -/
def State.genWords (s : State) (c : CtxRef) (t : Team) (va : DWord) : Nat → RunWord × State
  | 0 => (.word 0#96, s)
  | n + 1 => match s.genCheck c t va 4 true false false with
    | (.wait, s) => (.wait, s)
    | (.bad _, s) => (.bad va, s)
    | (.lost x pa, s) => (.lost x pa, s)
    | (.ready pa, s) => match s.genRead c t va pa 4 with
      | (none, s) => (.lost 0x81#8 pa, s)
      | (some bs, s) => match s.genWords c t (va + 4#64) n with
        | (.word w, s) => (.word ((w <<< 32) ||| BitVec.ofNat 96 (leNat bs)), s)
        | x => x

/-- GBLKLOAD (R88): words from global memory. -/
def execGblkload (f : GenFields) (s : State) : Outcome State Fault Refusal :=
  s.withCtx fun c t clock =>
    s.runWords c t (.gblkload f) (t.greg f.b).toNat clock fun s j => s.genWords c t (t.genAddr f + BitVec.ofNat 64 (12 * j)) 3

/-- The next context of the drain's round robin with a queued word (R85). -/
def Core.drainCtx (k : Core) : Option Nat :=
  ((List.range Config.contexts).map fun i => (k.drainNext + i) % Config.contexts).find? fun c =>
    match k.teams.find c with
    | some t => !t.gen.queue.isEmpty
    | none => false

/-- A context whose queue has drained goes on with the seal that waited for it (R80). -/
def GenCtx.drained (x : GenCtx) (clock : Nat) : GenCtx :=
  match x.run, x.queue with
  | .waitSeal d key, [] => { x with run := .sealing (clock + 2) d key }
  | _, _ => x

/-- One queued word written to the store at its place in the open block: the fill pointer counts the words still queued. -/
def Core.drainOne (k : Core) : Core :=
  match k.drainCtx with
  | none => k
  | some c => match k.teams.find c with
    | none => k
    | some t => match t.gen.queue, t.gen.opened.bind k.blocks.find with
      | w :: rest, some b =>
        let clock := k.clock
        let k := { k with store := k.store.set (b.base * 64 + (b.len - t.gen.queue.length)) w, drainNext := (c + 1) % Config.contexts }
        k.modTeam c fun t => { t with gen := { t.gen with queue := rest }.drained clock }
      | _, _ => k

/-- EMIT_DRAIN (R85): the two words of a clock, once in each clock. -/
def execEmitDrain (core : Nat) (s : State) : Outcome State Fault Refusal :=
  .next (if (s.core core).drained then s else s.modCore core fun k => { k.drainOne.drainOne with drained := true })

/-! ### Starting groups (R90-R92) -/

/-- A window of a descriptor; a length of 0 is an absent window, which maps nothing. -/
def windowOf (w : Nat) : Window := ⟨w / 2 ^ 15 % 2 == 1, w / 2 ^ 10 % 32, w / 2 ^ 5 % 32, w % 32⟩

/-- Whether a window word is valid in an allocation (R90). -/
def windowOk (alloc w : Nat) : Bool :=
  let x := windowOf w
  w / 2 ^ 16 == 0 && decide (x.len ≤ 24) && (x.len == 0 || decide (x.lb + x.len ≤ 24 ∧ x.pb + x.len ≤ alloc))

/-- Whether two present windows overlap in logical range. -/
def windowsMeet (a b : Window) : Bool := decide (0 < a.len ∧ 0 < b.len ∧ a.lb < b.lb + b.len ∧ b.lb < a.lb + a.len)

/-- The four window words of a fibre's record. -/
def fibreWindows (bs : List Byte) (fib : Nat) : List Nat :=
  (List.range 4).map fun i => leNat ((bs.drop (24 + 24 * fib + 4 * i)).take 4)

/-- Whether the windows of a fibre are valid (R90). -/
def fibreOk (alloc : Nat) (ws : List Nat) : Bool :=
  ws.all (windowOk alloc) && (List.range 4).all fun i => (List.range i).all fun j =>
    !windowsMeet (windowOf (ws.getD i 0)) (windowOf (ws.getD j 0))

/-- A start descriptor read from its bytes (R90), none when it is not valid: ngrp says that NGRP must be in range. The allocation
may not exceed that of the team's slots (R315). -/
def parseDescriptor (bs : List Byte) (ngrp : Bool) (handle : BitVec 12) (sealedLen slotAlloc : Nat) : Option EntryDesc :=
  let w0 := leNat (bs.take 8)
  let alloc := w0 / 2 ^ 8 % 32
  let n := w0 / 2 ^ 6 % 4 + 1
  let ng := w0 % 64
  let offs := (List.range n).map fun i => leNat ((bs.drop (16 + 24 * i)).take 8)
  let ws := (List.range n).map (fibreWindows bs)
  if w0 / 2 ^ 13 ≠ 0 ∨ leNat ((bs.drop 8).take 8) ≠ 0 ∨ alloc = 0 ∨ 24 < alloc ∨ slotAlloc < alloc
      ∨ (ngrp ∧ (ng = 0 ∨ 32 < ng)) then none
  else if offs.all (fun o => decide (o < 4096 ∧ o < sealedLen)) && ws.all (fibreOk alloc) then
    some ⟨handle, alloc, n, ng, offs, ws.map fun l => l.map windowOf⟩
  else none

/-- What the reading of a start descriptor gives: a page to wait for, no valid descriptor, an error that ends the team, or it. -/
inductive DescRead where
  | wait
  | bad
  | lost (cause : Byte) (pa : Nat)
  | ok (e : EntryDesc)
  deriving DecidableEq, Repr

/-- Bytes of the data section, which end inside it. -/
def State.dataBytes (s : State) (c : CtxRef) (t : Team) (off n : Nat) : GenBytes × State :=
  if off + n ≤ t.hdr.dataLen then s.genBytes c t (t.desc.image + BitVec.ofNat 64 (t.hdr.dataOff + off)) n else (.bad 1#8, s)

/-- The descriptor at an offset of the data section for a block (R90). -/
def State.descriptor (s : State) (c : CtxRef) (t : Team) (off : Nat) (ngrp : Bool) (handle : BitVec 12) (b : Block) : DescRead × State :=
  let stop : GenBytes → DescRead
    | .wait => .wait
    | .lost x pa => .lost x pa
    | _ => .bad
  if off % 8 ≠ 0 then (.bad, s)
  else match s.dataBytes c t off 16 with
    | (.ok h, s) => match s.dataBytes c t off (16 + 24 * (leNat (h.take 8) / 2 ^ 6 % 4 + 1)) with
      | (.ok bs, s) => (match parseDescriptor bs ngrp handle b.len t.desc.alloc with
        | some e => .ok e
        | none => .bad, s)
      | (x, s) => (stop x, s)
    | (x, s) => (stop x, s)

/-- What follows the reading of the descriptor that an instruction names: it waits, its block-state fault names the offset, its team ends,
or it goes on. -/
def State.withDescriptor (s : State) (c : CtxRef) (t : Team) (i : Instr) (off : Nat) (ngrp : Bool) (h : DWord) (b : Block) (clock : Nat)
    (k : State → EntryDesc → State) : State :=
  match s.descriptor c t off ngrp (h.extractLsb' 0 12) b with
  | (.wait, s) => s.genHold c clock
  | (.bad, s) => s.blockFault c i (BitVec.ofNat 64 off)
  | (.lost x pa, s) => s.genLost c t x pa clock
  | (.ok e, s) => k s e

/-- A sealed current block of a context's ownership (R91, R92). -/
def Core.startBlock (k : Core) (t : Team) (h : DWord) : Option Block :=
  match k.currentWord h with
  | some (_, b) => if b.st = .sealed ∧ b.owner = t.owner ∧ b.sup = t.gen.sup then some b else none
  | none => none

/-- GSTART (R91): its groups start in its completion clock, 4 clocks after the issue. -/
def execGstart (f : GenFields) (s : State) : Outcome State Fault Refusal :=
  s.withCtx fun c t clock =>
    let h := t.greg f.a
    let off := (genImm f).toNat
    match (s.core c.core).startBlock t h with
    | none => s.blockFault c (.gstart f) h
    | some b => s.withDescriptor c t (.gstart f) off true h b clock fun s e => s.modTeam c.core c.ctx fun x =>
        { x with gen := { x.gen with run := .starting (clock + 4) f.d e (t.greg f.b) } }

/-- GENTRY (R92): the entry changes in its completion clock. -/
def execGentry (f : GenFields) (s : State) : Outcome State Fault Refusal :=
  s.withCtx fun c t clock =>
    let h := t.greg f.a
    let n := t.greg f.b
    let off := (genImm f).toNat
    let put (s : State) (e : Option EntryDesc) : State :=
      s.genNextWord c (clock + 4) fun x => { x with entryNext := x.entryNext ++ [(clock + 4, n.toNat, e)] }
    if n.extractLsb' 4 60 ≠ 0#60 then s.blockFault c (.gentry f) h
    else if h = nullHandle then put s none
    else match (s.core c.core).startBlock t h with
      | none => s.blockFault c (.gentry f) h
      | some b => s.withDescriptor c t (.gentry f) off false h b clock fun s e => put s (some e)

/-! ### A context's next word (R66, R95) -/

/-- Whether the page that a context's instruction missed is still being walked (R210). -/
def State.genWalks (s : State) (core : Nat) (t : Team) : Bool :=
  match t.gen.waitPage with
  | none => false
  | some p => (s.slice (sliceOf core)).walks.vals.any fun w =>
      w.asid == t.asid && w.world == t.desc.world && w.va == p * 4096 && w.part == t.part && w.cores.contains (core, noSub)

/-- Whether a core's generator pipeline has had its turn in the present clock, or the clock has only its end left (R66). -/
def Core.genDone (k : Core) : Bool := k.closing || k.genAt == some k.clock

/-- Whether a context is ready in a clock (R66); under a save it only lets the access of its instruction complete (R98). -/
def Team.genReady (t : Team) (clock : Nat) : Bool :=
  (t.saving.isNone || t.gen.busy) && !t.holdIssue && match t.gen.run with
    | .ready c => decide (c ≤ clock)
    | _ => false

/-- The next ready context of a core in round-robin order of number (R66). -/
def State.pickCtx (s : State) (core : Nat) : Option Nat :=
  let k := s.core core
  ((List.range Config.contexts).map fun i => (k.genNext + i) % Config.contexts).find? fun c =>
    match k.teams.find c with
    | some t => t.genReady k.clock && !s.genWalks core t
    | none => false

/-- The virtual address of a word of the generator section (R28, R64). -/
def Team.genAddress (t : Team) (pc : Nat) : DWord := t.desc.image + BitVec.ofNat 64 (t.hdr.genOff + 12 * pc)

/-- A context's next instruction and the state after its fetch, or the state in which it waits, has taken its level-G fault or has ended
with its team (R64, R95, R406). -/
def State.fetchGen (s : State) (c : CtxRef) (t : Team) : Except State (Instr × State) :=
  let va := t.genAddress t.gen.pc
  let clock := (s.core c.core).clock
  if t.gen.pc ≥ t.hdr.genWords then .error (s.takeFaultG c 1#8 0#8 0#8 va 0 none)
  else match s.genBytes c t va 12 with
    | (.wait, s) => .error (s.genHold c clock)
    | (.bad _, s) => .error (s.takeFaultG c 1#8 0#8 0#8 va 0 none)
    | (.lost x pa, s) => .error (s.genLost c t x pa clock)
    | (.ok bs, s) =>
      let w := BitVec.ofNat 96 (leNat bs)
      match decodeGenWord w with
      | .ok i => .ok (i, s)
      | .error _ =>
        .error (s.takeFaultG c 2#8 (w.extractLsb' 88 8) (w.extractLsb' 80 8) (BitVec.ofNat 64 t.gen.pc) 0 none)

/-! ### What a clock of the contexts holds beside their words -/

/-- The contexts of a core whose wait ends at the beginning of a clock (R93). -/
def Core.genOpens (core : Nat) (k : Core) : List Turn :=
  k.teams.cells.filterMap fun p => match p.2.gen.run with
    | .yielding u => if u ≤ k.clock then some (.event (.gyieldEnd ⟨core, p.1⟩)) else none
    | _ => none

/-- What the contexts of a core owe at the end of a clock: the words of their queues (R85), and the tests of what they wait for (R79,
R83). -/
def Core.genCloses (core : Nat) (k : Core) : List Turn :=
  (if k.drained || k.drainCtx.isNone then [] else [.event (.emitDrain core)])
  ++ k.teams.cells.flatMap fun p => match p.2.gen.run with
    | .waitOpen _ _ _ => [.event (.blockOpenGrant ⟨core, p.1⟩), .event (.blockOpenTimeout ⟨core, p.1⟩)]
    | .waitIdle _ _ _ _ => [.event (.gwaitbWake ⟨core, p.1⟩), .event (.gwaitbTimeout ⟨core, p.1⟩)]
    | _ => []

/-! ### Yielding and exit (R93, R94) -/

/-- GYIELD (R93). -/
def execGyield (f : GenFields) (s : State) : Outcome State Fault Refusal :=
  s.withCtx fun c _ clock =>
    let n := (genImm f).toNat
    (s.genNextWord c (clock + 1) id).modTeam c.core c.ctx fun x =>
      { x with gen := { x.gen with run := if n = 0 then .skipTurn else .yielding (clock + n) } }

/-- GYIELD_END (R93): the clocks have passed, or a group of the team has exited. -/
def execGyieldEnd (c : CtxRef) (s : State) : Outcome State Fault Refusal :=
  match s.team? c.core c.ctx with
  | none => .next s
  | some t => match t.gen.run with
    | .yielding u =>
      let clock := (s.core c.core).clock
      if u ≤ clock then .next (s.modTeam c.core c.ctx fun x => { x with gen := { x.gen with run := .ready clock } }) else .next s
    | _ => .next s

/-- GEXIT (R94). -/
def execGexit (_ : GenFields) (s : State) : Outcome State Fault Refusal := s.withCtx fun c _ _ => s.endGen c

end Sys2Proof.Machine
end

