-- ==== Sys2Proof/Machine/Formats.lean ====
section
/-!
DEFINITION. The meanings of the narrow formats and conversion class (R173-R191): CVT, CVTQ and CVTD with stochastic rounding,
PACK6, UNPK6, PRMT, TAG and BSCALE.
-/

namespace Sys2Proof.Machine

open Host (Outcome)

/-! ### Formats in registers (R178) -/

/-- The width in bits of one element of a format. -/
def fcWidth (fc : Nat) : Nat :=
  if fc = 18 ∨ fc = 19 then 64
  else if fcCount fc = 4 then 8
  else if fcCount fc = 2 then 16
  else if fc = 16 ∨ fc = 17 then 16
  else if fcBinary6 fc then 6
  else 32

/-- Whether an integer format is signed. -/
def fcSigned (fc : Nat) : Bool := fc == 1 || fc == 6 || fc == 8 || fc == 18

/-- The tags of a format's registers. -/
def fcTags (fc : Nat) : List Tag :=
  if fc = 18 ∨ fc = 19 then [tagI64L, tagI64H]
  else if fc = 16 then [tagF16]
  else if fc = 17 then [tagBf16]
  else if fcBinary6 fc then [tagN32]
  else [BitVec.ofNat 6 fc]

/-- What the source registers of a format expect. -/
def fcExpect (fc : Nat) : List Expect := (fcTags fc).map .tag

/-- The elements of a register's lane in a format. -/
def fcElems (fc : Nat) (w : Word) : List Nat :=
  (List.range (fcCount fc)).map fun i => w.toNat / 2 ^ (fcWidth fc * i) % 2 ^ fcWidth fc

/-- Elements packed into a lane of a format; fewer than the register holds leave zeros. -/
def fcPack (fc : Nat) (ys : List Nat) : Word :=
  BitVec.ofNat 32 (ys.zipIdx.foldl (fun r p => r + p.1 % 2 ^ fcWidth fc * 2 ^ (fcWidth fc * p.2)) 0)

/-! ### One element (R179, R180, R182) -/

/-- One step of a lane's generator (R182). -/
def rsrStep (s : Word) : Word :=
  let s := s ^^^ (s <<< 13)
  let s := s ^^^ (s >>> 17)
  s ^^^ (s <<< 5)

/-- The exact value of a float element; FP32 is read through in32. -/
def fcValue (ftz : Bool) (fc c : Nat) : FVal := if fc = 3 then in32 ftz (BitVec.ofNat 32 c) else (fmtOfFc fc).decode c

/-- The conversion of one element from a source format to a destination format: the code and its flags. -/
def convElem (ftz : Bool) (sfc dfc : Nat) (m : RMode) (sat : Bool) (c : Nat) : Nat × Word :=
  if fcInteger dfc then
    let w := fcWidth dfc
    if fcInteger sfc then (narrow w (fcSigned dfc) sat (toIntOf (fcWidth sfc) (fcSigned sfc) c), 0#32)
    else
      let r := convToInt w (fcSigned dfc) m (fcValue ftz sfc c)
      ((r.1 % 2 ^ w).toNat, r.2)
  else
    let v := if fcInteger sfc then FVal.ofInt (toIntOf (fcWidth sfc) (fcSigned sfc) c) else fcValue ftz sfc c
    let r := (fmtOfFc dfc).conv m sat v
    if dfc = 3 then let o := out32 ftz r; (o.1.toNat, o.2) else r
where
  /-- The integer of an element (R136). -/
  toIntOf (w : Nat) (signed : Bool) (x : Nat) : Int :=
    if signed && decide (2 ^ (w - 1) ≤ x) then (x : Int) - 2 ^ w else x
  /-- An integer in w bits: clamped or wrapped (R180). -/
  narrow (w : Nat) (signed sat : Bool) (t : Int) : Nat :=
    ((if sat then clampInt (intMin w signed) (intMax w signed) t else t) % 2 ^ w).toNat

/-- The elements of a lane converted in order; under .rsr each steps the lane's generator first. -/
def convElems (ftz : Bool) (sfc dfc rm : Nat) (sat : Bool) : Word → List Nat → List Nat × Word × Word
  | seed, [] => ([], 0#32, seed)
  | seed, c :: r =>
    let seed := if rm = 5 then rsrStep seed else seed
    let y := convElem ftz sfc dfc (rmodeOf rm seed) sat c
    let (ys, fl, seed) := convElems ftz sfc dfc rm sat seed r
    (y.1 :: ys, y.2 ||| fl, seed)

/-! ### The three conversions (R184, R185) -/

/-- What a conversion's lane gives: the words of D and D+1, its flags, and its generator's new state. -/
structure ConvLane where
  lo    : Word
  hi    : Word
  flags : Word
  seed  : Word
  deriving DecidableEq, Repr

/-- Converted elements laid out in one register, or over two for CVTD and 64-bit results (R178, R185). -/
def convOut (dfc : Nat) (pair : Bool) (ys : List Nat) (fl seed : Word) : ConvLane :=
  if dfc = 18 ∨ dfc = 19 then
    let y := ys.headD 0
    ⟨BitVec.ofNat 32 y, BitVec.ofNat 32 (y / 2 ^ 32), fl, seed⟩
  else if pair then ⟨fcPack dfc (ys.take (fcCount dfc)), fcPack dfc (ys.drop (fcCount dfc)), fl, seed⟩
  else ⟨fcPack dfc ys, 0#32, fl, seed⟩

/-- A conversion word: its lanes are computed, the result enters flight, and under .rsr the active lanes' generators step. -/
def execConv (i : Instr) (f : Fields) (srcs : List Src) (pair : Bool) (elems : (Nat → Word) → List Nat) (old : (Nat → Word) → List Nat)
    (s : State) : Outcome State Fault Refusal :=
  s.withSources i f srcs fun v act ls fl =>
    let go (l : Fin 32) : ConvLane :=
      let r := convElems v.fib.ftz f.fcCtl f.fc f.rmCtl f.ov (lane v.fib.srseed l) (elems fun n => src ls n l)
      convOut f.fc pair (r.1 ++ old fun n => src ls n l) r.2.1 r.2.2
    let tags := fcTags f.fc
    let regs : List (Operand × Mask × Reg) :=
      [(f.d, act, ⟨tags.headD tagRaw, lanesOf fun l => (go l).lo⟩)]
        ++ (if pair ∨ f.fc = 18 ∨ f.fc = 19 then
              [(operandAdd f.d 1, act, ⟨tags.getD 1 (tags.headD tagRaw), lanesOf fun l => (go l).hi⟩)]
            else [])
    let flags := (maskLanes act).foldl (fun a l => a ||| (go l).flags) fl
    let s := s.commitFixed v i f.signal 4 ⟨regs, flags⟩
    .next (if f.rmCtl = 5 then
        s.modFibre v.g fun b => { b with srseed := lanesOf fun l => if inMask act l then (go l).seed else lane b.srseed l }
      else s)

/-- The 64-bit element of two source words. -/
def wideElem (lo hi : Word) : Nat := lo.toNat + hi.toNat * 2 ^ 32

/-- CVT (R185). -/
def execCvt (f : Fields) (s : State) : Outcome State Fault Refusal :=
  let elems (w : Nat → Word) : List Nat :=
    if f.fcCtl = 18 ∨ f.fcCtl = 19 then [wideElem (w 0) (w 1)] else fcElems f.fcCtl (w 0)
  execConv (.cvt f) f (regSrcs f.a (fcExpect f.fcCtl)) false elems (fun _ => []) s

/-- CVTQ (R184, R185): in the shift form D's old elements 0 and 1 become elements 2 and 3. -/
def execCvtq (f : Fields) (s : State) : Outcome State Fault Refusal :=
  let e := fcExpect f.fcCtl
  let shift := fcCount f.fcCtl = 1 ∧ fcCount f.fc = 4
  let srcs := regSrcs f.a e ++ regSrcs f.b e ++ (if shift then [.reg f.d .any] else [])
  execConv (.cvtq f) f srcs false (fun w => fcElems f.fcCtl (w 0) ++ fcElems f.fcCtl (w 1))
    (fun w => if shift then [(w 2).toNat % 256, (w 2).toNat / 256 % 256] else []) s

/-- CVTD (R185). -/
def execCvtd (f : Fields) (s : State) : Outcome State Fault Refusal :=
  execConv (.cvtd f) f (regSrcs f.a (fcExpect f.fcCtl)) true (fun w => fcElems f.fcCtl (w 0)) (fun _ => []) s

/-! ### PACK6 and UNPK6 (R186, R187) -/

/-- The 192-bit stream of the 6-bit elements of the active lanes. -/
def packStream (a : Lanes) (act : Mask) : Nat :=
  allLanes.foldl (fun r l => r + (if inMask act l then (lane a l).toNat % 64 * 2 ^ (6 * l.val) else 0)) 0

/-- The 32 lanes of the stream, tag P6S (R186). -/
def packed (a : Lanes) (act : Mask) : Reg :=
  ⟨tagP6s, lanesOf fun l => if l.val < 6 then BitVec.ofNat 32 (packStream a act / 2 ^ (32 * l.val)) else 0#32⟩

/-- PACK6 (R186): with any active lane it writes all 32 lanes of D, whatever R44 says of the inactive ones; y0 takes the stream's lanes
where a lane is active and zero elsewhere, as R32 says. -/
def execPack6 (f : Fields) (s : State) : Outcome State Fault Refusal :=
  s.withSources (.pack6 f) f (regSrcs f.a [.tag tagN32]) fun v act ls fl =>
    let r := packed (ls.getD 0 (lanesAll 0#32)) act
    let m := if act = 0#32 then 0#32 else 0xFFFFFFFF#32
    .next (s.commitYs v (.pack6 f) f.signal 6 ⟨[(f.d, m, r)], fl⟩ [(act, r)])

/-- The stream that lanes 0-5 of a register hold. -/
def readStream (a : Lanes) : Nat := (allLanes.take 6).foldl (fun r l => r + (lane a l).toNat * 2 ^ (32 * l.val)) 0

/-- UNPK6 (R187): the stream is read whatever the mask. -/
def execUnpk6 (f : Fields) (s : State) : Outcome State Fault Refusal :=
  execFixed (.unpk6 f) f 6 (regSrcs f.a [.tag tagP6s]) (fun _ act ls =>
    let st := readStream (ls.getD 0 (lanesAll 0#32))
    outLanes f.d act tagN32 fun l => BitVec.ofNat 32 (st / 2 ^ (6 * l.val) % 64)) s

/-! ### PRMT, TAG and BSCALE (R188-R190) -/

/-- The bytes that a selector chooses (R188). -/
def permute (a b sel : Word) : Word :=
  let ab := a.toNat + b.toNat * 2 ^ 32
  BitVec.ofNat 32 ([0, 1, 2, 3].foldl (fun r j =>
    let n := sel.toNat / 2 ^ (4 * j) % 16
    let x := ab / 2 ^ (8 * (n % 8)) % 256
    r + (if n < 8 then x else if x ≥ 128 then 255 else 0) * 2 ^ (8 * j)) 0)

/-- PRMT (R188): its sources are untyped, the register of XK 1 among them (R45). -/
def execPrmt (f : Fields) (s : State) : Outcome State Fault Refusal :=
  execFixed (.prmt f) f 4 ([.reg f.a .any, .reg f.b .any] ++ src3 f .n32 [.any]) (fun _ act ls =>
    outLanes f.d act tagRaw fun l => permute (src ls 0 l) (src ls 1 l) (src ls 2 l)) s

/-- TAG (R189): A is untyped, and FC is the new tag. -/
def execTag (f : Fields) (s : State) : Outcome State Fault Refusal :=
  execFixed (.tag f) f 4 [.reg f.a .any] (fun _ act ls => outLanes f.d act (BitVec.ofNat 6 f.fc) fun l => src ls 0 l) s

/-- The larger of two magnitudes. -/
def magMax (x y : FVal) : FVal := if fltLt x y then y else x
/-- A value without its sign. -/
def FVal.magnitude : FVal → FVal
  | .fin _ n e => .fin false n e
  | .inf _ => .inf false
  | v => v

/-- The smallest k with m / 2^k at most the largest finite value of a format, for m > 0: k is at least log2 m less log2 of that
value less 1, and at most that plus 1. -/
def scaleExp (p : Fmt) (m : FVal) : Int :=
  match m, p.finite false p.maxCode with
  | .fin _ n e, .fin _ a b =>
    let d : Int := (Nat.log2 n + e) - (Nat.log2 a + b)
    if dyLt a (b + d) n e then d + 1 else d
  | _, _ => 0

/-- The scale code of a block (R190) over its values, and NV for a signalling NaN. -/
def blockScale (p : Fmt) (vs : List FVal) : Nat × Word :=
  let bad := vs.any fun v => v.isNan || v.isInf
  let m := vs.foldl (fun m v => magMax m v.magnitude) (.fin false 0 0)
  let c := if bad then 0xFF
    else if m.isZero then 1
    else (clampInt (-127) 125 (scaleExp p m) + 128).toNat
  (c, flagIf (vs.any FVal.isSnan) flagNV)

/-- BSCALE (R190). -/
def execBscale (f : Fields) (s : State) : Outcome State Fault Refusal :=
  execFixed (.bscale f) f 6 (regSrcs f.a [.tag tagF32]) (fun v act ls =>
    let r := blockScale (fmtOfFc f.fc) ((maskLanes act).map fun l => in32 v.fib.ftz (src ls 0 l))
    let o := outLanes f.d act (BitVec.ofNat 6 49) fun _ => BitVec.ofNat 32 (r.1 * 0x01010101)
    { o with flags := r.2 }) s

end Sys2Proof.Machine
end

