-- ==== Sys2Proof/Machine/Matrix.lean ====
section
/-!
DEFINITION. The matrix class (R282-R311): operand maps, the values of the three products, the checks at issue, tile operations,
the unit's queue with its holds, and the permits and leaves of the current-slew limiter (R388, R389).
-/

namespace Sys2Proof.Machine

open Host (Outcome)

/-! ### Operand maps (R284, R285, R287, R309) -/

/-- An offset field that names no array. -/
def noArray : Word := 0xFFFFFFFF#32

/-- Whether a map is scaled, and its block length (R284). -/
def OpMap.scaled (m : OpMap) : Bool := m.scale != noArray && m.blk != 0#2
def OpMap.block (m : OpMap) : Nat := 4 * 2 ^ m.blk.toNat
def OpMap.scaleOff (m : OpMap) : Nat := (m.scale.extractLsb' 0 21).toNat
def OpMap.scaleStride (m : OpMap) : Nat := (m.scale.extractLsb' 21 11).toNat
/-- Whether a format has 16-bit elements. -/
def OpMap.wide (m : OpMap) : Bool := m.fmt == 16#6 || m.fmt == 17#6

/-- Whether an FC code may be a map's format (R284). -/
def mapFmtOk (fc : Nat) : Bool := fc == 16 || fc == 17 || decide (20 ≤ fc ∧ fc ≤ 25) || (decide (32 ≤ fc ∧ fc ≤ 63) && fc % 8 != 0)

/-- What a check of a map or of an operation finds: the cause, and the offset or number it names, none when the specification states
none. -/
abbrev MapFault := Option (Byte × Option Nat)

/-- The checks of a record as it would stand (R287, R309), in a scratchpad range of a size: the offset that is odd, or no multiple of 8, is
the failing one of R299. -/
def OpMap.check (m : OpMap) (size : Nat) : MapFault :=
  if !mapFmtOk m.fmt.toNat then some (0x53#8, none)
  else if size < m.base.toNat + m.extent.toNat then some (0x52#8, some (max m.base.toNat size))
  else if m.wide && m.base.getLsbD 0 then some (0x53#8, some m.base.toNat)
  else if m.wide && m.pitch.getLsbD 0 then some (0x53#8, none)
  else if m.perm != noArray && m.perm.getLsbD 0 then some (0x53#8, some m.perm.toNat)
  else if m.bmap != noArray && m.bmap.toNat % 8 != 0 then some (0x53#8, some m.bmap.toNat)
  else none

/-- The record of a quad (R287), none when a reserved bit is set. -/
def quadMap (q : List Word) (world : Nat) : Option OpMap :=
  let w (n : Nat) : Word := q.getD n 0#32
  if (w 0).extractLsb' 21 11 ≠ 0#11 ∨ (w 1).extractLsb' 22 10 ≠ 0#10 ∨ (w 2).extractLsb' 25 7 ≠ 0#7 then none
  else some { reserved := true, base := (w 0).extractLsb' 0 21, extent := (w 1).extractLsb' 0 22, layout := (w 2).getLsbD 24,
              pitch := (w 2).extractLsb' 0 16, fmt := (w 2).extractLsb' 16 6, blk := (w 2).extractLsb' 22 2, scale := w 3,
              perm := noArray, bmap := noArray, world := BitVec.ofNat 4 world }

/-- A field of a map by selector (R284). -/
def OpMap.field (m : OpMap) (sel : Nat) : Word :=
  match sel with
  | 0 => m.base.setWidth 32
  | 1 => m.extent.setWidth 32
  | 2 => if m.layout then 1#32 else 0#32
  | 3 => m.pitch.setWidth 32
  | 4 => m.fmt.setWidth 32
  | 5 => m.blk.setWidth 32
  | 6 => m.scale
  | 7 => m.perm
  | 8 => m.bmap
  | _ => m.world.setWidth 32

/-- A map with a field replaced, none when a reserved bit of the field is set. -/
def OpMap.setField (m : OpMap) (sel : Nat) (w : Word) : Option OpMap :=
  let n := w.toNat
  match sel with
  | 0 => if n < 2 ^ 21 then some { m with base := w.extractLsb' 0 21 } else none
  | 1 => if n < 2 ^ 22 then some { m with extent := w.extractLsb' 0 22 } else none
  | 2 => if n < 2 then some { m with layout := w.getLsbD 0 } else none
  | 3 => if n < 2 ^ 16 then some { m with pitch := w.extractLsb' 0 16 } else none
  | 4 => if n < 64 then some { m with fmt := w.extractLsb' 0 6 } else none
  | 5 => if n < 4 then some { m with blk := w.extractLsb' 0 2 } else none
  | 6 => some { m with scale := w }
  | 7 => if n < 2 ^ 21 ∨ w = noArray then some { m with perm := w } else none
  | 8 => if n < 2 ^ 21 ∨ w = noArray then some { m with bmap := w } else none
  | _ => some m

/-- The run and the position of an operand's element (R285): of A at (row, k) and of B at (k, column). -/
def OpMap.runOf (m : OpMap) (isB : Bool) (rc k : Nat) : Nat × Nat := if m.layout = isB then (rc, k) else (k, rc)
/-- The offset of a run. -/
def OpMap.runStart (m : OpMap) (u : Nat) : Nat := m.base.toNat + u * m.pitch.toNat
/-- The offsets of the bytes that hold an element. -/
def OpMap.elemBytes (m : OpMap) (isB : Bool) (rc k : Nat) : List Nat :=
  let r := m.runOf isB rc k
  let s := m.runStart r.1
  if m.wide then [s + 2 * r.2, s + 2 * r.2 + 1]
  else if 32 ≤ m.fmt.toNat then [s + r.2]
  else (List.range (6 * r.2 % 8 / 3 + 1)).map fun i => s + 6 * r.2 / 8 + min i 1

/-- The code of an element in bytes given by offset. -/
def OpMap.elemCode (m : OpMap) (bytes : Nat → Byte) (isB : Bool) (rc k : Nat) : Nat :=
  let r := m.runOf isB rc k
  let s := m.runStart r.1
  if m.wide then (bytes (s + 2 * r.2)).toNat + 256 * (bytes (s + 2 * r.2 + 1)).toNat
  else if 32 ≤ m.fmt.toNat then (bytes (s + r.2)).toNat
  else
    let at_ := s + 6 * r.2 / 8
    let hi := if 6 * r.2 % 8 ≤ 2 then 0 else (bytes (at_ + 1)).toNat
    ((bytes at_).toNat + 256 * hi) / 2 ^ (6 * r.2 % 8) % 64

/-- The offset of the scale of a row of A or a column of B at a position along K. -/
def OpMap.scaleAt (m : OpMap) (rc k : Nat) : Nat := m.scaleOff + rc * m.scaleStride + k / m.block

/-- A binary8p1n scale code as a value (R174, R292). -/
def scaleValue (c : Nat) : FVal := (fmtBinary8 17).decode c

/-! ### The values of a product (R292, R303) -/

/-- A decoded element with its scale; 0 times infinity is a NaN. -/
def scaledBy (x s : FVal) : FVal := if x.isNan || s.isNan then .nan false else (exactMul x s).getD (.nan false)

/-- addchunk of R292: one rounding of the exact sum of an accumulator and products. -/
def addchunk (c : Word) (ps : List (FVal × FVal)) : Word := BitVec.ofNat 32 (fmtF32.dot .rne ps (fmtF32.decode c.toNat)).1

/-- The chunks of a range in ascending order, each folded into the accumulator. -/
def addChunks (len : Nat) (p : Nat → FVal × FVal) (n : Nat) (c : Word) : Word :=
  (List.range (n / len)).foldl (fun c q => addchunk c ((List.range len).map fun i => p (q * len + i))) c

/-- K of a product. -/
def productK (i : Instr) : Nat := ((productMaps i).map fun x => 32 * x.2.2).getD 0

/-- The map of A, and of B, that a product captured. -/
def MatOp.mapA (o : MatOp) : OpMap := o.maps.getD 0 ⟨false, 0, 0, false, 0, 0, 0, 0, 0, 0, 0⟩
def MatOp.mapB (o : MatOp) : OpMap := o.maps.getD 1 ⟨false, 0, 0, false, 0, 0, 0, 0, 0, 0, 0⟩
/-- The stored position that a logical position reads (R307). -/
def MatOp.stored (o : MatOp) (k : Nat) : Nat := match o.table with
  | some t => t.getD k 0
  | none => k
/-- The stored row of A that a row of the product reads, none when it is absent (R303). -/
def MatOp.rowOf (o : MatOp) (i : Nat) : Option Nat :=
  match o.instr with
  | .mmag _ => let l : Fin 32 := Fin.ofNat 32 i
    if inMask o.active l then some (src o.data 0 l).toNat else none
  | _ => some i

/-- The chunk length L (R292). -/
def MatOp.chunk (o : MatOp) : Nat :=
  if o.mapA.scaled then o.mapA.block else if o.mapB.scaled then o.mapB.block else 32

/-- The bitmap's words as a product reads them: every bit set when it reads none (R304). -/
def MatOp.bitmap (o : MatOp) (bytes : Nat → Byte) (q : Nat) : Nat :=
  match o.instr with
  | .mmas _ =>
    if o.mapA.bmap = noArray then 2 ^ 64 - 1
    else leNat ((List.range 8).map fun i => bytes (o.mapA.bmap.toNat + 8 * q + i))
  | _ => 2 ^ 64 - 1

/-- The scaled element of A at a row and a logical position. -/
def MatOp.aTerm (o : MatOp) (bytes : Nat → Byte) (i k : Nat) : FVal :=
  match o.rowOf i with
  | none => .fin false 0 0
  | some r =>
    let m := o.mapA
    let x := if (o.bitmap bytes (i / 8)).testBit (k / 8) then (fmtOfFc m.fmt.toNat).decode (m.elemCode bytes false r (o.stored k))
      else .fin false 0 0
    if m.scaled then scaledBy x (scaleValue (bytes (m.scaleAt r k)).toNat) else x

/-- The scaled element of B at a logical position and a column. -/
def MatOp.bTerm (o : MatOp) (bytes : Nat → Byte) (k j : Nat) : FVal :=
  let m := o.mapB
  let y := (fmtOfFc m.fmt.toNat).decode (m.elemCode bytes true j (o.stored k))
  if m.scaled then scaledBy y (scaleValue (bytes (m.scaleAt j k)).toNat) else y

/-- A tile as its rows. -/
def Sub.tile (x : Sub) (n : Nat) : List Lanes := x.tiles.get n (List.replicate 32 (lanesAll 0#32))

/-- The tile after a product (R292, R303). -/
def MatOp.product (o : MatOp) (bytes : Nat → Byte) (tile : List Lanes) : List Lanes :=
  (List.range 32).map fun i => lanesOf fun j =>
    addChunks o.chunk (fun k => (o.aTerm bytes i k, o.bTerm bytes k j.val)) (productK o.instr) (lane (tile.getD i (lanesAll 0#32)) j)

/-! ### Checks of a product at issue (R291, R299, R305-R309) -/

/-- The lowest of a list of offsets. -/
def lowest : List Nat → Option Nat
  | [] => none
  | x :: r => some (r.foldl min x)

/-- The lowest element byte of a row of A, or a column of B, that lies outside its map at some stored position. -/
def OpMap.outside (m : OpMap) (isB : Bool) (rc : Nat) (ks : List Nat) : Option Nat :=
  lowest ((ks.flatMap fun k => m.elemBytes isB rc k).filter fun b => decide (m.base.toNat + m.extent.toNat ≤ b))

/-- The lowest scale byte of a row or column that lies outside a scratchpad range. -/
def OpMap.scaleOutside (m : OpMap) (rc k size : Nat) : Option Nat :=
  if m.scaled then
    let s := m.scaleAt rc 0
    if s + ceilDiv k m.block ≤ size then none else some (max s size)
  else none

/-- The first fault of a list of checks. -/
def firstFault (l : List MapFault) : MapFault := l.findSome? id

/-- The lowest of the failing offsets over a list of rows or columns, as a fault of a cause. -/
def overRows (cause : Byte) (rows : List Nat) (f : Nat → Option Nat) : MapFault :=
  (lowest (rows.filterMap f)).map fun a => (cause, some a)

/-- Whether a product gathers its rows of A. -/
def MatOp.gathers (o : MatOp) : Bool :=
  match o.instr with
  | .mmag _ => true
  | _ => false

/-- The check that every element byte lies in its map, over the stored positions that the product reads (R291, R307); the rows of MMAG
come later (R306). -/
def MatOp.checkElements (o : MatOp) : MapFault :=
  let ks := ((List.range (productK o.instr)).map o.stored).dedup
  let all_ := List.range 32
  firstFault
    [ if o.gathers then none else overRows 0x52#8 all_ fun i => o.mapA.outside false i ks,
      overRows 0x52#8 all_ fun j => o.mapB.outside true j ks ]

/-- The check that every scale byte lies in the scratchpad range (R291). -/
def MatOp.checkScales (o : MatOp) (size : Nat) : MapFault :=
  let k := productK o.instr
  let all_ := List.range 32
  firstFault
    [ if o.gathers then none else overRows 0x54#8 all_ fun i => o.mapA.scaleOutside i k size,
      overRows 0x54#8 all_ fun j => o.mapB.scaleOutside j k size ]

/-- The check of a bitmap's bytes (R305). -/
def MatOp.checkBitmap (o : MatOp) (size : Nat) : MapFault :=
  match o.instr with
  | .mmas _ => if o.mapA.bmap != noArray && decide (size < o.mapA.bmap.toNat + 32) then some (0x54#8, some (max o.mapA.bmap.toNat size)) else none
  | _ => none

/-- The fault of one gathered row (R306). -/
def MatOp.checkRow (o : MatOp) (size : Nat) (l : Fin 32) : MapFault :=
  let k := productK o.instr
  let r := (src o.data 0 l).toNat
  let ks := ((List.range k).map o.stored).dedup
  firstFault [(o.mapA.outside false r ks).map fun a => (0x52#8, some a), (o.mapA.scaleOutside r k size).map fun a => (0x54#8, some a)]

/-- Bytes of a team's scratchpad by offset. -/
def View.scratchByte (v : View) (off : Nat) : Byte :=
  match v.team.scratchAt off 1 with
  | some p => v.core.scratch.get p 0#8
  | none => 0#8

/-- A range of a team's scratchpad as ranges of the core's, split at granules. -/
def Team.scratchRanges (t : Team) (off n : Nat) : List (Nat × Nat) :=
  if n = 0 then []
  else (List.range ((off + n - 1) / 131072 - off / 131072 + 1)).filterMap fun i =>
    let lo := max off ((off / 131072 + i) * 131072)
    let hi := min (off + n) ((off / 131072 + i + 1) * 131072)
    (t.scratchAt lo 1).map fun p => (p, hi - lo)

/-- The read set of a product (R297). -/
def MatOp.readSet (o : MatOp) (t : Team) : List (Nat × Nat) :=
  let k := productK o.instr
  let scales (m : OpMap) (rows : List Nat) : List (Nat × Nat) :=
    if m.scaled then rows.dedup.flatMap fun r => t.scratchRanges (m.scaleAt r 0) (ceilDiv k m.block) else []
  let bitmap := match o.instr with
    | .mmas _ => if o.mapA.bmap = noArray then [] else t.scratchRanges o.mapA.bmap.toNat 32
    | _ => []
  t.scratchRanges o.mapA.base.toNat o.mapA.extent.toNat ++ t.scratchRanges o.mapB.base.toNat o.mapB.extent.toNat
    ++ scales o.mapA ((List.range 32).filterMap o.rowOf) ++ scales o.mapB (List.range 32)
    ++ (if o.table.isSome then t.scratchRanges o.mapA.perm.toNat (2 * k) else []) ++ bitmap

/-! ### Issue (R286-R296, R302) -/

/-- A map-bounds fault, or a translation fault of a tile store, at issue: the word does not issue (R299). -/
def State.mapFault (s : State) (v : View) (i : Instr) (cause : Byte) (lanes : Mask) (address : Option Nat) : State :=
  let r := match address with
    | some a => (BitVec.ofNat 64 a, s)
    | none => s.freeDWord
  r.2.takeFaultS v { v.faultAt cause (opSub i).1 (opSub i).2 lanes (lowestLane lanes).val with entry := 0xE#8, address := r.1 }

/-- The leader lane as a mask. -/
def View.leaderMask (v : View) : Mask := 1#32 <<< v.leader.val

/-- An operation of the acting group for the unit, with nothing captured. -/
def newMatOp (v : View) (i : Instr) (act : Mask) : MatOp :=
  { seq := v.sub.matSeq, slot := v.g.slot, fib := v.g.fib, id := v.fib.nextId, ctx := v.slot.ctx, instr := i, handle := v.fib.handle,
    offset := v.fib.off, prov := v.word.prov, maps := [], table := none, tile := 0, active := act, data := [], base := 0, other := 0,
    dest := [], seed := v.fib.srseed, issued := v.core.clock, reads := [], started := none, occEnd := 0, doneAt := 0, written := false, rows := [], bytes := [],
    flags := 0#32, asked := none }

/-- An operation enters the unit and its word issues with a debit; the flags of its reads land at its completion (R46). -/
def State.pushMat (s : State) (v : View) (f : Fields) (fl : Word) (debit : Nat) (o : MatOp) : State :=
  let s := s.modFibre v.g fun b => b.raise ((f.signal).getD 0)
  let s := s.modSub v.g.core v.g.sub fun x => { x with matrix := x.matrix ++ [{ o with flags := fl }], matSeq := x.matSeq + 1 }
  s.issued v.g debit

/-- The debit of a word of class 6 (R382). -/
def View.tileDebit (v : View) : Nat := Config.weight (sliceOf v.g.core) 6

/-- A map operation: its counter falls 4 clocks after the issue, when its result is written (R287-R289). -/
def State.pushMapOp (s : State) (v : View) (i : Instr) (f : Fields) (act : Mask) (fl : Word) (result : Option Word) : State :=
  let o := { newMatOp v i act with
    tile := 16, started := some v.core.clock, doneAt := v.core.clock + 4,
    data := (result.map fun w => [lanesAll w]).getD [], dest := if result.isSome then [v.place f.d] else [] }
  s.pushMat v f fl v.tileDebit o

/-- A word of the matrix class without an active lane completes in its counter's order, unchecked, with a debit of its own. -/
def State.idleWith (s : State) (v : View) (f : Fields) (fl : Word) (debit : Nat) : State :=
  (s.modFibre v.g fun b => b.raiseIdle ((f.signal).getD 0) fl).issued v.g debit

/-- A word of the matrix class without an active lane completes in its counter's order, unchecked (R42, R291, R296). -/
def State.matIdle (s : State) (v : View) (i : Instr) (f : Fields) (fl : Word) : State :=
  s.startDone v i ((f.signal).getD 0) fl

/-- A map operation over the map it names: with no active lane it only completes; a number at or above NM is fault 0x50. -/
def State.withMap (s : State) (v : View) (i : Instr) (f : Fields) (act : Mask) (fl : Word) (n : Nat) (k : Nat → OpMap → State) : State :=
  if act = 0#32 then s.matIdle v i f fl
  else match v.mapNum n with
    | none => s.mapFault v i 0x50#8 v.leaderMask (some n)
    | some p => k p (v.sub.maps.get p ⟨false, 0, 0, false, 0, 0, 0, 0, 0, 0, 0⟩)

/-- A map record replaced. -/
def State.putMap (s : State) (v : View) (p : Nat) (m : OpMap) : State :=
  s.modSub v.g.core v.g.sub fun x => { x with maps := x.maps.set p m }

/-- MAPRES (R287). -/
def execMapres (f : Fields) (s : State) : Outcome State Fault Refusal :=
  s.withSources (.mapres f) f (regSrcs f.a [.tag tagN32, .tag tagN32, .tag tagN32, .tag tagN32]) fun v act ls fl =>
    let i := Instr.mapres f
    .next (s.withMap v i f act fl (f.sub &&& 15#8).toNat fun p m =>
      if m.reserved then s.pushMapOp v i f act fl (some 1#32)
      else match quadMap ((List.range 4).map fun k => src ls k v.leader) v.team.desc.world with
        | none => s.mapFault v i 0x53#8 v.leaderMask none
        | some r => match r.check v.team.desc.scratch with
          | some e => s.mapFault v i e.1 v.leaderMask e.2
          | none => (s.putMap v p r).pushMapOp v i f act fl (some 0#32))

/-- MAPSET (R288, R309): the field changes in the issue clock. -/
def execMapset (f : Fields) (s : State) : Outcome State Fault Refusal :=
  s.withSources (.mapset f) f (if f.ext = .none then regSrcs f.a [.tag tagN32] else xWords .n32 f.ext) fun v act ls fl =>
    let i := Instr.mapset f
    let n := (f.sub &&& 15#8).toNat
    .next (s.withMap v i f act fl n fun p m =>
      let sel := (f.sub >>> 4).toNat
      if !m.reserved then s.mapFault v i 0x51#8 v.leaderMask (some n)
      else if sel = 9 then s.pushMapOp v i f act fl none
      else match m.setField sel (src ls 0 v.leader) with
        | none => s.mapFault v i 0x53#8 v.leaderMask none
        | some r => match r.check v.team.desc.scratch with
          | some e => s.mapFault v i e.1 v.leaderMask e.2
          | none => (s.putMap v p r).pushMapOp v i f act fl none)

/-- MAPGET (R288): the field is read in the issue clock. -/
def execMapget (f : Fields) (s : State) : Outcome State Fault Refusal :=
  s.withSources (.mapget f) f [] fun v act _ fl =>
    let i := Instr.mapget f
    let n := (f.sub &&& 15#8).toNat
    .next (s.withMap v i f act fl n fun _ m =>
      if !m.reserved then s.mapFault v i 0x51#8 v.leaderMask (some n)
      else s.pushMapOp v i f act fl (some (m.field (f.sub >>> 4).toNat)))

/-- MAPREL (R289). -/
def execMaprel (f : Fields) (s : State) : Outcome State Fault Refusal :=
  s.withSources (.maprel f) f [] fun v act _ fl =>
    let i := Instr.maprel f
    .next (s.withMap v i f act fl (f.sub &&& 15#8).toNat fun p m =>
      (s.putMap v p { m with reserved := false }).pushMapOp v i f act fl none)

/-- Whether the unit's queue has a place. -/
def View.matRoom (v : View) : Bool := decide ((v.sub.matrix.filter fun o => o.started.isNone).length < 16)

/-- The tile that a word names: with no active lane the word only completes, with no place in the queue it is held, and a number at or
above NT is fault 0x50. -/
def State.withTile (s : State) (v : View) (i : Instr) (f : Fields) (act : Mask) (fl : Word) (k : Nat → State) : State :=
  if act = 0#32 then s.matIdle v i f fl
  else if !v.matRoom then s
  else match v.tileNum f.tl with
    | none => s.mapFault v i 0x50#8 v.leaderMask (some f.tl)
    | some p => k p

/-- The record of a map that a product names, or its fault: no such map, or not reserved. -/
def View.productMap (v : View) (n : Nat) : Except (Byte × Nat) OpMap :=
  match v.mapNum n with
  | none => .error (0x50#8, n)
  | some p =>
    let m := v.sub.maps.get p ⟨false, 0, 0, false, 0, 0, 0, 0, 0, 0, 0⟩
    if m.reserved then .ok m else .error (0x51#8, n)

/-- The permutation entries of a product, read at issue: none without a table, or a fault (R307). -/
def View.tableOf (v : View) (a b : OpMap) (k : Nat) : Except (Byte × Option Nat) (Option (List Nat)) :=
  if a.perm = noArray ∧ b.perm = noArray then .ok none
  else if a.perm ≠ b.perm then .error (0x56#8, none)
  else if v.team.desc.scratch < a.perm.toNat + 2 * k then .error (0x54#8, some (max a.perm.toNat v.team.desc.scratch))
  else .ok (some ((List.range k).map fun i =>
    (v.scratchByte (a.perm.toNat + 2 * i)).toNat + 256 * (v.scratchByte (a.perm.toNat + 2 * i + 1)).toNat))

/-- The debit of a product (R382): f is 4 for 16-bit operands, as the record of A's map stands, whether or not a lane is active. -/
def View.productDebit (v : View) (i : Instr) : Nat :=
  let n := (productMaps i).getD (0, 0, 0)
  Config.weight (sliceOf v.g.core) 7 * n.2.2 * (if ((v.map? n.1).map OpMap.wide).getD false then 4 else 1)

/-- What a product captures, or its fault (R291, R302-R309). R291's checks come first: the maps, their formats, the element bytes of a
product without a table, the scale bytes, the bitmap; then the table and the elements that its entries reach. -/
def View.captureProduct (v : View) (i : Instr) (act : Mask) (tile : Nat) (data : List Lanes) : Except (Byte × Option Nat) MatOp :=
  let n := (productMaps i).getD (0, 0, 0)
  let size := v.team.desc.scratch
  match v.productMap n.1, v.productMap n.2.1 with
  | .error e, _ => .error (e.1, some e.2)
  | _, .error e => .error (e.1, some e.2)
  | .ok a, .ok b =>
    if a.wide ≠ b.wide ∨ (a.scaled ∧ b.scaled ∧ a.blk ≠ b.blk) then .error (0x55#8, none)
    else
      let o := { newMatOp v i act with maps := [a, b], tile := tile, data := data }
      let plain := decide (a.perm = noArray ∧ b.perm = noArray)
      match firstFault [if plain then o.checkElements else none, o.checkScales size, o.checkBitmap size] with
      | some e => .error e
      | none => match v.tableOf a b (productK i) with
        | .error e => .error e
        | .ok table =>
          let o := { o with table := table }
          match if plain then none else o.checkElements with
          | some e => .error e
          | none => .ok o

/-- A product passes its checks and enters the queue, with everything captured (R291, R302-R309). With no active lane it only completes,
and draws its debit. -/
def State.startProduct (s : State) (v : View) (i : Instr) (f : Fields) (act : Mask) (data : List Lanes) (fl : Word) : State :=
  let debit := v.productDebit i
  if act = 0#32 then s.idleWith v f fl debit
  else s.withTile v i f act fl fun tile =>
    match v.captureProduct i act tile data with
    | .error e => s.mapFault v i e.1 v.leaderMask e.2
    | .ok o =>
      let bad := if o.gathers then (maskLanes act).filterMap fun l => (o.checkRow v.team.desc.scratch l).map fun e => (l, e) else []
      match bad with
      | x :: _ => s.mapFault v i x.2.1 (maskOf fun l => bad.any fun y => y.1 == l) x.2.2
      | [] => s.pushMat v f fl debit { o with reads := o.readSet v.team }

/-- MMA (R291). -/
def execMma (f : Fields) (s : State) : Outcome State Fault Refusal :=
  s.withSources (.mma f) f [] fun v act _ fl => .next (s.startProduct v (.mma f) f act [] fl)

/-- MMAS (R304, R305). -/
def execMmas (f : Fields) (s : State) : Outcome State Fault Refusal :=
  s.withSources (.mmas f) f [] fun v act _ fl => .next (s.startProduct v (.mmas f) f act [] fl)

/-- MMAG (R306): the row index of each lane. -/
def execMmag (f : Fields) (s : State) : Outcome State Fault Refusal :=
  s.withSources (.mmag f) f (regSrcs f.a [.tag tagN32]) fun v act ls fl => .next (s.startProduct v (.mmag f) f act ls fl)

/-- ACCZ (R293). -/
def execAccz (f : Fields) (s : State) : Outcome State Fault Refusal :=
  s.withSources (.accz f) f [] fun v act _ fl =>
    .next (s.withTile v (.accz f) f act fl fun tile => s.pushMat v f fl v.tileDebit { newMatOp v (.accz f) act with tile := tile })

/-- The first row and the number of rows of ACCLD and ACCADD. -/
def accRow (f : Fields) : Nat := (f.imm20 &&& 31#20).toNat
def accRows (f : Fields) : Nat := ((f.imm20 >>> 5) &&& 63#20).toNat

/-- ACCLD (R293). -/
def execAccld (f : Fields) (s : State) : Outcome State Fault Refusal :=
  s.withSources (.accld f) f [] fun v act _ fl =>
    .next (s.withTile v (.accld f) f act fl fun tile =>
      s.pushMat v f fl v.tileDebit
        { newMatOp v (.accld f) act with tile := tile, dest := (fieldRegs f.d (accRows f)).map v.place })

/-- ACCADD (R293): the registers are read at issue. -/
def execAccadd (f : Fields) (s : State) : Outcome State Fault Refusal :=
  s.withSources (.accadd f) f (regSrcs f.a (List.replicate (accRows f) (.tag tagF32))) fun v act ls fl =>
    .next (s.withTile v (.accadd f) f act fl fun tile =>
      s.pushMat v f fl v.tileDebit { newMatOp v (.accadd f) act with tile := tile, data := ls })

/-- The bytes of an element that ACCST writes (R294). -/
def accWidth (fc : Nat) : Nat := if fc = 3 then 4 else if fc = 16 ∨ fc = 17 then 2 else 1

/-- The offsets that an ACCST or ACCQ writes. -/
def MatOp.storeOffsets (o : MatOp) : List Nat :=
  let lanes := maskLanes o.active
  match o.instr with
  | .accst f =>
    let w := accWidth f.fcCtl
    (List.range 32).flatMap fun i => lanes.flatMap fun j => (List.range w).map fun b => o.base + i * o.other + j.val * w + b
  | .accq _ => (List.range 32).flatMap fun i => (o.other + i) :: lanes.map fun j => o.base + 32 * i + j.val
  | _ => []

/-- The offsets of the elements that an ACCST of a width writes. -/
def MatOp.storeElems (o : MatOp) (w : Nat) : List Nat :=
  (maskLanes o.active).flatMap fun j => (List.range 32).map fun i => o.base + i * o.other + j.val * w

/-- A tile store passes its checks and enters the queue (R296). ADDRESS of a misaligned base or pitch is the lowest offset of an element
that is misaligned (R299). -/
def State.startStore (s : State) (v : View) (i : Instr) (f : Fields) (o : MatOp) (fl : Word) (w : Nat) (after : State → State) : State :=
  if o.base % w ≠ 0 ∨ o.other % w ≠ 0 then
    s.mapFault v i causeMisaligned v.leaderMask (lowest ((o.storeElems w).filter fun a => decide (a % w ≠ 0)))
  else match lowest (o.storeOffsets.filter fun a => decide (v.team.desc.scratch ≤ a)) with
    | some a => s.mapFault v i causeScratch v.leaderMask (some a)
    | none => after (s.pushMat v f fl v.tileDebit { o with rows := (o.storeOffsets.map (· / 64)).dedup })

/-- A lane's generator after a number of steps (R182). -/
def rsrSteps (n : Nat) (s : Word) : Word := (List.range n).foldl (fun s _ => rsrStep s) s

/-- ACCST (R294): under .rsr the generators of the active lanes step 32 times at issue. -/
def execAccst (f : Fields) (s : State) : Outcome State Fault Refusal :=
  s.withSources (.accst f) f (regSrcs f.a [.tag tagN32] ++ regSrcs f.b [.tag tagN32]) fun v act ls fl =>
    .next (s.withTile v (.accst f) f act fl fun tile =>
      let o := { newMatOp v (.accst f) act with tile := tile, base := (src ls 0 v.leader).toNat, other := (src ls 1 v.leader).toNat }
      s.startStore v (.accst f) f o fl (accWidth f.fcCtl) fun s =>
        if f.rmCtl = 5 then
          s.modFibre v.g fun b => { b with srseed := lanesOf fun l => if inMask act l then rsrSteps 32 (lane b.srseed l) else lane b.srseed l }
        else s)

/-- ACCQ (R295). -/
def execAccq (f : Fields) (s : State) : Outcome State Fault Refusal :=
  s.withSources (.accq f) f (regSrcs f.a [.tag tagN32] ++ regSrcs f.b [.tag tagN32]) fun v act ls fl =>
    .next (s.withTile v (.accq f) f act fl fun tile =>
      let o := { newMatOp v (.accq f) act with tile := tile, base := (src ls 0 v.leader).toNat, other := (src ls 1 v.leader).toNat }
      s.startStore v (.accq f) f o fl 1 id)

/-! ### What a tile operation does (R293-R295) -/

/-- The bytes that an ACCST writes, by offset (R294). -/
def MatOp.accstBytes (o : MatOp) (f : Fields) (tile : List Lanes) : List (Nat × Byte) :=
  let w := accWidth f.fcCtl
  (maskLanes o.active).flatMap fun j => (List.range 32).flatMap fun i =>
    let c := (lane (tile.getD i (lanesAll 0#32)) j).toNat
    let m := rmodeOf f.rmCtl (rsrSteps (i + 1) (lane o.seed j))
    let e := if f.fcCtl = 3 then c else (convElem false 3 f.fcCtl m (f.imm20.getLsbD 10) c).1
    (leBytes w e).zipIdx.map fun b => (o.base + i * o.other + j.val * w + b.2, b.1)

/-- A value divided by a power of two. -/
def FVal.scaleDown (v : FVal) (k : Int) : FVal :=
  match v with
  | .fin s n e => .fin s n (e - k)
  | v => v

/-- The bytes that an ACCQ writes, by offset (R295). -/
def MatOp.accqBytes (o : MatOp) (f : Fields) (tile : List Lanes) : List (Nat × Byte) :=
  let fmt := fmtBinary8 (f.imm20 >>> 15).toNat
  let lanes := maskLanes o.active
  (List.range 32).flatMap fun i =>
    let val (j : Fin 32) : FVal := fmtF32.decode (lane (tile.getD i (lanesAll 0#32)) j).toNat
    let c := (blockScale fmt (lanes.map val)).1
    (o.other + i, BitVec.ofNat 8 c) :: lanes.map fun j =>
      let e := if c = 0xFF then fmt.nanCode else (fmt.conv .rne true ((val j).scaleDown ((c : Int) - 128))).1
      (o.base + 32 * i + j.val, BitVec.ofNat 8 e)

/-- What a tile store writes. -/
def MatOp.storeBytes (o : MatOp) (tile : List Lanes) : List (Nat × Byte) :=
  match o.instr with
  | .accst f => o.accstBytes f tile
  | .accq f => o.accqBytes f tile
  | _ => []

/-- Whether an operation is a product. -/
def MatOp.isProduct (o : MatOp) : Bool :=
  match o.instr with
  | .mma _ | .mmas _ | .mmag _ => true
  | _ => false

/-- The tile after an operation that changes it, which acts when it starts: nothing reads the tile before it completes. -/
def MatOp.newTile (o : MatOp) (bytes : Nat → Byte) (tile : List Lanes) : List Lanes :=
  match o.instr with
  | .mma _ | .mmas _ | .mmag _ => o.product bytes tile
  | .accz _ => tile.map fun r => lanesOf fun l => if inMask o.active l then 0#32 else lane r l
  | .accadd f => tile.zipIdx.map fun r =>
      if accRow f ≤ r.2 ∧ r.2 < accRow f + accRows f then
        lanesOf fun l =>
          if inMask o.active l then
            addchunk (lane r.1 l) [(fmtF32.decode (src o.data (r.2 - accRow f) l).toNat, .fin false 1 0)]
          else lane r.1 l
      else r.1
  | _ => tile

/-- The clocks of an operation's occupancy (R290, R305, R306). -/
def MatOp.occupancy (o : MatOp) (bytes : Nat → Byte) : Nat :=
  let k := productK o.instr
  let f := if o.mapA.wide then 4 else 1
  match o.instr with
  | .mma _ => k * f
  | .mmas _ => 8 * f * ([0, 1, 2, 3].foldl (fun m q => max m ((List.range (k / 8)).countP fun b => (o.bitmap bytes q).testBit b)) 0)
  | .mmag _ => ceilDiv (32 * k * (if o.mapA.wide then 8 else if 32 ≤ o.mapA.fmt.toNat then 4 else 3)) 256 + k * f
  | .accz _ => 1
  | .accld g | .accadd g => ceilDiv (accRows g) 2
  | .accst _ => 16
  | _ => 24

/-- The clocks from start to completion, given the occupancy's own. -/
def MatOp.latency (o : MatOp) (occ : Nat) : Nat :=
  match o.instr with
  | .mma _ | .mmas _ | .mmag _ => 6 + occ
  | .accz _ => 4
  | .accld _ | .accadd _ => 4 + occ
  | _ => 8 + occ

/-! ### The unit (R290, R297, R388, R389) -/

/-- The place of an operation's group. -/
def MatOp.group (o : MatOp) (core sub : Nat) : GroupRef := ⟨core, sub, o.slot, o.fib⟩

/-- A unit's operation replaced. -/
def State.modMat (s : State) (core sub seq : Nat) (f : MatOp → MatOp) : State :=
  s.modSub core sub fun x => { x with matrix := x.matrix.map fun o => if o.seq = seq then f o else o }

/-- Whether a tile store of a unit must wait: a matrix operation holds a byte of it, other than a later one of the same unit, or an older
scratchpad access of its group to one of its rows has still to perform (R227, R297). One to other rows does not delay the completion
that R290 gives, so that a later product may read the bytes that a store before it has not yet written (R252, R355; DEDUCED:
notes/assumptions). -/
def State.storeWaits (s : State) (core sub : Nat) (o : MatOp) (t : Team) : Bool :=
  let places := o.storeOffsets.filterMap fun a => t.scratchAt a 1
  let held := (s.core core).subs.cells.any fun x => x.2.matrix.any fun p =>
    !(x.1 == sub && decide (o.seq < p.seq)) && p.holdsAt (s.core core).clock
      && p.reads.any fun r => places.any fun a => decide (r.1 ≤ a ∧ a < r.1 + r.2)
  let older := match s.fibre? (o.group core sub) with
    | none => false
    | some f => f.ops.any fun p => decide (p.id < o.id) && orderClass p.instr == 2 &&
        (maskLanes p.pending).any fun l => o.storeOffsets.any fun a => a / 64 == (p.addr l).toNat / 64
  held || older

/-- A tile store writes the bytes that its start has read from the tile, once. -/
def State.writeStore (s : State) (core sub : Nat) (o : MatOp) (t : Team) : State :=
  let s := s.modCore core fun k =>
    { k with scratch := o.bytes.foldl (fun m b => match t.scratchAt b.1 1 with
        | some p => m.set p b.2
        | none => m) k.scratch }
  s.modMat core sub o.seq fun p => { p with written := true }

/-- The tile stores of a unit that have ended their occupancy and not yet written, in order (R290). -/
def Sub.storesDue (x : Sub) : List MatOp := x.matrix.filter fun o => o.started.isSome && o.storesLater

/-- The unit's next operation: the first of its queue that has not started. -/
def Sub.matHead (x : Sub) : Option MatOp := x.matrix.find? fun o => o.started.isNone

/-- Whether the operations before the head of a unit's queue let it start in a clock (R290): each has ended its occupancy, and one on
its tile, but for two products, has completed. -/
def Sub.canStart (x : Sub) (clock : Nat) : Bool :=
  match x.matHead with
  | some o => x.matrix.all fun p => decide (o.seq ≤ p.seq) || p.tile == 16
      || (decide (p.occEnd ≤ clock) && (p.tile != o.tile || (p.isProduct && o.isProduct)))
  | none => false

/-- Whether the head of a unit's queue meets every condition of its start but a permit (R290, R388): a product also follows the writes of
the stores before it in the unit. -/
def State.matReady (s : State) (core sub : Nat) : Bool :=
  let k := s.core core
  let x := k.sub sub
  x.canStart k.clock && match x.matHead with
    | some o => !o.isProduct || x.storesDue.all fun p => !(k.teams.find p.ctx).any fun t => s.storeWaits core sub p t
    | none => false

/-- Whether the head of a unit's queue is a product that meets every condition of its start but a permit. -/
def State.productReady (s : State) (core sub : Nat) : Bool :=
  s.matReady core sub && (((s.core core).sub sub).matHead.any MatOp.isProduct)

/-- The products that ask for a permit in a clock, each with its request clock and sub-partition: the head of the queue of each unit that
is not active. -/
def State.permitAsks (s : State) (core : Nat) : List (Nat × Nat) :=
  let k := s.core core
  k.subs.cells.filterMap fun p => match p.2.matHead with
    | some o => if !p.2.matActive && s.productReady core p.1 then some (o.asked.getD k.clock, p.1) else none
    | none => none

/-- The products that ask for a permit and get none in a clock keep their request clock (R388). -/
def State.noteAsks (s : State) (core : Nat) : State :=
  let clock := (s.core core).clock
  (s.permitAsks core).foldl (fun s a => s.modSub core a.2 fun x =>
    { x with matrix := match x.matHead with
      | some o => x.matrix.map fun p => if p.seq = o.seq then { p with asked := some (p.asked.getD clock) } else p
      | none => x.matrix }) s

/-- ACTIVE: the active units of a core (R388). -/
def Core.activeUnits (k : Core) : Nat := (k.subs.vals.filter fun x => x.matActive).length

/-- Whether a product of a sub-partition gets a permit now: one is left in the present window, and no request stands before it. -/
def State.permitFor (s : State) (core sub : Nat) : Bool :=
  let k := s.core core
  match (s.permitAsks core).find? fun a => a.2 == sub with
  | none => false
  | some a => decide (k.power.window = k.clock / 4 * 4 + 1 ∧ 0 < k.power.ups)
      && (s.permitAsks core).all fun b => decide (a.1 < b.1 ∨ (a.1 = b.1 ∧ a.2 ≤ b.2))

/-- The rows that an ACCLD reads at its start; nothing changes the tile before it completes (R290). -/
def MatOp.readTile (o : MatOp) (tile : List Lanes) : List Lanes :=
  match o.instr with
  | .accld f => (List.range (accRows f)).map fun m => tile.getD (accRow f + m) (lanesAll 0#32)
  | _ => o.data

/-- The head of a unit's queue starts: it reads its tile, and a product makes the unit active. -/
def State.startMat (s : State) (core sub : Nat) (v : View) (o : MatOp) : State :=
  let k := s.core core
  let x := k.sub sub
  let bytes (a : Nat) : Byte := match v.team.scratchAt a 1 with
    | some p => k.scratch.get p 0#8
    | none => 0#8
  let occ := o.occupancy bytes
  let s := s.modSub core sub fun y => { y with tiles := y.tiles.set o.tile (o.newTile bytes (x.tile o.tile)) }
  let s := s.modMat core sub o.seq fun p =>
    { p with started := some k.clock, occEnd := k.clock + max 1 occ, doneAt := k.clock + o.latency occ,
             data := o.readTile (x.tile o.tile), bytes := o.storeBytes (x.tile o.tile) }
  if o.isProduct then
    let s := if x.matActive then s else s.modCore core fun k => { k with power := { k.power with ups := k.power.ups - 1 } }
    s.modSub core sub fun y => { y with matActive := true, matLeave := none }
  else s

/-- MATRIX_OP_START (R290), at the end of a clock, after its completions: the conditions of the start hold, and a product on an inactive
unit has its permit; the stores of this unit that the operation may read have performed before. -/
def execMatrixOpStart (core sub : Nat) (s : State) : Outcome State Fault Refusal :=
  let k := s.core core
  let x := k.sub sub
  match x.matHead with
  | none => .next s
  | some o => match s.view (o.group core sub) with
    | none => .next s
    | some v =>
      if !k.closing || !s.matReady core sub then .next s
      else if o.isProduct && !x.matActive && !s.permitFor core sub then .next s
      else
        let due := if o.isProduct then x.storesDue else []
        let s := due.foldl (fun s p => match (s.core core).teams.find p.ctx with
          | some t => s.writeStore core sub p t
          | none => s) s
        .next (s.startMat core sub { v with core := s.core core, sub := (s.core core).sub sub } o)

/-- MATRIX_OCCUPANCY_END (R297, R389), at the end of a clock, after its starts, the lowest sub-partition first: the holds of the products
whose occupancy has ended end, and an active unit on which no product runs or starts leaves if the window allows it, or asks to
leave. -/
def execMatrixOccupancyEnd (core sub : Nat) (s : State) : Outcome State Fault Refusal :=
  let k := s.core core
  if !k.closing then .next s
  else
  let free (o : MatOp) : Bool := o.started.isSome && decide (o.occEnd ≤ k.clock)
  let s := s.modSub core sub fun x => { x with matrix := x.matrix.map fun o => if free o then { o with reads := [] } else o }
  let x := (s.core core).sub sub
  let running := x.matrix.any fun o => o.isProduct && o.started.isSome && !free o
  if !x.matActive || running || s.productReady core sub || x.matLeave.isSome then .next s
  else if k.power.window = k.clock / 4 * 4 + 1 ∧ 0 < k.power.downs then
    let s := s.modCore core fun k => { k with power := { k.power with downs := k.power.downs - 1 } }
    .next (s.modSub core sub fun x => { x with matActive := false })
  else .next (s.modSub core sub fun x => { x with matLeave := some k.clock })

/-- An operation completes: its destinations are written and its counter falls. -/
def State.completeMat (s : State) (core sub : Nat) (o : MatOp) : State :=
  let g := o.group core sub
  let tag := match o.instr with
    | .accld _ => tagF32
    | _ => tagN32
  let regs : List Reg := o.data.map fun d => ⟨tag, d⟩
  let s := match o.instr with
    | .accst _ | .accq _ => match (s.core core).teams.find o.ctx with
      | some t => if o.written then s else s.writeStore core sub o t
      | none => s
    | .accld _ | .mapres _ | .mapget _ => s.writeOps g o.dest o.active regs
    | _ => s
  let s := s.modSub core sub fun x => { x with matrix := x.matrix.filter fun p => p.seq != o.seq }
  ((s.modFibre g fun f => f.completeWith o.id o.flags).settleAborted g).retireIfDone core o.ctx

/-- MATRIX_OP_COMPLETE (R290), at the end of a clock: of its completion clock or, for a store that a read set holds, of the clock in which
the hold has ended. -/
def execMatrixOpComplete (core sub id : Nat) (s : State) : Outcome State Fault Refusal :=
  let k := s.core core
  match (k.sub sub).matrix.find? fun o => o.seq == id with
  | none => .next s
  | some o =>
    if !k.closing || o.started.isNone || decide (k.clock < o.doneAt) then .next s
    else
      let waits := o.storesLater && match k.teams.find o.ctx with
        | some t => s.storeWaits core sub o t
        | none => false
      if waits then .next s
      else
        let s := s.modMat core sub id fun p => { p with reads := [] }
        .next (s.completeMat core sub { o with reads := [] })

/-- The operations of a core's units that have reached their completion clock, each with its issue clock, sub-partition and number. -/
def Core.dueMatrix (k : Core) : List (Nat × Nat × Nat) :=
  k.subs.cells.flatMap fun p =>
    (p.2.matrix.filter fun o => o.started.isSome && decide (o.doneAt ≤ k.clock)).map fun o => (o.issued, p.1, o.seq)

/-- The units of a core with an operation to start, those that have asked longest for a permit first (R388). -/
def Core.matStarts (k : Core) : List Nat :=
  let l := k.subs.cells.filterMap fun p => p.2.matHead.map fun o => (o.asked.getD k.clock, p.1)
  (l.mergeSort fun a b => decide (a.1 < b.1 ∨ (a.1 = b.1 ∧ a.2 ≤ b.2))).map (·.2)

/-- The units of a core that may have an occupancy to end, rising. -/
def Core.matEnds (k : Core) : List Nat :=
  (k.subs.cells.filter fun p => p.2.matActive || p.2.matrix.any fun o => !o.reads.isEmpty).map (·.1)

/-- UP and DOWN of a band (R381): 2 and 1 until slice firmware sets them. -/
def Power.up (p : Power) (b : Nat) : Nat := p.rampUp.get b 2
def Power.down (p : Power) (b : Nat) : Nat := p.rampDown.get b 1

/-- LIMITER_WINDOW (R388, R389): at the first clock of a window of four, the permits and leaves of its band are set, and the units that
asked to leave in earlier windows leave, lowest number first, as far as the window allows. -/
def execLimiterWindow (core : Nat) (s : State) : Outcome State Fault Refusal :=
  let k := s.core core
  if k.clock % 4 ≠ 0 ∨ k.power.window = k.clock + 1 then .next s
  else
    let b := min 7 (k.activeUnits / 4)
    let askers := (k.subs.cells.filter fun p =>
      p.2.matLeave.isSome && !s.productReady core p.1).map (·.1)
    let leave := askers.take (k.power.down b)
    let s := leave.foldl (fun s i => s.modSub core i fun x => { x with matActive := false, matLeave := none }) s
    .next (s.modCore core fun k =>
      { k with power := { k.power with window := k.clock + 1, ups := k.power.up b, downs := k.power.down b - leave.length } })

end Sys2Proof.Machine
end

