-- ==== Sys2Proof/Machine/Place.lean ====
section
/-!
DEFINITION. Where a team goes: the mesh of cores (R10), and the resources that a placement or a restore takes on a core (R22, R23,
R24, R315, R334).
-/

namespace Sys2Proof.Machine

/-! ### The mesh (R8, R10) -/

/-- Column and row of a core in the package's mesh. -/
def meshOf (core : Nat) : Nat × Nat :=
  let s := core / 16
  let l := core % 16
  (4 * (s % 4) + l % 4, 4 * (s / 4) + l / 4)

/-- The core at a column and row of the mesh, none outside it. -/
def meshCore (col row : Nat) : Option Nat :=
  if col < 16 ∧ row < 16 then some (16 * (4 * (row / 4) + col / 4) + 4 * (row % 4) + col % 4) else none

/-- The core of cluster rank c of a rectangle of a width whose north-west core is at a place (R129). -/
def clusterCore (col row cw c : Nat) : Option Nat := meshCore (col + c % cw) (row + c / cw)

/-! ### Free resources of a core -/

/-- The lowest-numbered free generator context. -/
def Core.freeCtx (k : Core) : Option Nat := (List.range Config.contexts).find? fun c => (k.teams.find c).isNone

/-- Whether a sub-partition is of a world, or holds no slot and so may become so (R22). -/
def Sub.usable (x : Sub) (world : Nat) : Bool := x.world == world || x.slots.cells.isEmpty

/-- The units of a bank that no slot holds. -/
def Sub.freeUnits (x : Sub) : List Nat :=
  (List.range Config.bankUnits).filter fun u => x.slots.vals.all fun t => !t.units.contains u

/-- The tiles and the maps of a sub-partition that no team holds: sixteen of each (R282). -/
def freeNumbers (owner : SMap Nat) : List Nat := (List.range 16).filter fun n => (owner.find n).isNone

/-- The lowest-numbered free slot. -/
def Sub.freeSlot (x : Sub) : Option Nat := (List.range Config.slotsPerSub).find? fun n => (x.slots.find n).isNone

/-- A sub-partition of a world for a team that has none of its slots there yet: one of another world is cleared (R22), and the team's
tiles and maps are reserved, the lowest-numbered free ones. -/
def Sub.claim (x : Sub) (world ctx nt nm : Nat) : Option Sub :=
  let tiles := freeNumbers x.tileOwner
  let maps := freeNumbers x.mapOwner
  if !x.usable world || decide (tiles.length < nt ∨ maps.length < nm) then none
  else
    let x := if x.world = world then x else { x with world := world, bank := .empty, tiles := .empty, maps := .empty, late := [] }
    some { x with
           tileOwner := (tiles.take nt).foldl (fun m n => m.set n ctx) x.tileOwner
           mapOwner := (maps.take nm).foldl (fun m n => m.set n ctx) x.mapOwner
           maps := (maps.take nm).foldl (fun m n => match m.find n with
             | some r => m.set n { r with reserved := false }
             | none => m) x.maps }

/-- A slot with an allocation reserved for a context: the lowest-numbered free slot, and the lowest free units of the bank. -/
def Sub.reserve (x : Sub) (ctx alloc : Nat) : Option (Sub × Nat) :=
  let units := x.freeUnits.take alloc
  match x.freeSlot with
  | some n =>
    if units.length = alloc then
      some ({ x with slots := x.slots.set n (.fresh ctx units) }, n)
    else none
  | none => none

/-- One slot of a team on a sub-partition, which the team claims with its first slot there. -/
def Sub.takeSlot (x : Sub) (ctx : Nat) (d : Desc) : Option Sub :=
  let mine := x.slots.vals.any fun t => t.ctx == ctx
  match if mine then some x else x.claim d.world ctx d.nt d.nm with
  | some x => (x.reserve ctx d.alloc).map (·.1)
  | none => none

/-- One slot of a team on the lowest-numbered sub-partition that has room (R23). -/
def Core.takeSlot (k : Core) (ctx : Nat) (d : Desc) : Option Core :=
  (List.range Config.subsPerCore).findSome? fun i => ((k.sub i).takeSlot ctx d).map fun x => k.setSub i x

/-- A number of slots, one at a time. -/
def Core.takeSlots (k : Core) (ctx : Nat) (d : Desc) : Nat → Option Core
  | 0 => some k
  | n + 1 => match k.takeSlot ctx d with
    | some k => k.takeSlots ctx d n
    | none => none

/-- A granule of the scratchpad. -/
def Core.granule (k : Core) (q : Nat) : Granule := k.granules.get q ⟨0, none⟩

/-- The lowest-addressed run of free granules of a length. -/
def Core.freeGranules (k : Core) (n : Nat) : Option Nat :=
  (List.range (16 + 1 - n)).find? fun b => (List.range n).all fun i => (k.granule (b + i)).ctx.isNone

/-- A granule taken for a context: one of another world is cleared (R22, R24). -/
def Core.takeGranule (k : Core) (ctx world q : Nat) : Core :=
  let k := if (k.granule q).world = world then k else { k with scratch := k.scratch.keep fun p _ => p / 131072 != q }
  { k with granules := k.granules.set q ⟨world, some ctx⟩ }

/-- The granules of a team's scratchpad (R204, R315): none when there is no run. -/
def Core.takeGranules (k : Core) (ctx world scratch : Nat) : Option (Core × List Nat) :=
  let n := ceilDiv scratch 131072
  if 16 < n then none
  else (k.freeGranules n).map fun b =>
    let qs := (List.range n).map (b + ·)
    (qs.foldl (fun k q => k.takeGranule ctx world q) k, qs)

/-- The resources of a team of a descriptor on a core: the context, and the core with slots, tiles, maps and granules reserved. -/
def Core.takeTeam (k : Core) (d : Desc) : Option (Core × Nat × List Nat) :=
  match k.freeCtx with
  | none => none
  | some ctx => match k.takeSlots ctx d d.slots with
    | none => none
    | some k => (k.takeGranules ctx d.world d.scratch).map fun r => (r.1, ctx, r.2)

end Sys2Proof.Machine
end

