-- ==== Sys2Proof/Machine/Saves.lean ====
section
/-!
DEFINITION. Pre-emption and team images (R98, R99, R279, R300, R326-R334): the request and its end, the beginning of a save, what is
captured, the image's header and sealing, the end of a save, and the restoring of a team.
-/

namespace Sys2Proof.Machine

open Host (Outcome)

/-! ### Keys (R369) -/

/-- n bytes of a number, the most significant first. -/
def beBytes (n v : Nat) : List Byte := (leBytes n v).reverse
/-- The number that bytes hold, the most significant first. -/
def beNat (bs : List Byte) : Nat := leNat bs.reverse

/-- The label of a key of a purpose: DWERATH-THAWYN in ASCII, then the purpose's byte. -/
def keyLabel (purpose : Nat) : List Byte :=
  [0x44#8, 0x57#8, 0x45#8, 0x52#8, 0x41#8, 0x54#8, 0x48#8, 0x2D#8, 0x54#8, 0x48#8, 0x41#8, 0x57#8, 0x59#8, 0x4E#8, BitVec.ofNat 8 purpose]

/-- derive of R369: the first bits of the concatenated HMACs, as a number. -/
def deriveKey (root : BitVec 256) (purpose : Nat) (tenant period : Word) (bits : Nat) : Nat :=
  let n := ceilDiv bits 384
  let k := (List.range n).foldl (fun k i =>
    k * 2 ^ 384 + (Config.hmacSha384 (beBytes 32 root.toNat)
      (beBytes 4 (i + 1) ++ keyLabel purpose ++ [0#8] ++ beBytes 4 tenant.toNat ++ beBytes 4 period.toNat ++ beBytes 4 bits)).toNat) 0
  k / 2 ^ (384 * n - bits)

/-- The tenant and the period to which a world of a partition is bound (R371). -/
def State.binding (s : State) (part world : Nat) : Word × Word :=
  match s.part? part with
  | some p => p.bindings.get world (0#32, 0#32)
  | none => (0#32, 0#32)

/-- The sealing key of a binding (R331). -/
def State.sealKey (s : State) (b : Word × Word) : BitVec 256 := BitVec.ofNat 256 (deriveKey (s.markhor.root.getD 0#256) 3 b.1 b.2 256)

/-! ### The request (R326) -/

def Core.preemptOf (k : Core) (ctx : Nat) : Preempt := k.preempt.get ctx .reset
def Core.modPreempt (k : Core) (ctx : Nat) (f : Preempt → Preempt) : Core := { k with preempt := k.preempt.set ctx (f (k.preemptOf ctx)) }

/-- The teams that a request to a context concerns: those of its team's cluster, or its own place alone. -/
def State.requestTeams (s : State) (core ctx : Nat) : List (Nat × Nat) :=
  if (s.team? core ctx).isNone then [(core, ctx)] else (s.cbarTeams core ctx).map fun m => (m.1, m.2.1)

/-- Whether an agent is a group of a team. -/
def State.ofTeam (s : State) (core ctx : Nat) (a : Agent) : Bool :=
  match a with
  | .group g => g.core == core && (s.slot? g).any fun t => t.ctx == ctx
  | _ => false

/-- The sleeping AWAITs of a team wake with 3 (R256). -/
def State.wakeTeam (s : State) (core ctx : Nat) : State :=
  s.slices.keys.foldl (fun s n => s.wakeAll n (fun w => s.ofTeam core ctx w.agent) 3) s

/-- One team has a request, and its deadline counter starts; a context without a team keeps the request for the team that comes
(DESIGN CHOICE: notes/assumptions). -/
def State.raiseOne (s : State) (core ctx : Nat) : State :=
  match s.team? core ctx with
  | none => s.modCore core fun k => k.modPreempt ctx fun p => { p with req := true }
  | some t =>
    if t.preq ∨ t.saving.isSome then s
    else
      let x := s.slice (sliceOf core)
      let s := s.modTeam core ctx fun t => { t with preq := true, deadline := some (x.cyc.toNat + x.fault.deadline.toNat) }
      s.wakeTeam core ctx

/-- A request to a team, and to every team of its cluster. -/
def State.raisePreq (s : State) (core ctx : Nat) : State :=
  (s.requestTeams core ctx).foldl (fun s p => s.raiseOne p.1 p.2) s

/-- A team's request ends before its save has begun: the counter stops and its parked groups go on. -/
def State.clearOne (s : State) (core ctx : Nat) : State :=
  match s.team? core ctx with
  | none => s.modCore core fun k => k.modPreempt ctx fun p => { p with req := false }
  | some t =>
    if t.saving.isSome then s
    else
      let s := s.modTeam core ctx fun t => { t with preq := false, deadline := none }
      ((s.core core).teamGroups core ctx).foldl (fun s p => s.modFibre p.1 fun f => { f with parked := none }) s

/-- REQ cleared for a team and for its cluster. -/
def State.clearPreq (s : State) (core ctx : Nat) : State :=
  (s.requestTeams core ctx).foldl (fun s p => s.clearOne p.1 p.2) s

/-- A request that was written while a context had no team is the request of the team that has come (DESIGN CHOICE: notes/assumptions). -/
def State.takeRequest (s : State) (core ctx : Nat) : State :=
  if ((s.core core).preemptOf ctx).req then
    (s.modCore core fun k => k.modPreempt ctx fun p => { p with req := false }).raisePreq core ctx
  else s

/-- Such requests of every team that is resident. -/
def State.takeRequests (s : State) : State :=
  s.cores.keys.foldl (fun s c => (s.core c).teams.keys.foldl (fun s ctx => s.takeRequest c ctx) s) s

/-- A write of %preq takes effect (R323, R326). -/
def State.settlePreq (s : State) (core : Nat) : State :=
  (List.range Config.contexts).foldl (fun s c => match (s.team? core c).bind Team.preqNext with
    | none => s
    | some b =>
      let s := s.modTeam core c fun t => { t with preqNext := none }
      if b then s.raisePreq core c else s.clearPreq core c) s

/-- PREEMPT_REQUEST (R326). -/
def execPreemptRequest (c : CtxRef) (s : State) : Outcome State Fault Refusal := .next (s.raisePreq c.core c.ctx)
/-- PREEMPT_CANCEL (R326). -/
def execPreemptCancel (c : CtxRef) (s : State) : Outcome State Fault Refusal := .next (s.clearPreq c.core c.ctx)

/-! ### The beginning of a save (R98, R300, R326, R328, R336) -/

/-- The unanswered records of a team are live no more, and are kept to be written afresh (R332, R336). -/
def State.keepRecords (s : State) (core ctx : Nat) : State :=
  let mine (r : LiveRec) : Bool := s.ofTeam core ctx r.agent || r.agent == .ctx ⟨core, ctx⟩
  let live := (s.slice (sliceOf core)).fault.live
  let s := s.modSlice (sliceOf core) fun x => { x with fault := { x.fault with live := live.filter fun r => !mine r } }
  (live.filter mine).foldl (fun s r =>
    let k := ({ r.full with reissued := true }, r.opId)
    match r.agent with
    | .group g => s.modFibre g fun f => { f with kept := f.kept ++ [k] }
    | .ctx c => s.modTeam c.core c.ctx fun t => { t with gen := { t.gen with kept := t.gen.kept ++ [k] } }
    | _ => s) s

/-- A context's wait is abandoned and its program counter is on the waiting instruction (R98). -/
def GenCtx.abandon (x : GenCtx) : GenCtx :=
  match x.run with
  | .waitOpen _ _ _ => { x with run := .ready 0 }
  | .waitIdle _ _ _ _ => { x with run := .ready 0 }
  | .waitCell _ _ => { x with run := .ready 0 }
  | .yielding _ => { x with run := .ready 0, pc := x.pc - 1 }
  | .skipTurn => { x with run := .ready 0, pc := x.pc - 1 }
  | _ => x

/-- A waiting ACQ or AWAIT is withdrawn, and is issued again on restore (R266, R328). -/
def Op.withdrawn (o : Op) : Op :=
  match o.instr with
  | .acq _ => if o.stage = 1 then { o with stage := 0 } else o
  | .await _ => if o.stage = 1 then { o with stage := 0 } else o
  | _ => o

/-- The save of one team begins: nothing of it issues any more, its records are stale, its waits are withdrawn, and its unstarted
matrix operations leave the queues. -/
def State.beginOne (s : State) (core ctx : Nat) (forced : Bool) (addr : Nat) (by_ : Option (GroupRef × Nat)) : State :=
  match s.team? core ctx with
  | none => s
  | some t =>
    if t.saving.isSome then s
    else
      let s := s.keepRecords core ctx
      let removed := (s.core core).subs.cells.flatMap fun p =>
        (p.2.matrix.filter fun o => o.ctx == ctx && o.started.isNone).map fun o => (p.1, o)
      let s := s.modCore core fun k =>
        { k with subs := k.subs.mapVals fun _ x => { x with matrix := x.matrix.filter fun o => !(o.ctx == ctx && o.started.isNone) } }
      let s := s.modTeam core ctx fun t => { t with gen := t.gen.abandon, saving := some ⟨forced, addr, by_, !forced, removed⟩ }
      let s := s.withdraw (.ctx ⟨core, ctx⟩)
      ((s.core core).teamGroups core ctx).foldl (fun s p =>
        (s.withdraw (.group p.1)).modFibre p.1 fun f => { f with ops := f.ops.map Op.withdrawn }) s

/-- Where a context's PREEMPT register sends its team's image. -/
def Core.saveAddr (k : Core) (ctx : Nat) : Nat := ((k.preemptOf ctx).save &&& ~~~4095#64).toNat

/-- The save of a team and of its cluster begins, each into its own save area. -/
def State.beginSave (s : State) (core ctx : Nat) (forced : Bool) : State :=
  (s.requestTeams core ctx).foldl (fun s p => s.beginOne p.1 p.2 forced ((s.core p.1).saveAddr p.2) none) s

/-- FORCE written (R318, R326): the bit is set, and the save of the context's team begins. It reads 1 until a save of the context's team
has ended (DESIGN CHOICE: notes/assumptions). -/
def State.forceSave (s : State) (core ctx : Nat) : State :=
  (s.modCore core fun k => k.modPreempt ctx fun p => { p with force := true }).beginSave core ctx true

/-- FORCE (R326). -/
def execForce (c : CtxRef) (s : State) : Outcome State Fault Refusal := .next (s.forceSave c.core c.ctx)

/-- Whether every live group of a team is parked. -/
def Core.allParked (c : Nat) (k : Core) (ctx : Nat) : Bool := (k.teamGroups c ctx).all fun p => p.2.2.parked.isSome

/-- Whether every live group of the teams that a request concerns is parked. -/
def State.allParked (s : State) (core ctx : Nat) : Bool := (s.requestTeams core ctx).all fun p => (s.core p.1).allParked p.1 p.2

/-- The deadline counter of a team has expired: its save is forced, unless every group is already parked, and then that was first
(R326, R339). -/
def State.expireDeadline (s : State) (core ctx : Nat) : State :=
  match (s.team? core ctx).bind Team.deadline with
  | some d => if d ≤ (s.slice (sliceOf core)).cyc.toNat then s.beginSave core ctx (!s.allParked core ctx) else s
  | none => s

/-- The deadlines of a slice's cores, as its reference clock ticks. -/
def State.expireDeadlines (s : State) (slice : Nat) : State :=
  (s.cores.keys.filter fun c => sliceOf c == slice).foldl (fun s c =>
    (s.core c).teams.keys.foldl (fun s ctx => s.expireDeadline c ctx) s) s

/-- DEADLINE_EXPIRY (R326). -/
def execDeadlineExpiry (c : CtxRef) (s : State) : Outcome State Fault Refusal := .next (s.expireDeadline c.core c.ctx)

/-- PARKED_SAVE (R326, R327): every live group of a requested team, and of its cluster, is parked. -/
def execParkedSave (c : CtxRef) (s : State) : Outcome State Fault Refusal :=
  match s.team? c.core c.ctx with
  | none => .next s
  | some t =>
    if t.preq && t.saving.isNone && s.allParked c.core c.ctx then
      .next (s.beginSave c.core c.ctx false)
    else .next s

/-- Whether nothing of a team that a save lets complete is still in flight (R98, R279, R300, R328). -/
def State.quiesced (s : State) (core ctx : Nat) : Bool :=
  let k := s.core core
  match k.teams.find ctx with
  | none => false
  | some t =>
    t.gen.queue.isEmpty && t.entryNext.isEmpty && !t.gen.busy
      && (match t.gen.run with
          | .ready _ | .frozen | .exited => true
          | _ => false)
      && (k.teamGroups core ctx).all (fun p => p.2.2.results.isEmpty && !p.2.2.aborting && p.2.2.ops.all fun o => match o.instr with
          | .spawn _ => false
          | _ => true)
      && k.subs.vals.all (fun x => x.matrix.all (fun o => o.ctx != ctx)
          && x.late.all (fun r => r.ctx != ctx) && x.sfu.all fun o => (x.slots.find o.slot).all fun t => t.ctx != ctx)
      && k.copies.all fun o => o.ctx != ctx || (o.sent.isEmpty && o.streams.all fun t => t.ftag.isSome || t.fail.isNone)

/-- FORCED_SAVE (R328): when what it lets complete has completed, the team's state is captured. -/
def execForcedSave (c : CtxRef) (s : State) : Outcome State Fault Refusal :=
  match (s.team? c.core c.ctx).bind Team.saving with
  | none => .next s
  | some v =>
    if v.forced && !v.captured && s.quiesced c.core c.ctx then
      let s := s.keepRecords c.core c.ctx
      .next (s.modTeam c.core c.ctx fun t => { t with saving := t.saving.map fun v => { v with captured := true } })
    else .next s

/-! ### What an image holds (R98, R279, R300, R327, R328) -/

/-- A place of a bank by its place in a slot's allocation. -/
def relPlace (units : List Nat) (p : Place) : Place :=
  match p with
  | .bank i => match units.findIdx? (· == i / 32) with
    | some j => .bank (j * 32 + i % 32)
    | none => .drop
  | p => p
/-- A place in a slot's allocation as a place of the bank. -/
def absPlace (units : List Nat) (p : Place) : Place :=
  match p with
  | .bank i => .bank (units.getD (i / 32) 0 * 32 + i % 32)
  | p => p

def Op.mapDest (o : Op) (u : Place → Place) : Op := { o with dest := o.dest.map u }
def MatOp.mapDest (o : MatOp) (u : Place → Place) : MatOp := { o with dest := o.dest.map u }

/-- The registers of an allocation that a parked fibre's live windows map (R327). -/
def Fibre.liveRegs (f : Fibre) : List Nat :=
  match f.parked with
  | none => []
  | some live => f.windows.zipIdx.flatMap fun w =>
      if live.getLsbD w.2 then (List.range (w.1.len * 32)).map (w.1.pb * 32 + ·) else []

/-- A group as an image holds it. -/
def Fibre.image (f : Fibre) (units : List Nat) : Fibre :=
  { f with
    parked := none, lastIssue := none, earliest := 0, fell := []
    ops := f.ops.map fun o => o.mapDest (relPlace units) }

/-- A slot as an image holds it. -/
def Slot.image (t : Slot) (x : Sub) (forced : Bool) : SlotImage :=
  let live := t.fibres.vals.flatMap Fibre.liveRegs
  let saved := (List.range (t.units.length * 32)).filter fun i => forced || live.contains i
  { units := t.units.length
    slot := { t with units := [], lastIssue := none, wait := 0, passing := false, stalled := false, fibres := t.fibres.mapVals fun _ f => f.image t.units }
    regs := ⟨saved.filterMap fun i => (x.bank.find (t.physical i)).map fun r => (i, r)⟩ }

/-- The slots of a context on a sub-partition, rising. -/
def Sub.slotsOf (x : Sub) (ctx : Nat) : List (Nat × Slot) := x.slots.cells.filter fun p => p.2.ctx == ctx

/-- A map that nothing has reserved. -/
def OpMap.none : OpMap := ⟨false, 0, 0, false, 0, 0, 0, 0, 0, 0, 0⟩

/-- What a team holds on a sub-partition as an image holds it; removed are its unstarted matrix operations there. -/
def Sub.image (x : Sub) (ctx : Nat) (forced : Bool) (removed : List MatOp) : SubImage :=
  let ss := x.slotsOf ctx
  let tiles := ownedBy x.tileOwner ctx
  { slots := ss.map fun p => p.2.image x forced
    tiles := tiles.map x.tile
    maps := (ownedBy x.mapOwner ctx).map fun n => x.maps.get n .none
    matrix := removed.map fun o =>
      { o.mapDest (relPlace (((x.slots.find o.slot).map Slot.units).getD [])) with
        slot := (ss.findIdx? fun p => p.1 == o.slot).getD 0, tile := (tiles.findIdx? (· == o.tile)).getD 0, reads := [], asked := none } }

/-- The sub-partitions on which a context holds slots. -/
def Core.subsOf (k : Core) (ctx : Nat) : List (Nat × Sub) := k.subs.cells.filter fun p => !(p.2.slotsOf ctx).isEmpty

/-- The blocks of a team's image: those in which a group's program counter lies, that an entry references, or that is open (R98). -/
def Core.imageBlocks (c : Nat) (k : Core) (ctx : Nat) (t : Team) : List BlockImage :=
  let used (n : Nat) : Bool := ((k.teamGroups c ctx).any fun p => handleBlock p.2.2.handle == n) || t.references n || t.gen.opened == some n
  (k.blocks.cells.filter fun p => used p.1).map fun p => ⟨p.1, k.gen p.1, p.2, (List.range p.2.len).map (k.blockWord p.2)⟩

/-- The bytes of a team's scratchpad range by offset. -/
def Core.imageScratch (k : Core) (t : Team) : SMap Byte :=
  k.scratch.cells.foldl (fun m p => match t.granules.findIdx? (· == p.1 / 131072) with
    | some i => if i * 131072 + p.1 % 131072 < t.desc.scratch then m.set (i * 131072 + p.1 % 131072) p.2 else m
    | none => m) .empty

/-- A copy as an image holds it. -/
def CopyOp.image (o : CopyOp) (subs : List (Nat × Sub)) : CopyOp :=
  let i := (subs.findIdx? fun p => p.1 == o.g.sub).getD 0
  let j := ((subs.find? fun p => p.1 == o.g.sub).bind fun p => (p.2.slotsOf o.ctx).findIdx? fun q => q.1 == o.g.slot).getD 0
  { o with g := ⟨0, i, j, o.g.fib⟩, working := false, waitPages := [], walkFaults := [] }

/-- The team as an image holds it. -/
def Team.saved (t : Team) : Team :=
  let gen := { t.gen with waitPage := none, walkFaults := [], run := match t.gen.run with
    | .exited => .exited
    | .frozen => .frozen
    | _ => .ready 0 }
  { t with gen := gen, granules := [], preq := false, preqNext := none, deadline := none, saving := none, holdIssue := false }

/-- The image of a team whose save has captured it. -/
def State.image (s : State) (core ctx : Nat) (t : Team) (v : Saving) : TeamImage :=
  let k := s.core core
  let subs := k.subsOf ctx
  { forced := v.forced, team := t.saved
    subs := subs.map fun p => p.2.image ctx v.forced ((v.removed.filter fun o => o.1 == p.1).map (·.2))
    scratch := k.imageScratch t
    copies := (k.copies.filter fun o => o.ctx == ctx).map fun o => o.image subs
    blocks := k.imageBlocks core ctx t }

/-! ### The image's bytes (R330, R331) -/

/-- The most bytes of a body: a save area holds 16 MiB + 64 KiB. -/
def bodyMax : Nat := 16 * 2 ^ 20 + 64 * 2 ^ 10 - 256

/-- FLAGS of a descriptor. -/
def Desc.flags (d : Desc) : Nat := d.prio + (if d.sup then 4 else 0) + (if d.pin then 8 else 0)

/-- SHAPE: bytes 16-63 of a launch descriptor, of which the last eight are zero (R315, R330). -/
def Desc.shape (d : Desc) : List Byte :=
  leBytes 8 d.grid.toNat ++ leBytes 2 d.maxgrp ++ leBytes 1 d.slots ++ leBytes 1 d.alloc ++ leBytes 4 d.scratch ++ leBytes 1 d.nt
    ++ leBytes 1 d.nm ++ leBytes 1 d.cluster ++ leBytes 1 (d.ch * 16 + d.cw) ++ leBytes 1 d.flags ++ leBytes 1 d.world ++ [0#8, 0#8]
    ++ leBytes 8 d.pgt.toNat ++ leBytes 8 d.cond.toNat ++ List.replicate 8 0#8

/-- Bytes 0-63 of an image's header. -/
def imageHead (img : TeamImage) (size : Nat) (tenant period : Word) (nonce : BitVec 96) : List Byte :=
  let t := img.team
  let flags := (if t.desc.world = 0 then 0 else 1) + (if img.forced then 2 else 0) + (if t.cluster.isSome then 4 else 0)
  leBytes 4 0x54485349 ++ leBytes 2 1 ++ leBytes 2 flags ++ leBytes 4 size ++ leBytes 1 t.desc.world ++ [0#8] ++ leBytes 2 t.asid.toNat
    ++ leBytes 8 t.desc.root.toNat ++ leBytes 8 t.desc.image.toNat ++ leBytes 4 t.index ++ leBytes 1 t.launch ++ leBytes 1 t.clrank
    ++ [0#8, 0#8] ++ leBytes 4 tenant.toNat ++ leBytes 4 period.toNat ++ leBytes 12 nonce.toNat ++ leBytes 4 0

/-- The package-wide sealing counter moves on; its mark is recorded before a value beyond it is used (R371). -/
def Markhor.sealed (m : Markhor) : Markhor :=
  { m with sealCtr := m.sealCtr + 1, sealMark := if m.sealCtr < m.sealMark then m.sealMark else m.sealMark + 2 ^ 20 }

/-- The nonce of a sealing by a core (R330, R371). -/
def Markhor.nonce (m : Markhor) (core : Nat) : BitVec 96 := BitVec.ofNat 96 (core * 2 ^ 64 + m.provIndex.toNat * 2 ^ 44 + m.sealCtr % 2 ^ 44)

/-- The ciphertext and tag of a body of an image: as long as the body. -/
def sealBody (key : BitVec 256) (nonce : BitVec 96) (aad body : List Byte) : List Byte × BitVec 128 :=
  let r := Config.gcmSeal key nonce aad body
  ((List.range body.length).map fun i => r.1.getD i 0#8, r.2)

/-- The bytes of an image: sealed for worlds 1-15, plain for world 0, where TENANT, PERIOD and NONCE are not stated (free). -/
def State.imageBytes (s : State) (core : Nat) (img : TeamImage) : List Byte × State :=
  let body := (Config.imageBody img).take bodyMax
  let size := 256 + body.length
  let s := { s with bodies := (body, img) :: s.bodies }
  let tail := img.team.desc.shape ++ List.replicate 128 0#8
  if img.team.desc.world = 0 then
    let a := s.freeDWord
    let b := a.2.freeDWord
    let c := b.2.fresh
    let head := imageHead img size (a.1.extractLsb' 0 32) (a.1.extractLsb' 32 32) (Config.freeWord c.1 ++ b.1)
    (head ++ List.replicate 16 0#8 ++ tail ++ body, c.2)
  else
    let b := s.binding img.team.part img.team.desc.world
    let nonce := s.markhor.nonce core
    let head := imageHead img size b.1 b.2 nonce
    let r := sealBody (s.sealKey b) nonce (head ++ tail) body
    (head ++ leBytes 16 r.2.toNat ++ tail ++ r.1, { s with markhor := s.markhor.sealed })

/-! ### The end of a save (R329, R333) -/

/-- Whether the way of a core's write to one of some physical pieces is not open: such a write waits (R411, R414). -/
def State.anyWaits (s : State) (core : Nat) (l : List (Nat × Nat)) : Bool := l.any fun p => !s.wayOpen core (p.1 / 128)

/-- Bytes written at physical pieces in order, at their home banks; a piece in no valid region takes none, and is logged, and a line's
part of a piece that holds bytes of a launch word is not written and is counted there (R254). -/
def State.writePieces (s : State) (core part : Nat) (owner : BitVec 12) : List (Nat × Nat) → List Byte → State
  | [], _ => s
  | p :: r, bs =>
    let here := bs.take p.2
    let s :=
      if s.way (sliceOf core) part p.1 = .refused then s.refuseAccess core 1 p.1
      else (List.range ((p.1 + p.2 - 1) / 128 - p.1 / 128 + 1)).foldl (fun s i =>
        let line := p.1 / 128 + i
        let cells := here.zipIdx.filterMap fun b => if (p.1 + b.2) / 128 = line then some ((p.1 + b.2) % 128, b.1) else none
        let lo := max p.1 (line * 128)
        match s.partLaunches part lo (min (p.1 + p.2) (line * 128 + 128) - lo) with
        | [] => s.bankWrite part line cells owner
        | ws => ws.foldl (fun s w => s.refuseLaunch part w.1 w.2) s) s
    s.writePieces core part owner r (bs.drop p.2)

/-- The notice of a save (R329). -/
def Team.notice (t : Team) (core ctx : Nat) (forced : Bool) (addr size : Nat) : Rec :=
  { Rec.blank with
    cause := if forced then 0x71#8 else 0x70#8, info := true, place := placeOfCtx ⟨core, ctx⟩, address := BitVec.ofNat 64 addr,
    world := t.desc.world, asid := t.asid, launch := BitVec.ofNat 8 t.launch, team := BitVec.ofNat 32 t.index,
    detail := BitVec.ofNat 64 size }

/-- The image has been written: the team's resources and context are free and the notice is posted; a CTXSAVE completes. The blocks that
the team leaves behind on the core are released as at its retirement (R82): which a save releases is not stated (DESIGN CHOICE:
notes/assumptions). What the team's cluster keeps of it are its live groups, for its barriers (R250). -/
def State.endSave (s : State) (core ctx : Nat) (t : Team) (v : Saving) (size : Nat) : State :=
  let live := (s.core core).liveGrps core ctx
  let s := s.modCluster t fun c => { c with saved := c.saved.set t.clrank live }
  let s := s.modCore core fun k =>
    let k := (k.discardOpen ctx).modPreempt ctx fun p => { p with force := false }
    { k with copies := k.copies.filter fun o => o.ctx != ctx }.freeTeam ctx
  let s := s.postRecord (sliceOf core) (t.notice core ctx v.forced v.addr size)
  match v.byGroup with
  | some (g, id) => s.modFibre g fun f => f.modOp id fun o => { o with stage := 2, value := 0 }
  | none => s

/-- The leader lane of an operation fails a check of a page: it is held, the fibre freezes, and a record is written (R230, R231). -/
def State.holdLeader (s : State) (v : View) (o : Op) (cause : Byte) (page : DWord) : State :=
  if o.held ≠ 0#32 ∨ v.fib.aborting then s
  else
    let m : Mask := 1#32 <<< o.leader
    let s := s.modFibre v.g fun f => f.modOp o.id fun p => { p with held := m }
    let s := s.dropFailing v page cause
    s.takeFaultS v { v.faultAt cause (opSub o.instr).1 (opSub o.instr).2 m o.leader with
      prov := o.prov, pc := codeAddress o.handle o.offset, address := page, opId := o.id }

/-- The pieces of physical memory of a range of an operation's group, when every page passes; else its fault, or a walk. -/
def State.rangeOf (s : State) (v : View) (o : Op) (write : Bool) (n : Nat) (k : List (Nat × Nat) → State) : State :=
  match s.checkPieces v o (!write) write (rangePieces (o.addr o.leaderLane).toNat n) with
  | .fault c p => s.holdLeader v o c p
  | .miss p => s.startWalk v p
  | .ready l => k l

/-- SAVE_COMPLETE (R329, R333, R337): the release action, the image's bytes, then the end of the save; it waits for a place for its
notice. A CTXSAVE's image goes to its issuer's virtual address, and a page that fails freezes the issuer. -/
def execSaveComplete (c : CtxRef) (s : State) : Outcome State Fault Refusal :=
  let start := s
  match s.team? c.core c.ctx with
  | none => .next s
  | some t => match t.saving with
    | none => .next s
    | some v =>
      if !v.captured || !s.quiesced c.core c.ctx || !s.recordRoom (sliceOf c.core) || s.cacheStuck c.core then .next s
      else
        let s := s.keepRecords c.core c.ctx
        let s := s.releaseCache c.core
        let t := (s.team? c.core c.ctx).getD t
        let r := s.imageBytes c.core (s.image c.core c.ctx t v)
        match v.byGroup with
        | none =>
          let l := (rangePieces v.addr r.1.length).map fun p => (p.1.toNat, p.2)
          if s.anyWaits c.core l then .next start
          else .next ((r.2.writePieces c.core t.part t.asid l r.1).endSave c.core c.ctx t v r.1.length)
        | some (g, id) => match s.view g with
          | none => .next s
          | some iv => match iv.fib.op? id with
            | none => .next s
            | some o => .next (s.rangeOf iv o true r.1.length fun l =>
                if s.anyWaits c.core l then start else (r.2.writePieces c.core t.part iv.team.asid l r.1).endSave c.core c.ctx t v r.1.length)

/-! ### Restoring a team (R99, R334) -/

/-- An image's header, as CTXLOAD reads it. -/
structure ImageHeader where
  flags  : Nat
  size   : Nat
  world  : Nat
  tenant : Word
  period : Word
  nonce  : BitVec 96
  tag    : BitVec 128
  aad    : List Byte
  deriving DecidableEq, Repr

/-- The header of 256 bytes, none when MAGIC, VERSION, a zero field or WORLD without SEALED is wrong (status 3). -/
def parseImage (bs : List Byte) : Option ImageHeader :=
  let f (o n : Nat) : Nat := leNat ((bs.drop o).take n)
  let flags := f 6 2
  if bs.length ≠ 256 ∨ f 0 4 ≠ 0x54485349 ∨ f 4 2 ≠ 1 ∨ flags / 8 ≠ 0 ∨ f 13 1 ≠ 0 ∨ f 14 2 / 2 ^ 12 ≠ 0 ∨ f 38 2 ≠ 0 ∨ f 60 4 ≠ 0
      ∨ f 128 128 ≠ 0 ∨ f 12 1 > 15 ∨ (f 12 1 ≠ 0 ∧ flags % 2 = 0) ∨ f 8 4 < 256 ∨ bodyMax + 256 < f 8 4 then none
  else
    some ⟨flags, f 8 4, f 12 1, BitVec.ofNat 32 (f 40 4), BitVec.ofNat 32 (f 44 4), BitVec.ofNat 96 (f 48 12),
      BitVec.ofNat 128 (f 64 16), bs.take 64 ++ bs.drop 80⟩

/-- What a body holds: as a save of this run wrote it, else as the device reads it (free). -/
def State.bodyImage (s : State) (body : List Byte) : Option TeamImage :=
  match s.bodies.find? fun b => b.1 == body with
  | some b => some b.2
  | none => Config.imageOf body

/-- The plaintext of a sealed body, none when its tag does not agree: as a save of this run sealed it, else as AES-256-GCM opens it. -/
def State.openBody (s : State) (h : ImageHeader) (text : List Byte) : Option (List Byte) :=
  let key := s.sealKey (h.tenant, h.period)
  match s.bodies.find? fun b => decide (sealBody key h.nonce h.aad b.1 = (text, h.tag)) with
  | some b => some b.1
  | none => Config.gcmOpen key h.nonce h.aad text h.tag

/-- The image of a whole text, or the status of its failing check: 3 for the header, 2 for the seal (R334). -/
def State.checkImage (s : State) (part : Nat) (bs : List Byte) : Except Nat (ImageHeader × TeamImage) :=
  match parseImage (bs.take 256) with
  | none => .error 3
  | some h =>
    if bs.length < h.size then .error 3
    else
      let text := (bs.take h.size).drop 256
      let body : Except Nat (List Byte) := if h.flags % 2 = 0 then .ok text
        else if s.binding part h.world ≠ (h.tenant, h.period) then .error 2
        else match s.openBody h text with
          | some b => .ok b
          | none => .error 2
      match body with
      | .error e => .error e
      | .ok b => match s.bodyImage b with
        | some img => .ok (h, img)
        | none => .error 3

/-- A register as a restore leaves it: no register holds a reserved tag, 16 to 31, so that one of an image becomes RAW (R43, R44). -/
def Reg.held (r : Reg) : Reg := if 16 ≤ r.tag.toNat ∧ r.tag.toNat ≤ 31 then { r with tag := tagRaw } else r

/-- A slot of an image restored on a sub-partition: its registers, and zero with tag RAW in every other of the allocation (R327). -/
def Sub.restoreSlot (x : Sub) (ctx clock : Nat) (img : SlotImage) : Option (Sub × Nat) :=
  match x.reserve ctx img.units with
  | none => none
  | some (x, n) => match x.slots.find n with
    | none => none
    | some t =>
      let bank := (List.range (img.units * 32)).foldl (fun m i => m.set (t.physical i) (img.regs.get i Reg.zero).held) x.bank
      let fibres := img.slot.fibres.mapVals fun _ f =>
        { f with earliest := clock + 1, fell := [], ofile := f.ofile.mapVals fun _ r => r.held, y0 := f.y0.held, y1 := f.y1.held,
                 ops := f.ops.map fun o => { o.mapDest (absPlace t.units) with issued := clock, walkFaults := [] } }
      some ({ x with bank := bank, slots := x.slots.set n { img.slot with ctx := ctx, units := t.units, fibres := fibres } }, n)

/-- The slots of an image in order, with the numbers they take. -/
def Sub.restoreSlots (x : Sub) (ctx clock : Nat) : List SlotImage → Option (Sub × List Nat)
  | [] => some (x, [])
  | i :: r => match x.restoreSlot ctx clock i with
    | none => none
    | some (x, n) => (x.restoreSlots ctx clock r).map fun p => (p.1, n :: p.2)

/-- The unstarted matrix operations of an image queued ahead of any new issue of the team (R300). -/
def Sub.requeue (x : Sub) (ctx clock : Nat) (t : Team) (slots tiles : List Nat) (os : List MatOp) : Sub :=
  os.foldl (fun x o =>
    let slot := slots.getD o.slot 0
    let units := ((x.slots.find slot).map Slot.units).getD []
    let o := { o.mapDest (absPlace units) with seq := x.matSeq, slot := slot, ctx := ctx, tile := tiles.getD o.tile 0, issued := clock }
    let o := if o.isProduct then { o with reads := o.readSet t } else o
    { x with matrix := x.matrix ++ [o], matSeq := x.matSeq + 1 }) x

/-- What an image holds of one sub-partition restored on another, with the numbers of its slots (R334). -/
def Sub.restore (x : Sub) (ctx clock : Nat) (t : Team) (img : SubImage) : Option (Sub × List Nat) :=
  if x.slots.vals.any fun t => t.ctx == ctx then none
  else match x.claim t.desc.world ctx t.desc.nt t.desc.nm with
    | none => none
    | some x => match x.restoreSlots ctx clock img.slots with
      | none => none
      | some (x, ns) =>
        let tiles := ownedBy x.tileOwner ctx
        let x := { x with
          tiles := (tiles.zip img.tiles).foldl (fun m (p : Nat × List Lanes) => m.set p.1 p.2) x.tiles
          maps := ((ownedBy x.mapOwner ctx).zip img.maps).foldl (fun m (p : Nat × OpMap) => m.set p.1 p.2) x.maps }
        some (x.requeue ctx clock t ns tiles img.matrix, ns)

/-- A sub-partition's image restored on the lowest-numbered sub-partition that has room: its number and its slots'. -/
def Core.restoreSub (k : Core) (ctx : Nat) (t : Team) (img : SubImage) : Option (Core × Nat × List Nat) :=
  (List.range Config.subsPerCore).findSome? fun i => ((k.sub i).restore ctx k.clock t img).map fun r => (k.setSub i r.1, i, r.2)

/-- Images by falling need of slots, each with its place, so that the ones hardest to place go first. -/
def byNeed (l : List (Nat × SubImage)) : List (Nat × SubImage) :=
  (List.range 5).flatMap fun i => l.filter fun p => p.2.slots.length == 4 - i

/-- Every sub-partition's image restored: where each went. -/
def Core.restoreSubs (k : Core) (ctx : Nat) (t : Team) : List (Nat × SubImage) → Option (Core × List (Nat × Nat × List Nat))
  | [] => some (k, [])
  | p :: r => match k.restoreSub ctx t p.2 with
    | none => none
    | some (k, i, ns) => (k.restoreSubs ctx t r).map fun q => (q.1, (p.1, i, ns) :: q.2)

/-- A block of an image installed at its number and generation, unregistered, where its granules fit (R99); a supervisor block that the
core already holds serves in its place (R334). -/
def Core.installBlock (k : Core) (ctx : Nat) (i : BlockImage) : Option Core :=
  match k.blocks.find i.number with
  | some b =>
    if b.sup && i.block.sup && b.st != .opened && i.block.st != .opened && k.gen i.number == i.gen && b.len == i.block.len
        && ((List.range b.len).map fun n => (k.blockWord b n).word) == i.words.map EmitWord.word then some k
    else none
  | none => (k.freeRun i.block.granules).map fun base =>
      let b := { i.block with base := base, key := 0#64, sealer := ctx }
      { k with
        blocks := k.blocks.set i.number b, blockGen := k.blockGen.set i.number i.gen
        store := i.words.zipIdx.foldl (fun m w => m.set (base * 64 + w.2) w.1) k.store }

def Core.installBlocks (k : Core) (ctx : Nat) : List BlockImage → Option Core
  | [] => some k
  | i :: r => match k.installBlock ctx i with
    | some k => k.installBlocks ctx r
    | none => none

/-- A core with a team installed, and where each of its sub-partitions' images went; none when a resource is not free (status 1). -/
def Core.restoreTeam (k : Core) (part : Nat) (img : TeamImage) (hold : Bool) : Option (Core × Nat × List (Nat × Nat × List Nat)) :=
  match k.freeCtx with
  | none => none
  | some ctx => match k.takeGranules ctx img.team.desc.world img.team.desc.scratch with
    | none => none
    | some (k, gs) =>
      let gen := { img.team.gen with waitPage := none, walkFaults := [], run := if img.team.gen.run = .ready 0 then .ready (k.clock + 1) else img.team.gen.run }
      let t := { img.team with gen := gen, part := part, granules := gs, holdIssue := hold }
      match k.restoreSubs ctx t (byNeed (img.subs.zipIdx.map fun p => (p.2, p.1))) with
      | none => none
      | some (k, at_) => match k.installBlocks ctx img.blocks with
        | none => none
        | some k =>
          let k := { k with
            teams := k.teams.set ctx t
            scratch := img.scratch.cells.foldl (fun m b => match t.scratchAt b.1 1 with
              | some p => m.set p b.2
              | none => m) k.scratch }
          some (k, ctx, at_)

/-- The group that a copy of an image names. -/
def restoredGroup (core : Nat) (at_ : List (Nat × Nat × List Nat)) (g : GroupRef) : GroupRef :=
  match at_.find? fun p => p.1 == g.sub with
  | some p => ⟨core, p.2.1, p.2.2.getD g.slot 0, g.fib⟩
  | none => ⟨core, 0, 0, g.fib⟩

/-- The copies of an image enter the core's engine in their order (R279). -/
def Core.restoreCopies (k : Core) (core ctx : Nat) (at_ : List (Nat × Nat × List Nat)) (os : List CopyOp) : Core :=
  os.foldl (fun k o => { k with copies := k.copies ++ [{ o with id := k.copyId, issued := k.clock, g := restoredGroup core at_ o.g, ctx := ctx }],
                                copyId := k.copyId + 1 }) k

/-- The kept records of a group written afresh, with its new place (R332), and the tags that they had and have, each with its operation. -/
def State.rewriteGroup (s : State) (g : GroupRef) (grp ctx : Nat) (kept : List (Rec × Nat)) : State × List (Nat × BitVec 16 × BitVec 16) :=
  kept.foldl (fun q r =>
    let tag := (q.1.slice (sliceOf g.core)).fault.nextTag
    (q.1.postAnswerable (sliceOf g.core) { r.1 with place := placeOfGroup g grp ctx } (.group g) r.2, q.2 ++ [(r.2, r.1.ftag, tag)])) (s, [])

/-- A part of a copy that a record held is held by the record that has come in its place. -/
def CopyOp.retag (o : CopyOp) (tags : List (Nat × BitVec 16 × BitVec 16)) : CopyOp :=
  { o with streams := o.streams.map fun t => match tags.find? fun x => x.1 == o.opId && t.ftag == some x.2.1 with
    | some x => { t with ftag := some x.2.2 }
    | none => t }

/-- The kept records of a restored team (R332). -/
def State.rewriteRecords (s : State) (core ctx : Nat) : State :=
  let s := ((s.core core).teamGroups core ctx).foldl (fun s p =>
    let q := s.rewriteGroup p.1 p.2.2.grp ctx p.2.2.kept
    let s := q.1.modCore core fun k => { k with copies := k.copies.map fun o => if o.g = p.1 then o.retag q.2 else o }
    s.modFibre p.1 fun f => { f with frozen := f.frozen || !f.kept.isEmpty, kept := [] }) s
  match s.team? core ctx with
  | none => s
  | some t =>
    let s := t.gen.kept.foldl (fun s r =>
      s.postAnswerable (sliceOf core) { r.1 with place := placeOfCtx ⟨core, ctx⟩ } (.ctx ⟨core, ctx⟩) r.2) s
    s.modTeam core ctx fun t => { t with gen := { t.gen with kept := [] } }

/-- Whether a core is where a cluster's rectangle puts a rank, given the members that are resident: the rectangle lies in the mesh, on
cores of the partition. -/
def State.rectangleOk (s : State) (core part : Nat) (t : Team) : Bool :=
  match t.cluster with
  | none => true
  | some (_, n) =>
    let cw := t.desc.cw
    let m := meshOf core
    let own := (t.clrank % cw, t.clrank / cw)
    if m.1 < own.1 ∨ m.2 < own.2 then false
    else
      let nw := (m.1 - own.1, m.2 - own.2)
      (List.range n).all (fun c => (clusterCore nw.1 nw.2 cw c).any fun q => (s.slice (sliceOf q)).part == some part)
        && (s.clusterTeams t).all fun q => q.2.2.clrank == t.clrank || clusterCore nw.1 nw.2 cw q.2.2.clrank == some q.1

/-- A cluster whose every member is resident or has retired issues again (R334). -/
def State.releaseCluster (s : State) (t : Team) : State :=
  match t.cluster with
  | none => s
  | some (_, n) =>
    let ms := s.clusterTeams t
    if (List.range n).all fun c => (s.clusterOf t).retired.contains c || ms.any fun m => m.2.2.clrank == c then
      ms.foldl (fun s m => s.modTeam m.1 m.2.1 fun t => { t with holdIssue := false }) s
    else s

/-- A team restored on a core: the status and the state after (R334). Placement alone asks whether a slice is closed by a LEAVE under way
(R21); a restore goes by its own checks (DESIGN CHOICE: notes/assumptions). A core that is lost without a spare takes no team (R410), and a
cluster whose last member has come may complete its barriers (R250). -/
def State.restoreImage (s : State) (core part : Nat) (img : TeamImage) : Nat × State :=
  if !s.rectangleOk core part img.team then (4, s)
  else if (s.core core).retired then (1, s)
  else match (s.core core).restoreTeam part img img.team.cluster.isSome with
    | none => (1, s)
    | some (k, ctx, at_) =>
      let s := s.setCore core (k.restoreCopies core ctx at_ img.copies)
      let s := s.acquireAll core
      let s := s.modCluster img.team fun c => { c with saved := c.saved.erase img.team.clrank }
      let s := s.rewriteRecords core ctx
      (0, ((s.releaseCluster img.team).settleCbars core ctx).takeRequest core ctx)

end Sys2Proof.Machine
end

