-- ==== Sys2Proof/Machine/System.lean ====
section
/-!
DEFINITION. The system and trap class (R312-R334): system calls, traps and breakpoints, special registers, INTR, PSAVE, CTXSAVE,
CTXLOAD and TLBINV, and the completion of those that a counter tracks.
-/

namespace Sys2Proof.Machine

open Host (Outcome)

/-- A privileged form: in user mode it is an illegal instruction (R48). -/
def State.privileged (s : State) (i : Instr) (k : Outcome State Fault Refusal) : Outcome State Fault Refusal :=
  match s.curView with
  | none => .fault .noAgent
  | some v => if v.fib.sup then k else .next (s.faultWord v i causeIllegal v.fib.exm)

/-! ### System calls (R318-R320) -/

/-- The target of handler n of a core, checked as R319 gives, or the fault's cause. -/
def Core.handler (k : Core) (n : Nat) (o : Owner) : Except Byte (BitVec 12 × Nat) :=
  let e := k.sysvec.get n ⟨false, 0#24⟩
  let userBlock := (k.current (e.target.extractLsb' 0 12)).any fun b => b.st == .sealed && !b.sup
  if !e.valid || userBlock then .error causePrivilege else k.checkTarget o true (e.target.setWidth 32) 0

/-- The group enters a handler for one lane: that lane alone is in %exm and the mode is supervisor. -/
def Fibre.enter (f : Fibre) (c : SysCtx) (l : Fin 32) (h : BitVec 12) (off clock : Nat) : Fibre :=
  { f.jump h off clock with
    sysc := some { c with rest := c.rest &&& ~~~(1#32 <<< l.val) }
    exm := 1#32 <<< l.val
    gst := withMode f.gst true }

/-- SYSC (R319): held until every counter is zero. -/
def execSysc (f : Fields) (s : State) : Outcome State Fault Refusal :=
  s.withSources (.sysc f) f [] fun v act _ fl =>
    let i := Instr.sysc f
    if !v.fib.countersZero then .next s
    else if act = 0#32 then .next (s.issueFlags v i fl)
    else if v.fib.sysc.isSome then .next (s.faultTransfer v i causePrivilege)
    else
      let n := (f.imm20 &&& 0xFF#20).toNat
      match v.core.handler n v.team.owner with
      | .error c => .next (s.faultTransfer v i c)
      | .ok (h, off) =>
        let c : SysCtx := ⟨v.fib.handle, v.fib.off + 1, v.fib.exm, v.fib.sup, n, act⟩
        .next ((s.issueFlags v i fl).modFibre v.g fun b => b.enter c (lowestLane act) h off (v.core.clock + 3))

/-- The return from a system call as a transfer to the word after it (R320): its target, or the fault's cause. -/
def View.sysReturn (v : View) (c : SysCtx) : Except Byte (BitVec 12 × Nat) :=
  if 4095 < c.retOff then .error causeStale else v.core.checkTarget v.team.owner c.mode (codeAddress c.retHandle c.retOff) 0

/-- RETS (R320): the next lane's run of the handler, or the end of the system call. -/
def execRets (f : Fields) (s : State) : Outcome State Fault Refusal :=
  s.privileged (.rets f) <| s.withSources (.rets f) f [] fun v _ _ fl =>
    let i := Instr.rets f
    match v.fib.sysc with
    | none => .next (s.faultTransfer v i causePrivilege)
    | some c =>
      if !v.fib.countersZero then .next s
      else if c.rest ≠ 0#32 then
        match v.core.handler c.n v.team.owner with
        | .error e => .next (s.faultTransfer v i e)
        | .ok (h, off) => .next ((s.issueFlags v i fl).modFibre v.g fun b => b.enter c (lowestLane c.rest) h off (v.core.clock + 3))
      else
        match v.sysReturn c with
        | .error e => .next (s.faultTransfer v i e)
        | .ok (h, off) => .next ((s.issueFlags v i fl).modFibre v.g fun b =>
            { b.jump h off (v.core.clock + 3) with sysc := none, exm := c.exm, gst := withMode b.gst c.mode })

/-! ### Traps and breakpoints (R321) -/

/-- TRAP and BRK: the word issues, and with an active lane its fault is taken; the group goes on at the next word after RESUME. -/
def State.trapWord (s : State) (v : View) (i : Instr) (act : Mask) (fl : Word) (cause : Byte) (code : Word) : State :=
  let s := s.issueFlags v i fl
  if act = 0#32 then s
  else s.takeFaultS v { v.faultAt cause (opSub i).1 (opSub i).2 act (lowestLane act).val with detail := code.setWidth 64 }

/-- TRAP with an immediate code (R321). -/
def execTrap (f : Fields) (s : State) : Outcome State Fault Refusal :=
  s.withSources (.trap f) f [] fun v act _ fl => .next (s.trapWord v (.trap f) act fl 0x60#8 (f.imm20.setWidth 32))
/-- TRAP with its code in the leader lane of A (R321). -/
def execTrapReg (f : Fields) (s : State) : Outcome State Fault Refusal :=
  s.withSources (.trapReg f) f (regSrcs f.a [.tag tagN32]) fun v act ls fl =>
    .next (s.trapWord v (.trapReg f) act fl 0x60#8 (src ls 0 v.leader))
/-- BRK with an immediate code (R321). -/
def execBrk (f : Fields) (s : State) : Outcome State Fault Refusal :=
  s.withSources (.brk f) f [] fun v act _ fl => .next (s.trapWord v (.brk f) act fl 0x61#8 (f.imm20.setWidth 32))
/-- BRK with its code in the leader lane of A (R321). -/
def execBrkReg (f : Fields) (s : State) : Outcome State Fault Refusal :=
  s.withSources (.brkReg f) f (regSrcs f.a [.tag tagN32]) fun v act ls fl =>
    .next (s.trapWord v (.brkReg f) act fl 0x61#8 (src ls 0 v.leader))

/-! ### Special registers (R59, R126-R128, R182, R323) -/

/-- A special register in a lane of a group. -/
def State.specialReg (s : State) (v : View) (n : Nat) (l : Fin 32) : DWord :=
  let w (x : Nat) : DWord := BitVec.ofNat 64 x
  match n with
  | 0x00 => w l.val
  | 0x01 => w v.fib.grp
  | 0x02 => w v.g.fib
  | 0x03 => w v.g.slot
  | 0x04 => w v.g.sub
  | 0x10 => v.fib.exm.setWidth 64
  | 0x11 => v.fib.gst.setWidth 64
  | 0x15 => (lane v.fib.srseed l).setWidth 64
  | n => s.teamSr v.g.core v.team n

/-- RDSR (R323). -/
def execRdsr (f : Fields) (s : State) : Outcome State Fault Refusal :=
  execFixed (.rdsr f) f 4 [] (fun v act _ =>
    let n := f.sub.toNat
    if n = 0x13 then outPair f.d act tagI64L tagI64H (s.specialReg v n)
    else outLanes f.d act tagN32 fun l => (s.specialReg v n l).setWidth 32) s

/-- The bits of %gst that a WRSR writes: MODE in supervisor mode only (R59, R127). -/
def gstMask (sup : Bool) : Word := if sup then 0x0000833F#32 else 0x0000033F#32

/-- What a WRSR writes (R323): %gst and %preq from the leader lane, %srseed in every active lane; %preq takes effect in the next
clock (R326), and a written seed of 0 is 1 (R182). -/
def State.writeSpecial (s : State) (v : View) (n : Nat) (act : Mask) (x : Fin 32 → Word) : State :=
  match n with
  | 0x11 =>
    let m := gstMask v.fib.sup
    s.modFibre v.g fun b => { b with gst := (b.gst &&& ~~~m) ||| (x v.leader &&& m) }
  | 0x12 => s.modTeam v.g.core v.slot.ctx fun t => { t with preqNext := some ((x v.leader).getLsbD 0) }
  | _ => s.modFibre v.g fun b =>
      { b with srseed := lanesOf fun l => if inMask act l then (if x l = 0#32 then 1#32 else x l) else lane b.srseed l }

/-- WRSR to a register that the group may write (R317, R323): it acts in its issue clock, before the flags of its own read (R155);
the counter it names falls 4 clocks later. -/
def State.wrsr (s : State) (f : Fields) : Outcome State Fault Refusal :=
  s.withSources (.wrsr f) f (if f.ext = .none then regSrcs f.a [.tag tagN32] else xWords .n32 f.ext) fun v act ls fl =>
    let s := if act = 0#32 then s else s.writeSpecial v f.sub.toNat act (src ls 0)
    let s := s.modFibre v.g fun b => { b with gst := b.gst ||| fl }
    match f.signal with
    | none => .next (s.issue v.g (.wrsr f))
    | some k => .next (s.commitFixed v (.wrsr f) (some k) 4 ⟨[], 0#32⟩)

/-- WRSR (R323): that of %preq is a privileged form (R48). -/
def execWrsr (f : Fields) (s : State) : Outcome State Fault Refusal :=
  if f.sub = 0x12#8 then s.privileged (.wrsr f) (s.wrsr f) else s.wrsr f

/-! ### PSAVE (R327) -/

/-- PSAVE: held until every counter is zero; without a request it has no effect, else the fibre parks with its live windows. -/
def execPsave (f : Fields) (s : State) : Outcome State Fault Refusal :=
  s.withSources (.psave f) f [] fun v _ _ fl =>
    if !v.fib.countersZero then .next s
    else
      let s := s.issueFlags v (.psave f) fl
      if v.team.preq then .next (s.modFibre v.g fun b => { b with parked := some (f.imm20.setWidth 4) }) else .next s

/-! ### Operations that a counter tracks (R324, R325, R333, R334) -/

/-- INTR (R324): selector and identity are read at issue. -/
def execIntr (f : Fields) (s : State) : Outcome State Fault Refusal :=
  s.privileged (.intr f) <| s.withSources (.intr f) f (regSrcs f.a [.tag tagN32] ++ regSrcs f.b [.tag tagN32]) fun v act ls fl =>
    .next (s.startPlain v (.intr f) f act ((newOp v (.intr f) act [] ls [] fl).leaderOnly v))

/-- The sources of TLBINV: an address under .page, and the identifier or world. -/
def tlbinvSrcs (f : Fields) : List Src := (if f.sub = 1#8 then pairSrcs f.a else []) ++ regSrcs f.b [.tag tagN32]

/-- TLBINV (R325). -/
def execTlbinv (f : Fields) (s : State) : Outcome State Fault Refusal :=
  s.privileged (.tlbinv f) <| s.withSources (.tlbinv f) f (tlbinvSrcs f) fun v act ls fl =>
    .next (s.startPlain v (.tlbinv f) f act ((newOp v (.tlbinv f) act [] ls [] fl).leaderOnly v))

/-- A CTXSAVE of a context begins the save of its team into the issuer's range, or has its status at once (R333). -/
def State.startCtxsave (s : State) (v : View) (id n : Nat) (va : DWord) : State :=
  let done (r : Nat) : State := s.modFibre v.g fun b => b.modOp id fun o => { o with stage := 2, value := r }
  if n = v.slot.ctx then done 2
  else match s.team? v.g.core n with
    | none => done 1
    | some t =>
      if t.saving.isSome then done 1
      else (s.beginOne v.g.core n true va.toNat (some (v.g, id))).beginSave v.g.core n true

/-- CTXSAVE (R333). -/
def execCtxsave (f : Fields) (s : State) : Outcome State Fault Refusal :=
  s.privileged (.ctxsave f) <| s.withSources (.ctxsave f) f (pairSrcs f.a ++ regSrcs f.b [.tag tagN32]) fun v act ls fl =>
    let va := src64 ls 0 v.leader
    let o := (newOp v (.ctxsave f) act (laneAddrs fun l => src64 ls 0 l) (ls.drop 2) [f.d] fl).leaderOnly v
    let s := s.startPlain v (.ctxsave f) f act o
    if act = 0#32 then .next s else .next (s.startCtxsave v o.id ((src ls 2 v.leader).toNat % 8) va)

/-- CTXLOAD (R334). -/
def execCtxload (f : Fields) (s : State) : Outcome State Fault Refusal :=
  s.privileged (.ctxload f) <| s.withSources (.ctxload f) f (pairSrcs f.a) fun v act ls fl =>
    .next (s.startPlain v (.ctxload f) f act
      ((newOp v (.ctxload f) act (laneAddrs fun l => src64 ls 0 l) [] [f.d] fl).leaderOnly v))

/-! ### Their completion -/

/-- The IMSIC address of a supervisor-level or guest file (R395). -/
def imsicAddress (slice hart file : Nat) : Nat := 0x00FE000000000000 + 0x01000000 * slice + 0x100000 + 0x8000 * hart + 0x1000 * file

/-- The interrupt of an INTR, or its entry in the firewall log (R324). -/
def State.interrupt (s : State) (core part : Nat) (sel id : Word) : State :=
  let file := (sel.extractLsb' 8 5).toNat
  let slice := (sel.extractLsb' 4 4).toNat
  let hart := (sel.extractLsb' 0 2).toNat
  if (s.slice slice).part ≠ some part then
    s.logViolation (sliceOf core) 4 4 core (BitVec.ofNat 64 (imsicAddress slice hart file))
  else if sel.extractLsb' 13 19 ≠ 0#19 ∨ sel.extractLsb' 2 2 ≠ 0#2 ∨ 7 < file ∨ id = 0#32 ∨ 2047 < id.toNat then
    s.logViolation (sliceOf core) 4 5 core (id ++ sel)
  else s.setPending slice hart (1 + file) id.toNat

/-- Whether TLBINV removes a translation or a walk of an identifier, a world and a page of a size (R325). -/
def tlbinvHits (kind : Nat) (va : Nat) (b : Word) (asid : BitVec 12) (world page size : Nat) : Bool :=
  match kind with
  | 0 => asid == b.setWidth 12
  | 1 => asid == b.setWidth 12 && va % 2 ^ 57 / 2 ^ size == page % 2 ^ 57 / 2 ^ size
  | _ => world == b.toNat % 16

/-- TLBINV acts on every sub-partition TLB, second-level TLB and walker of a partition, and .asid on its pins (R222, R325). -/
def State.tlbinv (s : State) (part kind : Nat) (va : Nat) (b : Word) : State :=
  let keep (e : TlbEntry) : Bool := !tlbinvHits kind va b e.asid e.world e.va e.size
  let mine (n : Nat) : Bool := (s.slice n).part == some part
  { s with
    cores := s.cores.mapVals fun c k =>
      if mine (sliceOf c) then
        { k with tlb := k.tlb.filter keep, subs := k.subs.mapVals fun _ x => { x with tlb := x.tlb.filter keep } }
      else k
    slices := s.slices.mapVals fun n x =>
      if mine n then { x with walks := x.walks.keep fun _ w => !tlbinvHits kind va b w.asid w.world w.va 12 } else x
    pins := if kind = 0 then s.pins.keep fun k a => !(k / 2 ^ 50 == part && a == b.setWidth 12) else s.pins }

/-- The bytes of pieces of physical memory at their home banks. -/
def State.readPieces (s : State) (part : Nat) (l : List (Nat × Nat)) : List Byte := l.flatMap fun p => s.readMem part p.1 p.2

/-- The bytes of an image from its address, when every page passes and no line is lost (R231, R334, R406). -/
def State.imageRange (s : State) (v : View) (o : Op) (n : Nat) (k : List Byte → State) : State :=
  s.rangeOf v o false n fun l =>
    let way (p : Nat × Nat) : Way := s.way (sliceOf v.g.core) v.team.part p.1
    match l.find? fun p => (way p).errs with
    | some p => s.loseOp v o 0x87#8 p.1
    | none => if l.any fun p => way p == .held then s else match l.find? fun p =>
        (List.range ((p.1 + p.2 - 1) / 128 - p.1 / 128 + 1)).any fun i => (s.line v.team.part ((p.1 / 128 + i) * 128)).poison with
      | some p => s.loseOp v o 0x81#8 p.1
      | none => k (s.readPieces v.team.part l)

/-- CTXLOAD: the whole image is read and checked before anything is installed (R334). -/
def State.performCtxload (s : State) (v : View) (o : Op) : State :=
  let done (s : State) (r : Nat) : State := (s.writeStatus v.g o r).finishAccess v.g o
  s.imageRange v o 256 fun head => match parseImage head with
    | none => done s 3
    | some h => s.imageRange v o h.size fun bs => match s.checkImage v.team.part bs with
      | .error r => done s r
      | .ok (_, img) =>
        let r := s.restoreImage v.g.core v.team.part img
        done r.2 r.1

/-- SYSTEM_OP_COMPLETE (R324, R325, R333, R334): an INTR after its release action, a TLBINV when every slice has confirmed, a
CTXSAVE whose image has performed or that has its status, a CTXLOAD. -/
def execSystemOpComplete (g : GroupRef) (id : Nat) (s : State) : Outcome State Fault Refusal :=
  match s.view g with
  | none => .next s
  | some v => match v.fib.op? id with
    | none => .next s
    | some o =>
      let l := o.leaderLane
      if o.held ≠ 0#32 then .next s
      else match o.instr with
        | .intr _ =>
          if v.fib.earlier id ∨ s.cacheStuck g.core ∨ s.cacheTurn v o = false then .next s
          else .next (((s.releaseCache g.core).interrupt g.core v.team.part (src o.data 0 l) (src o.data 1 l)).finishAccess g o)
        | .tlbinv f =>
          let va := if f.sub = 1#8 then (src64 o.data 0 l).toNat else 0
          let b := src o.data (if f.sub = 1#8 then 2 else 0) l
          .next ((s.tlbinv v.team.part f.sub.toNat va b).finishAccess g o)
        | .ctxsave _ => if o.stage = 2 then .next ((s.writeStatus g o o.value).finishAccess g o) else .next s
        | .ctxload _ => .next (s.performCtxload v o)
        | _ => .next s

end Sys2Proof.Machine
end

