-- ==== Sys2Proof/Machine/Answers.lean ====
section
/-!
DEFINITION. The fault block and its answers (R336-R338, R403): the ring's configuration and flow, RESUME, ABORT-GROUP and KILL-TEAM,
and the answers and records that travel between packages.
-/

namespace Sys2Proof.Machine

open Host (Outcome)

/-! ### The ring (R336, R337) -/

/-- The records of a slice's buffer enter the ring, in order, as many as it takes. -/
def State.drainAll (s : State) (slice : Nat) : Nat → State
  | 0 => s
  | n + 1 => (s.drainFault slice).drainAll slice n

/-- A write of QBASE and LOG2N (R336): ignored whole with LOG2N outside 6 to 16; a base starts the flow of waiting records. -/
def State.configureQueue (s : State) (slice : Nat) (value : DWord) : State :=
  let n := (value.extractLsb' 0 5).toNat
  if n < 6 ∨ 16 < n then s
  else
    let s := s.modSlice slice fun x => { x with fault := { x.fault with qbase := value &&& ~~~0xFFF#64, log2n := n } }
    let b := (s.slice slice).fault
    s.drainAll slice (b.buffer.length + b.waiting.length)

/-- FAULT_QUEUE_CONFIG (R336). -/
def execFaultQueueConfig (slice : Nat) (value : DWord) (s : State) : Outcome State Fault Refusal :=
  .next (s.configureQueue slice value)

/-- FAULT_RECORD_DRAIN (R337): the buffer's first record enters the ring when it has room, and what waits for the buffer enters it. -/
def execFaultRecordDrain (slice : Nat) (s : State) : Outcome State Fault Refusal := .next (s.drainFault slice)

/-! ### Answers (R338) -/

/-- Whether an answer quotes an unanswered record. -/
def LiveRec.quoted (r : LiveRec) (a : Answer) : Bool := r.ftag == a.ftag && r.place == a.place && r.level == a.level && r.entry == a.entry

/-- RESUME of a group's record: a copy goes on, a held operation's lanes are issued again, and the fibre runs again when none of its
records is unanswered. After TRAP, BRK and a watch nothing is issued again. -/
def State.resumeGroup (s : State) (g : GroupRef) (r : LiveRec) : State :=
  match s.view g with
  | none => s
  | some v =>
    let s :=
      if r.cause = 0x60#8 ∨ r.cause = 0x61#8 ∨ r.cause = 0x62#8 then s
      else if r.entry = 0x0F#8 then s.resumeCopy v r.opId r.ftag
      else s.modFibre g fun f => f.reissue r.opId
    s.unfreeze g

/-- The effect of an answer of a command on a record (R338). -/
def State.applyAnswer (s : State) (cmd : Nat) (r : LiveRec) : State :=
  match r.agent with
  | .group g =>
    if cmd = 1 then s.resumeGroup g r
    else if cmd = 2 then s.abortGroup g
    else s.killTeam g.core ((s.slot? g).map Slot.ctx |>.getD 8)
  | .ctx c => if cmd = 1 then s.resumeCtx c else if cmd = 2 then s.endGen c else s.killTeam c.core c.ctx
  | _ => s

/-- An answer reaches a slice's answer register (R336): it acts on the live record that it quotes; any other is counted. -/
def State.answer (s : State) (slice cmd : Nat) (a : Answer) : State :=
  match (s.slice slice).fault.live.find? fun r => r.quoted a with
  | none => s.modSlice slice fun x => { x with fault := { x.fault with stale := x.fault.stale + 1#32 } }
  | some r =>
    let s := s.modSlice slice fun x => { x with fault := { x.fault with live := x.fault.live.erase r } }
    s.applyAnswer cmd r

/-- RESUME (R338). -/
def execResume (slice : Nat) (a : Answer) (s : State) : Outcome State Fault Refusal := .next (s.answer slice 1 a)
/-- ABORT_GROUP (R338). -/
def execAbortGroup (slice : Nat) (a : Answer) (s : State) : Outcome State Fault Refusal := .next (s.answer slice 2 a)
/-- KILL_TEAM (R338). -/
def execKillTeam (slice : Nat) (a : Answer) (s : State) : Outcome State Fault Refusal := .next (s.answer slice 3 a)

/-- The fields of a value of the answer register (R336). -/
def answerOf (v : DWord) : Nat × Answer :=
  ((v.extractLsb' 56 7).toNat, ⟨v.getLsbD 63, v.extractLsb' 40 16, v.extractLsb' 32 8, v.extractLsb' 0 32⟩)

/-- A 64-bit write of the answer register: a command other than the three is counted as stale. -/
def State.answerWrite (s : State) (slice : Nat) (v : DWord) : State :=
  let c := answerOf v
  if 1 ≤ c.1 ∧ c.1 ≤ 3 then s.answer slice c.1 c.2
  else s.modSlice slice fun x => { x with fault := { x.fault with stale := x.fault.stale + 1#32 } }

/-! ### Between packages (R403) -/

/-- REMOTE_ANSWER (R403): what is written to RANSWER leaves for RSLICE of peer RPEER. -/
def execRemoteAnswer (slice : Nat) (value : DWord) (s : State) : Outcome State Fault Refusal :=
  .next (s.modSlice slice fun x =>
    { x with net := { x.net with answers := x.net.answers ++ [(x.net.rslice.toNat, x.net.rpeer.toNat, value)] } })

/-- RANSWER_ARRIVAL (R403): an answer from a peer is applied to the answer register under the rules of R336. -/
def execRanswerArrival (slice : Nat) (value : DWord) (s : State) : Outcome State Fault Refusal := .next (s.answerWrite slice value)

/-- An event on a wired source: it rises and falls. -/
def State.pulse (s : State) (slice src : Nat) : State := (s.wire slice src true).wire slice src false

/-- The exposures and peer entries, which stand in every block of a partition alike (R401). -/
def State.modNets (s : State) (part : Nat) (f : Net → Net) : State :=
  { s with slices := s.slices.mapVals fun _ x => if x.part = some part then { x with net := f x.net } else x }

/-- The peer entry in force whose endpoint is the sender of a record. -/
def Net.peerOf (n : Net) (sender : BitVec 128) : Option (Nat × Peer) := n.viewPeers.cells.find? fun p => p.2.endpt == sender

/-- REMOTE_FAULT_RECORD_RX (R403): a record from the endpoint of a peer entry enters the peer's ring, unless the ring is full; it
waits while the ring's home bank is held. The entry's
count of records is one for the slices of the partition. -/
def execRemoteFaultRecordRx (slice : Nat) (sender : BitVec 128) (record : BitVec 512) (s : State) : Outcome State Fault Refusal :=
  let x := s.slice slice
  match x.part, x.net.peerOf sender with
  | some p, some (i, e) =>
    let n := 2 ^ (e.ring.extractLsb' 0 5).toNat
    if (e.rtail - e.rhead).toNat ≥ n then .next s
    else
      let at_ := (e.ring &&& ~~~0xFFF#64).toNat + 64 * (e.rtail.toNat % n)
      if s.way slice p at_ == .held then .next s
      else
      let s := s.unitWrite slice p at_ (leBytes 64 record.toNat)
      let count (q : Peer) : Peer := { q with rtail := e.rtail + 1#32 }
      let s := s.modNets p fun n => { n with viewPeers := match n.viewPeers.find i with
        | some q => n.viewPeers.set i (count q)
        | none => n.viewPeers }
      .next ((s.sendMsi slice p e.msi e.msiData).pulse slice 6)
  | _, _ => .next s

end Sys2Proof.Machine
end

