-- ==== Sys2Proof/Machine/Integer.lean ====
section
/-!
DEFINITION. The meanings of the integer and address class (R133-R150): arithmetic element by element, IDIV, logic, moves and
selection, shifts, bit fields, counts, comparison, the 64-bit forms and LEA.
-/

namespace Sys2Proof.Machine

open Host (Outcome)

/-! ### Elements (R136) -/

/-- The width of an element of a TY. -/
def tyWidth (ty : Nat) : Nat := if ty = 2 ∨ ty = 3 then 64 else if ty = 7 ∨ ty = 8 then 16 else if ty = 9 ∨ ty = 10 then 8 else 32
/-- Whether a TY is signed. -/
def tySigned (ty : Nat) : Bool := ty == 0 || ty == 2 || ty == 7 || ty == 9
/-- Whether operands of a TY are pairs. -/
def tyWide (ty : Nat) : Bool := ty == 2 || ty == 3

/-- Bits of a lane as an integer of a width. -/
def toInt (w : Nat) (signed : Bool) (x : Nat) : Int :=
  let n := x % 2 ^ w
  if signed && decide (2 ^ (w - 1) ≤ n) then (n : Int) - 2 ^ w else n

/-- An exact result in w bits: clamped under SAT, then taken modulo 2^w (R139). -/
def narrow (w : Nat) (signed sat : Bool) (t : Int) : Nat :=
  let t := if sat then clampInt (intMin w signed) (intMax w signed) t else t
  (t % 2 ^ w).toNat

/-- An operation on the elements of a 32-bit lane (R139). -/
def elemwise (ty : Nat) (sat : Bool) (f : Int → Int → Int → Int) (x y c : Word) : Word :=
  let w := tyWidth ty
  let el (v : Word) (i : Nat) : Int := toInt w (tySigned ty) (v.toNat / 2 ^ (w * i))
  BitVec.ofNat 32 ((List.range (32 / w)).foldl (fun r i =>
    r + narrow w (tySigned ty) sat (f (el x i) (el y i) (el c i)) * 2 ^ (w * i)) 0)

/-- An operation on 64-bit values (R139, R148). -/
def elemwise64 (ty : Nat) (sat : Bool) (f : Int → Int → Int → Int) (x y : DWord) : DWord :=
  BitVec.ofNat 64 (narrow 64 (tySigned ty) sat (f (toInt 64 (tySigned ty) x.toNat) (toInt 64 (tySigned ty) y.toNat) 0))

/-! ### Shapes (R133) -/

/-- The sources of a binary form of a TY: A, then src. -/
def binSrcs (f : Fields) : List Src := regSrcs f.a (tyExpect f.ty) ++ srcB f (srcTyOf f.ty) (tyExpect f.ty)
/-- Untyped operands of a TY. -/
def anyExpect (ty : Nat) : List Expect := if tyWide ty then [.any, .any] else [.any]
/-- The sources of a logic form: A, then src, untyped. -/
def logicSrcs (f : Fields) : List Src := regSrcs f.a (anyExpect f.ty) ++ srcB f (srcTyOf f.ty) (anyExpect f.ty)
/-- A typed first source and an N32 second source: shifts, rotates and bit fields. -/
def countSrcs (f : Fields) : List Src := regSrcs f.a [.tag (tyTag f.ty)] ++ srcB f .n32 [.tag tagN32]
/-- The one source of a unary form. -/
def unarySrcs (f : Fields) : List Src := regSrcs f.a [.tag (tyTag f.ty)]

/-- A result of a TY over two operands: one register, or a pair. -/
def outTy (f : Fields) (act : Mask) (ls : List Lanes) (g : Word → Word → Word) (g64 : DWord → DWord → DWord) : FixedOut :=
  if tyWide f.ty then outPair f.d act tagI64L tagI64H fun l => g64 (src64 ls 0 l) (src64 ls 2 l)
  else outLanes f.d act (tyTag f.ty) fun l => g (src ls 0 l) (src ls 1 l)

/-- An arithmetic binary form (R139). -/
def execArith (i : Instr) (f : Fields) (latency : Nat) (g : Int → Int → Int) (s : State) : Outcome State Fault Refusal :=
  execFixed i f latency (binSrcs f) (fun _ act ls =>
    outTy f act ls (fun x y => elemwise f.ty f.sat (fun a b _ => g a b) x y 0#32)
      (fun x y => elemwise64 f.ty f.sat (fun a b _ => g a b) x y)) s

/-- A logic form (R143). -/
def execLogic (i : Instr) (f : Fields) (g : Word → Word → Word) (g64 : DWord → DWord → DWord) (s : State) :
    Outcome State Fault Refusal :=
  execFixed i f 4 (logicSrcs f) (fun _ act ls => outTy f act ls g g64) s

/-- A form with a count or control as second source, and a result tag. -/
def execCount (i : Instr) (f : Fields) (t : Tag) (g : Word → Word → Word) (s : State) : Outcome State Fault Refusal :=
  execFixed i f 4 (countSrcs f) (fun _ act ls => outLanes f.d act t fun l => g (src ls 0 l) (src ls 1 l)) s

/-- A unary form with a result tag. -/
def execUnary (i : Instr) (f : Fields) (t : Tag) (g : Word → Word) (s : State) : Outcome State Fault Refusal :=
  execFixed i f 4 (unarySrcs f) (fun _ act ls => outLanes f.d act t fun l => g (src ls 0 l)) s

/-! ### Values (R140-R147) -/

/-- The exact product of two words of a TY as 64 bits (R140). -/
def wideProduct (ty : Nat) (x y : Word) : DWord :=
  BitVec.ofInt 64 (toInt 32 (tySigned ty) x.toNat * toInt 32 (tySigned ty) y.toNat)

/-- ISAD of one lane (R141). -/
def sadLane (ty : Nat) (x y c : Word) : Word :=
  let w := tyWidth ty
  let el (v : Word) (i : Nat) : Int := toInt w (tySigned ty) (v.toNat / 2 ^ (w * i))
  BitVec.ofNat 32 ((List.range (32 / w)).foldl (fun r i => r + (el x i - el y i).natAbs) c.toNat)

/-- Quotient and remainder of R142, in w bits. -/
def divide (w : Nat) (signed : Bool) (x y : Nat) : Nat × Nat :=
  let a := toInt w signed x
  let b := toInt w signed y
  if b = 0 then (2 ^ w - 1, x % 2 ^ w)
  else if signed ∧ a = -(2 ^ (w - 1)) ∧ b = -1 then (x % 2 ^ w, 0)
  else (((a.tdiv b) % 2 ^ w).toNat, ((a - b * a.tdiv b) % 2 ^ w).toNat)

/-- SHF of one lane (R144): n above 32 acts as 32. -/
def funnel (right : Bool) (a b n : Word) : Word :=
  let n := min n.toNat 32
  let ab : DWord := a ++ b
  if right then (ab >>> n).setWidth 32 else (ab <<< n).extractLsb' 32 32

/-- The start, the length and the used length of a bit-field control (R145). -/
def fieldStart (c : Word) : Nat := c.toNat % 256
def fieldLen (c : Word) : Nat := c.toNat / 256 % 256

/-- BFX of one lane (R145). -/
def fieldExtract (signed : Bool) (a c : Word) : Word :=
  let s := fieldStart c
  let n := fieldLen c
  if n = 0 ∨ s ≥ 32 then 0#32
  else
    let m := min n (32 - s)
    BitVec.ofInt 32 (toInt m signed (a.toNat / 2 ^ s))

/-- BFI of one lane (R145). -/
def fieldInsert (a b c : Word) : Word :=
  let s := fieldStart c
  let n := fieldLen c
  if n = 0 ∨ s ≥ 32 then b
  else
    let m := min n (32 - s)
    let hole : Word := BitVec.ofNat 32 ((2 ^ m - 1) * 2 ^ s)
    (b &&& ~~~hole) ||| ((a <<< s) &&& hole)

/-- Set bits, leading and trailing zeros, and the reversal of a word (R146). -/
def popCount (a : Word) : Nat := ((List.range 32).filter fun i => a.getLsbD i).length
def leadZeros (a : Word) : Nat := if a = 0#32 then 32 else 31 - Nat.log2 a.toNat
def trailZeros (a : Word) : Nat := ((List.range 32).find? fun i => a.getLsbD i).getD 32
def bitReverse (a : Word) : Word := a.reverse

/-- The relation of a CC code 0-5 (R147). -/
def relation (cc : Nat) (x y : Int) : Bool :=
  match cc with
  | 0 => x == y
  | 1 => x != y
  | 2 => decide (x < y)
  | 3 => decide (x ≤ y)
  | 4 => decide (x > y)
  | _ => decide (x ≥ y)

def boolWord (b : Bool) : Word := if b then 1#32 else 0#32

/-- The shift of R144: a count is not masked. -/
def shiftLeft (a n : Word) : Word := if n.toNat < 32 then a <<< n.toNat else 0#32
def shiftRight (a n : Word) : Word := if n.toNat < 32 then a >>> n.toNat else 0#32
def shiftArith (a n : Word) : Word := a.sshiftRight (min n.toNat 32)
def rotate (right : Bool) (a n : Word) : Word := if right then a.rotateRight (n.toNat % 32) else a.rotateLeft (n.toNat % 32)

/-! ### The meanings -/

/-- IADD (R139). -/
def execIadd (f : Fields) (s : State) : Outcome State Fault Refusal := execArith (.iadd f) f 4 (· + ·) s
/-- ISUB (R139). -/
def execIsub (f : Fields) (s : State) : Outcome State Fault Refusal := execArith (.isub f) f 4 (· - ·) s
/-- IMUL (R139). -/
def execImul (f : Fields) (s : State) : Outcome State Fault Refusal := execArith (.imul f) f 5 (· * ·) s

/-- IMULH (R140). -/
def execImulh (f : Fields) (s : State) : Outcome State Fault Refusal :=
  execFixed (.imulh f) f 5 (binSrcs f) (fun _ act ls =>
    outLanes f.d act (tyTag f.ty) fun l => (wideProduct f.ty (src ls 0 l) (src ls 1 l)).extractLsb' 32 32) s

/-- IMAD (R139): product and sum are exact, with one wrap or clamp. -/
def execImad (f : Fields) (s : State) : Outcome State Fault Refusal :=
  let e : List Expect := [.tag (tyTag f.ty)]
  execFixed (.imad f) f 5 (regSrcs f.a e ++ regSrcs f.b e ++ src3 f (srcTyOf f.ty) e) (fun _ act ls =>
    outLanes f.d act (tyTag f.ty) fun l =>
      elemwise f.ty f.sat (fun x y c => x * y + c) (src ls 0 l) (src ls 1 l) (src ls 2 l)) s

/-- IMULW (R140). -/
def execImulw (f : Fields) (s : State) : Outcome State Fault Refusal :=
  execFixed (.imulw f) f 5 (binSrcs f) (fun _ act ls =>
    outPair f.d act tagI64L tagI64H fun l => wideProduct f.ty (src ls 0 l) (src ls 1 l)) s

/-- IDIV (R142), in the special-function unit. -/
def execIdiv (f : Fields) (s : State) : Outcome State Fault Refusal :=
  let pick (p : Nat × Nat) : Nat := if f.var3 = 1 then p.2 else p.1
  execSfu (.idiv f) f (binSrcs f) (fun _ act ls =>
    outTy f act ls (fun x y => BitVec.ofNat 32 (pick (divide 32 (tySigned f.ty) x.toNat y.toNat)))
      (fun x y => BitVec.ofNat 64 (pick (divide 64 (tySigned f.ty) x.toNat y.toNat)))) s

/-- IMIN (R139). -/
def execImin (f : Fields) (s : State) : Outcome State Fault Refusal := execArith (.imin f) f 4 min s
/-- IMAX (R139). -/
def execImax (f : Fields) (s : State) : Outcome State Fault Refusal := execArith (.imax f) f 4 max s

/-- IABS (R139). -/
def execIabs (f : Fields) (s : State) : Outcome State Fault Refusal :=
  execUnary (.iabs f) f (tyTag f.ty) (fun x => elemwise f.ty f.sat (fun a _ _ => a.natAbs) x 0#32 0#32) s

/-- AND (R143). -/
def execAnd (f : Fields) (s : State) : Outcome State Fault Refusal := execLogic (.and f) f (· &&& ·) (· &&& ·) s
/-- OR (R143). -/
def execOr (f : Fields) (s : State) : Outcome State Fault Refusal := execLogic (.or f) f (· ||| ·) (· ||| ·) s
/-- XOR (R143). -/
def execXor (f : Fields) (s : State) : Outcome State Fault Refusal := execLogic (.xor f) f (· ^^^ ·) (· ^^^ ·) s
/-- ANDN (R143). -/
def execAndn (f : Fields) (s : State) : Outcome State Fault Refusal :=
  execLogic (.andn f) f (fun a b => a &&& ~~~b) (fun a b => a &&& ~~~b) s

/-- SHL (R144). -/
def execShl (f : Fields) (s : State) : Outcome State Fault Refusal := execCount (.shl f) f (tyTag f.ty) shiftLeft s
/-- SHR (R144). -/
def execShr (f : Fields) (s : State) : Outcome State Fault Refusal := execCount (.shr f) f (tyTag f.ty) shiftRight s
/-- SRA (R144). -/
def execSra (f : Fields) (s : State) : Outcome State Fault Refusal := execCount (.sra f) f tagS32 shiftArith s
/-- ROT (R144): VAR 1 rotates right. -/
def execRot (f : Fields) (s : State) : Outcome State Fault Refusal := execCount (.rot f) f tagN32 (rotate (f.var3 == 1)) s

/-- SHF (R144): VAR 1 shifts right. -/
def execShf (f : Fields) (s : State) : Outcome State Fault Refusal :=
  let e : List Expect := [.tag tagN32]
  execFixed (.shf f) f 4 (regSrcs f.a e ++ regSrcs f.b e ++ src3 f .n32 e) (fun _ act ls =>
    outLanes f.d act tagN32 fun l => funnel (f.var3 == 1) (src ls 0 l) (src ls 1 l) (src ls 2 l)) s

/-- BFX (R145). -/
def execBfx (f : Fields) (s : State) : Outcome State Fault Refusal :=
  execCount (.bfx f) f (tyTag f.ty) (fieldExtract (tySigned f.ty)) s

/-- BFI (R145). -/
def execBfi (f : Fields) (s : State) : Outcome State Fault Refusal :=
  let e : List Expect := [.tag tagN32]
  execFixed (.bfi f) f 4 (regSrcs f.a e ++ regSrcs f.b e ++ src3 f .n32 e) (fun _ act ls =>
    outLanes f.d act tagN32 fun l => fieldInsert (src ls 0 l) (src ls 1 l) (src ls 2 l)) s

/-- POPC (R146). -/
def execPopc (f : Fields) (s : State) : Outcome State Fault Refusal :=
  execUnary (.popc f) f tagN32 (fun a => BitVec.ofNat 32 (popCount a)) s
/-- CLZ (R146). -/
def execClz (f : Fields) (s : State) : Outcome State Fault Refusal :=
  execUnary (.clz f) f tagN32 (fun a => BitVec.ofNat 32 (leadZeros a)) s
/-- CTZ (R146). -/
def execCtz (f : Fields) (s : State) : Outcome State Fault Refusal :=
  execUnary (.ctz f) f tagN32 (fun a => BitVec.ofNat 32 (trailZeros a)) s
/-- BREV (R146). -/
def execBrev (f : Fields) (s : State) : Outcome State Fault Refusal := execUnary (.brev f) f tagN32 bitReverse s

/-- ICMP (R147). -/
def execIcmp (f : Fields) (s : State) : Outcome State Fault Refusal :=
  let g := tySigned f.ty
  execFixed (.icmp f) f 4 (binSrcs f) (fun _ act ls =>
    outLanes f.d act tagPred fun l =>
      boolWord (if tyWide f.ty then relation f.cc (toInt 64 g (src64 ls 0 l).toNat) (toInt 64 g (src64 ls 2 l).toNat)
                else relation f.cc (toInt 32 g (src ls 0 l).toNat) (toInt 32 g (src ls 1 l).toNat))) s

/-- The register of a word's extension, the zero operand when it has none. -/
def extReg (f : Fields) : Operand :=
  match f.ext with
  | .reg o => o
  | _ => .zero

/-- SEL (R143): sources A, B and C are untyped. -/
def execSel (f : Fields) (s : State) : Outcome State Fault Refusal :=
  let e := anyExpect f.ty
  execFixed (.sel f) f 4 (regSrcs f.a e ++ regSrcs f.b e ++ [.reg (extReg f) .any]) (fun _ act ls =>
    if tyWide f.ty then
      outPair f.d act tagI64L tagI64H fun l => if src ls 4 l ≠ 0#32 then src64 ls 0 l else src64 ls 2 l
    else outLanes f.d act (tyTag f.ty) fun l => if src ls 2 l ≠ 0#32 then src ls 0 l else src ls 1 l) s

/-- MOV (R143): the source is A under kind 0, or X. -/
def execMov (f : Fields) (s : State) : Outcome State Fault Refusal :=
  let srcs := if f.ext = .none then regSrcs f.a (anyExpect f.ty) else xWords (srcTyOf f.ty) f.ext
  execFixed (.mov f) f 4 srcs (fun _ act ls => outTy f act ls (fun x _ => x) (fun x _ => x)) s

/-- IADD64 (R148). -/
def execIadd64 (f : Fields) (s : State) : Outcome State Fault Refusal := execArith (.iadd64 f) f 4 (· + ·) s
/-- ISUB64 (R148). -/
def execIsub64 (f : Fields) (s : State) : Outcome State Fault Refusal := execArith (.isub64 f) f 4 (· - ·) s

/-- The address that LEA forms (R149): TY 0 is a signed index. -/
def leaValue (ty k : Nat) (base : DWord) (ix off : Word) : DWord :=
  let ix : DWord := if ty = 0 then ix.signExtend 64 else ix.setWidth 64
  base + (ix <<< k) + off.signExtend 64

/-- LEA (R149): the offset is 0, imm20 or a constant word, sign-extended. -/
def execLea (f : Fields) (s : State) : Outcome State Fault Refusal :=
  let off := if f.ext = .none then [.word 0#32] else xWords .s32 f.ext
  execFixed (.lea f) f 4
    (regSrcs f.a [.tag tagA64L, .tag tagA64H] ++ regSrcs f.b [.tag (tyTag f.ty)] ++ off) (fun _ act ls =>
      outPair f.d act tagA64L tagA64H fun l => leaValue f.ty f.var3 (src64 ls 0 l) (src ls 2 l) (src ls 3 l)) s

/-- ISAD (R141): the addend is an N32 source. -/
def execIsad (f : Fields) (s : State) : Outcome State Fault Refusal :=
  let e : List Expect := [.tag (tyTag f.ty)]
  execFixed (.isad f) f 4 (regSrcs f.a e ++ regSrcs f.b e ++ src3 f .n32 [.tag tagN32]) (fun _ act ls =>
    outLanes f.d act tagN32 fun l => sadLane f.ty (src ls 0 l) (src ls 1 l) (src ls 2 l)) s

end Sys2Proof.Machine
end

