-- ==== Sys2Proof/Machine/CrossLane.lean ====
section
/-!
DEFINITION. The meanings of the cross-lane class (R192-R202): SHFL, BCST, VOTE, MATCH, RED, SCAN and REDMI; and the paired
word (R50-R53), which carries out one operation of each pipe.
-/

namespace Sys2Proof.Machine

open Host (Outcome)

/-! ### Moves between lanes (R194, R195) -/

/-- The selector of SHFL and BCST: untyped, B under kind 0, X under 2 or 3. -/
def selSrcs (f : Fields) : List Src := [.reg f.a .any] ++ srcB f .n32 [.any]

/-- A lane by number, modulo 32. -/
def laneNum (n : Nat) : Fin 32 := Fin.ofNat 32 n

/-- The source lane of SHFL for lane l and its selector (R194). -/
def shflLane (mode l n : Nat) : Nat :=
  match mode with
  | 0 => n % 32
  | 1 => if n ≤ l then l - n else l
  | 2 => if l + n ≤ 31 then l + n else l
  | _ => Nat.xor l (n % 32)

/-- SHFL (R194): D takes the tag of A, and an inactive lane still supplies its value. -/
def execShfl (f : Fields) (s : State) : Outcome State Fault Refusal :=
  execFixed (.shfl f) f 6 (selSrcs f) (fun v act ls =>
    outLanes f.d act (v.reg f.a).tag fun l => src ls 0 (laneNum (shflLane f.sub.toNat l.val (src ls 1 l).toNat))) s

/-- BCST (R195): the selector of the leader lane. -/
def execBcst (f : Fields) (s : State) : Outcome State Fault Refusal :=
  execFixed (.bcst f) f 6 (selSrcs f) (fun v act ls =>
    outLanes f.d act (v.reg f.a).tag fun _ => src ls 0 (laneNum (src ls 1 v.leader).toNat)) s

/-! ### Votes and matches (R196, R197) -/

/-- The result of VOTE: the lanes that vote against the active lanes. -/
def voteValue (mode : Nat) (yes act : Mask) : Word :=
  match mode with
  | 0 => boolWord (yes != 0#32)
  | 1 => boolWord (yes == act)
  | 2 => yes
  | _ => boolWord (yes == act || yes == 0#32)

/-- VOTE (R196). -/
def execVote (f : Fields) (s : State) : Outcome State Fault Refusal :=
  execFixed (.vote f) f 6 (regSrcs f.a [.tag tagPred]) (fun _ act ls =>
    let yes := maskOf fun l => inMask act l && src ls 0 l != 0#32
    outLanes f.d act (if f.sub = 2#8 then tagN32 else tagPred) fun _ => voteValue f.sub.toNat yes act) s

/-- The active lanes whose value is that of lane l. -/
def equalLanes (a : Lanes) (act : Mask) (l : Fin 32) : Mask := maskOf fun j => inMask act j && lane a j == lane a l

/-- MATCH (R197). -/
def execMatchLanes (f : Fields) (s : State) : Outcome State Fault Refusal :=
  execFixed (.matchLanes f) f 6 (regSrcs f.a [.tag tagN32]) (fun _ act ls =>
    outLanes f.d act tagN32 fun l =>
      let m := equalLanes (ls.getD 0 (lanesAll 0#32)) act l
      if f.sub = 0#8 then m else if m = act then act else 0#32) s

/-! ### Reductions and scans (R198-R200) -/

/-- A contribution widened to 64 bits as its TY has it: signed forms extend the sign. -/
def widen (ty : Nat) (w : Word) : DWord := if ty = 0 then w.signExtend 64 else w.setWidth 64

/-- The identity of an operation (R198). -/
def laneIdentity (ty var : Nat) : DWord :=
  match var with
  | 0 => if ty = 4 then 0x80000000#64 else 0#64
  | 1 => if ty = 4 then 0x7FC00000#64 else if ty = 0 then 0x7FFFFFFF#64 else if ty = 1 then 0xFFFFFFFF#64
         else if ty = 2 then 0x7FFFFFFFFFFFFFFF#64 else 0xFFFFFFFFFFFFFFFF#64
  | 2 => if ty = 4 then 0x7FC00000#64 else if ty = 0 then 0xFFFFFFFF80000000#64 else if ty = 2 then 0x8000000000000000#64 else 0#64
  | 3 => 0xFFFFFFFFFFFFFFFF#64
  | _ => 0#64

/-- The operation at a node of an integer TY (R199). -/
def intNode (ty var : Nat) (x y : DWord) : DWord :=
  let lt := if ty = 0 ∨ ty = 2 then x.slt y else x.ult y
  match var with
  | 0 => x + y
  | 1 => if lt then x else y
  | 2 => if lt then y else x
  | 3 => x &&& y
  | 4 => x ||| y
  | _ => x ^^^ y

/-- The operation at an F32 node: FADD under .rne, FMIN or FMAX, with its flags (R199). -/
def fltNode (ftz : Bool) (var : Nat) (x y : DWord) : DWord × Word :=
  let r := if var = 0 then faddLane ftz .rne (x.setWidth 32) (y.setWidth 32)
           else fminmaxLane ftz (var == 2) (x.setWidth 32) (y.setWidth 32)
  (r.1.setWidth 64, r.2)

/-- The operation at a node, with flags. A 32-bit integer sum is widened again from its low 32 bits. -/
def node (ftz : Bool) (ty var : Nat) (x y : DWord) : DWord × Word :=
  if ty = 4 then fltNode ftz var x y
  else if tyWide ty then (intNode ty var x y, 0#32)
  else (widen ty ((intNode ty var x y).setWidth 32), 0#32)

/-- What each lane contributes: its value after in32 for F32, or the identity (R198). -/
def contributions (ftz : Bool) (ty var : Nat) (act : Mask) (ls : List Lanes) : List DWord :=
  allLanes.map fun l =>
    if inMask act l then
      if ty = 4 then (flush32 ftz (src ls 0 l)).setWidth 64 else if tyWide ty then src64 ls 0 l else widen ty (src ls 0 l)
    else laneIdentity ty var

/-- One level of the pairwise tree: neighbours combined, lower lanes on the left, with the flags so far (R199). -/
def treeLevel (op : DWord → DWord → DWord × Word) : List DWord → List DWord × Word
  | x :: y :: r => let n := op x y
                   let t := treeLevel op r
                   (n.1 :: t.1, n.2 ||| t.2)
  | l => (l, 0#32)

/-- The root of the tree over 32 contributions and the flags of its 31 nodes. -/
def treeRoot (op : DWord → DWord → DWord × Word) (xs : List DWord) : DWord × Word :=
  let r := [0, 1, 2, 3, 4].foldl (fun (p : List DWord × Word) _ => let t := treeLevel op p.1; (t.1, p.2 ||| t.2)) (xs, 0#32)
  (r.1.headD 0#64, r.2)

/-- The values of the running combination: with each contribution, what stands before it and after it, and the flags (R200). -/
def scanSteps (op : DWord → DWord → DWord × Word) : DWord → List DWord → List (DWord × DWord) × Word
  | _, [] => ([], 0#32)
  | s, x :: r => let n := op s x
                 let t := scanSteps op n.1 r
                 ((s, n.1) :: t.1, n.2 ||| t.2)

/-- A result of a TY from 64-bit lane values, with flags that no active lane drops (R192). -/
def outWide (f : Fields) (act : Mask) (fl : Word) (g : Fin 32 → DWord) : FixedOut :=
  let o := if tyWide f.ty then outPair f.d act tagI64L tagI64H g else outLanes f.d act (tyTag f.ty) fun l => (g l).setWidth 32
  { o with flags := if act = 0#32 then 0#32 else fl }

/-- RED (R199). -/
def execRed (f : Fields) (s : State) : Outcome State Fault Refusal :=
  execFixed (.red f) f 6 (regSrcs f.a (tyExpect f.ty)) (fun v act ls =>
    let r := treeRoot (node v.fib.ftz f.ty f.var3) (contributions v.fib.ftz f.ty f.var3 act ls)
    outWide f act r.2 fun _ => r.1) s

/-- SCAN (R200). -/
def execScan (f : Fields) (s : State) : Outcome State Fault Refusal :=
  execFixed (.scan f) f 6 (regSrcs f.a (tyExpect f.ty)) (fun v act ls =>
    let r := scanSteps (node v.fib.ftz f.ty f.var3) (laneIdentity f.ty f.var3) (contributions v.fib.ftz f.ty f.var3 act ls)
    outWide f act r.2 fun l => let p := r.1.getD l.val (0#64, 0#64); if f.exc then p.1 else p.2) s

/-! ### REDMI (R201) -/

/-- Whether an F32 word is a NaN. -/
def nanWord (w : Word) : Bool := (fmtF32.decode w.toNat).isNan
/-- An F32 word as an integer in the order of R201: −0 below +0. -/
def orderKey (w : Word) : Int := if w.getLsbD 31 then -(w.toNat % 2 ^ 31 : Int) - 1 else w.toNat

/-- beats of R201 over a value and its index. -/
def beats (ty : Nat) (isMax : Bool) (e w : Word × Word) : Bool :=
  let nan (x : Word) : Bool := ty == 4 && nanWord x
  let key (x : Word) : Int := if ty = 4 then orderKey x else if ty = 0 then x.toInt else x.toNat
  if nan e.1 && nan w.1 then decide (e.2.toNat < w.2.toNat)
  else if nan w.1 then true
  else if nan e.1 then false
  else
    let less := if isMax then decide (key w.1 < key e.1) else decide (key e.1 < key w.1)
    less || (key e.1 == key w.1 && decide (e.2.toNat < w.2.toNat))

/-- REDMI (R201): the value, canonical when it is a NaN, then the index. -/
def execRedmi (f : Fields) (s : State) : Outcome State Fault Refusal :=
  execFixed (.redmi f) f 6 (regSrcs f.a [.tag (tyTag f.ty)] ++ regSrcs f.b [.tag tagN32]) (fun v act ls =>
    let isMax := f.var3 == 1
    let id := (laneIdentity f.ty (f.var3 + 1)).setWidth 32
    let e (l : Fin 32) : Word × Word :=
      if inMask act l then ((if f.ty = 4 then flush32 v.fib.ftz (src ls 0 l) else src ls 0 l), src ls 1 l)
      else (id, 0xFFFFFFFF#32)
    let w := (allLanes.drop 1).foldl (fun w l => if beats f.ty isMax (e l) w then e l else w) (e 0)
    let value := if f.ty = 4 ∧ nanWord w.1 then nan32 else w.1
    let bad := f.ty == 4 && (maskLanes act).any fun l => (fmtF32.decode (src ls 0 l).toNat).isSnan
    ⟨[(f.d, act, ⟨tyTag f.ty, lanesAll value⟩), (operandAdd f.d 1, act, ⟨tagN32, lanesAll w.2⟩)], flagIf bad flagNV⟩) s

/-! ### The paired word (R50-R53) -/

/-- What an operation of a pipe is: the tags its sources expect, its result tag (none: that of A), and its lane function
over a, b and the old d. -/
structure PairOp where
  expect : List Expect
  tag    : Option Tag
  fn     : Bool → Word → Word → Word → Word × Word

/-- The operations of pipe V0 (R51). -/
def pairOp0 (p : Nat) : PairOp :=
  let f2 (g : Bool → Word → Word → Word × Word) : PairOp := ⟨[.tag tagF32, .tag tagF32], some tagF32, fun z a b _ => g z a b⟩
  let h2 (t : Tag) (g : Word → Word → Word × Word) : PairOp := ⟨[.tag t, .tag t], some t, fun _ a b _ => g a b⟩
  match p with
  | 1 => f2 fun z a b => faddLane z .rne a b
  | 2 => f2 fun z a b => fsubLane z .rne a b
  | 3 => f2 fun z a b => fmulLane z .rne a b
  | 4 => ⟨[.tag tagF32, .tag tagF32, .tag tagF32], some tagF32, fun z a b d => ffmaLane z .rne a b d⟩
  | 5 => f2 fun z a b => fminmaxLane z false a b
  | 6 => f2 fun z a b => fminmaxLane z true a b
  | 7 => h2 tagF16 fun a b => hadd2Lane fmtF16 .rne a b
  | 8 => h2 tagF16 fun a b => hmul2Lane fmtF16 .rne a b
  | 9 => ⟨[.tag tagF16, .tag tagF16, .tag tagF16], some tagF16, fun _ a b d => hfma2Lane fmtF16 .rne a b d⟩
  | 10 => h2 tagBf16 fun a b => hadd2Lane fmtBf16 .rne a b
  | 11 => h2 tagBf16 fun a b => hmul2Lane fmtBf16 .rne a b
  | 12 => ⟨[.tag tagBf16, .tag tagBf16, .tag tagBf16], some tagBf16, fun _ a b d => hfma2Lane fmtBf16 .rne a b d⟩
  | _ => ⟨[.any], none, fun _ a _ _ => (a, 0#32)⟩

/-- The operations of pipe V1 (R51). -/
def pairOp1 (p : Nat) : PairOp :=
  let i2 (t : Tag) (g : Word → Word → Word) : PairOp := ⟨[.tag t, .tag t], some t, fun _ a b _ => (g a b, 0#32)⟩
  let a2 (ty : Nat) (g : Int → Int → Int) : PairOp := i2 (tyTag ty) fun a b => elemwise ty false (fun x y _ => g x y) a b 0#32
  let l2 (g : Word → Word → Word) : PairOp := ⟨[.any, .any], some tagN32, fun _ a b _ => (g a b, 0#32)⟩
  match p with
  | 1 => a2 0 (· + ·)
  | 2 => a2 0 (· - ·)
  | 3 => l2 (· &&& ·)
  | 4 => l2 (· ||| ·)
  | 5 => l2 (· ^^^ ·)
  | 6 => l2 fun a b => a &&& ~~~b
  | 7 => i2 tagN32 shiftLeft
  | 8 => i2 tagN32 shiftRight
  | 9 => ⟨[.tag tagS32, .tag tagN32], some tagS32, fun _ a b _ => (shiftArith a b, 0#32)⟩
  | 10 => a2 0 min
  | 11 => a2 0 max
  | 12 => a2 1 min
  | 13 => a2 1 max
  | 14 => ⟨[.any], none, fun _ a _ _ => (a, 0#32)⟩
  | 15 => ⟨[.tag tagF32, .tag tagF32], some tagF32, fun z a b _ => fminmaxLane z false a b⟩
  | _ => ⟨[.tag tagF32, .tag tagF32], some tagF32, fun z a b _ => fminmaxLane z true a b⟩

/-- An 8-bit index of the main file (R50). -/
def pairReg (n : BitVec 8) : Operand := .v (Fin.ofNat 768 n.toNat)

/-- The sources of one operation of a paired word. -/
def PairOp.srcs (o : PairOp) (a b d : BitVec 8) : List Src :=
  (o.expect.zip [pairReg a, pairReg b, pairReg d]).map fun p => .reg p.2 p.1

/-- The result of one operation, for its destination; none contributes nothing. -/
def PairOp.out (o : PairOp) (v : View) (act : Mask) (a d : BitVec 8) (ls : List Lanes) : FixedOut :=
  outFlags (pairReg d) act (o.tag.getD (v.reg (pairReg a)).tag) fun l => o.fn v.fib.ftz (src ls 0 l) (src ls 1 l) (src ls 2 l)

/-- The fields that the shared source reading looks at: the guard and hints of the paired word. -/
def pairGuardFields (p : PairFields) : Fields := ⟨0#8, .v 0, .v 0, .v 0, .none, p.guard, p.hints⟩

/-- PAIR (R53): both operations read before either writes; a fault of either stops both. -/
def execPair (p : PairFields) (s : State) : Outcome State Fault Refusal :=
  let o0 := pairOp0 p.p0.toNat
  let o1 := pairOp1 p.p1.toNat
  let s0 := if p.p0 = 0#5 then [] else o0.srcs p.a0 p.b0 p.d0
  let s1 := if p.p1 = 0#5 then [] else o1.srcs p.a1 p.b1 p.d1
  execFixed (.pair p) (pairGuardFields p) 4 (s0 ++ s1) (fun v act ls =>
    let r0 := if p.p0 = 0#5 then ⟨[], 0#32⟩ else o0.out v act p.a0 p.d0 ls
    let r1 := if p.p1 = 0#5 then ⟨[], 0#32⟩ else o1.out v act p.a1 p.d1 (ls.drop s0.length)
    ⟨r0.regs ++ r1.regs, r0.flags ||| r1.flags⟩) s

end Sys2Proof.Machine
end

