-- ==== Sys2Proof/Machine/HartMemory.lean ====
section
/-!
DEFINITION. What a hart does besides its instructions, as R393 names it and the RISC-V privileged architecture gives it
(PRESUMED: notes/assumptions): translation with its two stages, PMP, the interrupts that are pending and that would be taken, and
an access at the home banks with its region check (R363), alias check (R393) and poison (R406).
-/

namespace Sys2Proof.Machine

/-! ### Translation (R393) -/

/-- What a hart's access is; a cbo.clean or cbo.inval is permitted where a load or a store is, and fails as a store (Zicbom). The last three
are the accesses of HLV, HLVX and HSV, which go as in a virtual mode. -/
inductive HartKind where
  | fetch
  | load
  | store
  | cbo
  | hlv
  | hlvx
  | hsv
  deriving DecidableEq, Repr

namespace HartKind
def pageFault : HartKind → Nat
  | .fetch => 12
  | .load | .hlv | .hlvx => 13
  | .store | .cbo | .hsv => 15
def accessFault : HartKind → Nat
  | .fetch => 1
  | .load | .hlv | .hlvx => 5
  | .store | .cbo | .hsv => 7
def guestFault : HartKind → Nat
  | .fetch => 20
  | .load | .hlv | .hlvx => 21
  | .store | .cbo | .hsv => 23
def misaligned : HartKind → Nat
  | .fetch => 0
  | .load | .hlv | .hlvx => 4
  | .store | .cbo | .hsv => 6
def isStore : HartKind → Bool
  | .store | .hsv => true
  | _ => false
/-- Whether the access goes as in a virtual mode from outside one. -/
def guest : HartKind → Bool
  | .hlv | .hlvx | .hsv => true
  | _ => false
end HartKind

/-- Why a PTE cannot be read: no partition memory is at its place (R363), its line is poisoned (R406), or it cannot be read now: the way
to its home bank is held (R411, R414), or the record of its poison has no place (R337). -/
inductive PteTrouble where
  | noMemory (pa : Nat)
  | poison (pa : Nat)
  | wait
  deriving DecidableEq, Repr

/-- Why a hart's address has no translation: the cause of the exception; the guest physical address of a guest-page fault, and whether a
table of the first stage stood there; and what is wrong with the read of a PTE, but for a refusal by the PMP or a failed link. -/
structure HartErr where
  cause : Nat
  gpa   : Option Nat
  walk  : Bool
  pte   : Option PteTrouble
  deriving DecidableEq, Repr

/-- A failure with nothing but its cause. -/
def HartErr.plain (cause : Nat) : HartErr := ⟨cause, none, false, none⟩

/-- The level at which a hart's walk begins under MODE 8 (Sv39), 9 (Sv48) and 10 (Sv57). -/
def satpTop (mode : Nat) : Option Nat := if mode = 8 then some 2 else if mode = 9 then some 3 else if mode = 10 then some 4 else none

/-- A hart's leaf PTE as a translation, when it is well formed: a page of any level, or a range of 64 KiB (Svnapot); its memory type has no
effect (Svpbmt). -/
def hartLeaf (xen pbmt : Bool) (level p va : Nat) : Option TlbEntry :=
  let mt := p / 2 ^ 61 % 4
  if mt = 3 ∨ (mt ≠ 0 ∧ ¬ pbmt) then none
  else if level = 4 then
    if pteBit p 63 ∨ pteBit p 54 ∨ (¬ xen ∧ p / 2 ^ 55 % 64 ≠ 0) ∨ ptePpn p % 2 ^ 36 ≠ 0 then none
    else some { asid := 0#12, world := 0, va := va / 2 ^ 48 * 2 ^ 48, size := 48, pa := ptePpn p * 4096,
                r := pteBit p 1, w := pteBit p 2, x := pteBit p 3, u := pteBit p 4, a := pteBit p 6, d := pteBit p 7,
                attr := if xen then p / 2 ^ 59 % 4 else 0, pworld := if xen then p / 2 ^ 55 % 16 else 0 }
  else match leafEntry xen 0#12 0 level (p - mt * 2 ^ 61) va with
    | .ok e => some e
    | .error _ => none

/-- A hart's walk from a level down: the leaf, or what the read or the PTE that fails gives. pbmt says whether a leaf may name a memory
type. -/
def hartWalk {ε : Type} (read : Nat → Except ε Nat) (xen pbmt : Bool) (fault : ε) (va : Nat) : Nat → Nat → Except ε TlbEntry
  | level, table => match read (table + 8 * (va / 2 ^ levelShift level % 512)) with
    | .error c => .error c
    | .ok p =>
      if ¬ pteBit p 0 ∨ (pteBit p 2 ∧ ¬ pteBit p 1) then .error fault
      else if pteBit p 1 ∨ pteBit p 3 then
        match hartLeaf xen pbmt level p va with
        | some e => .ok e
        | none => .error fault
      else match level with
        | 0 => .error fault
        | l + 1 =>
          if p / 2 ^ 54 ≠ 0 ∨ pteBit p 4 ∨ pteBit p 6 ∨ pteBit p 7 then .error fault
          else hartWalk read xen pbmt fault va l (ptePpn p * 4096)

/-- Whether a leaf permits an access in a mode (Svade: A and D are never set). -/
def TlbEntry.hartPermits (e : TlbEntry) (k : HartKind) (priv : Nat) (sum mxr : Bool) : Bool :=
  let mode := if priv = 0 then e.u else !e.u || (sum && k != .fetch)
  let right := match k with
    | .fetch | .hlvx => e.x
    | .load | .hlv => e.r || (mxr && e.x)
    | .store | .hsv => e.w
    | .cbo => e.r || (mxr && e.x) || e.w
  mode && right && e.a && (!k.isStore || e.d)

def State.xenOf (s : State) (part : Nat) : Bool := ((s.part? part).map Part.xen).getD false

/-- A PTE at a physical address of a partition, when a region holds it. -/
def State.pteAt (s : State) (part pa : Nat) : Option Nat :=
  if (s.regionAt part pa).isSome then some (leNat (s.readMem part pa 8)) else none

/-! ### Physical memory protection (R393) -/

/-- The number of ones below the lowest zero of a number, in at most so many bits. -/
def trailingOnes : Nat → Nat → Nat
  | 0, _ => 0
  | n + 1, x => if x % 2 = 1 then trailingOnes n (x / 2) + 1 else 0

/-- The range of a PMP entry: none when it is off, or when the range of a TOR entry is empty. -/
def Hart.pmpRange (h : Hart) (i : Nat) : Option (Nat × Nat) :=
  let addr (j : Nat) : Nat := (h.csrOf (0x3B0 + j)).toNat % 2 ^ 54
  match fieldOf (h.csrOf (0x3A0 + 2 * (i / 8))) (8 * (i % 8) + 3) 2 with
  | 1 => let lo := if i = 0 then 0 else addr (i - 1) * 4; if lo < addr i * 4 then some (lo, addr i * 4) else none
  | 2 => some (addr i * 4, addr i * 4 + 4)
  | 3 => let n := trailingOnes 54 (addr i); some (addr i / 2 ^ (n + 1) * 2 ^ (n + 1) * 4, (addr i / 2 ^ (n + 1) + 1) * 2 ^ (n + 1) * 4)
  | _ => none

/-- Whether the PMP entries permit an access: the lowest that any byte matches decides, and must hold every byte; without one, M-mode
alone is permitted. -/
def Hart.pmpOk (h : Hart) (priv : Nat) (k : HartKind) (pa n : Nat) : Bool :=
  match (List.range 16).find? fun i => match h.pmpRange i with
    | some (lo, hi) => decide (pa < hi ∧ lo < pa + n)
    | none => false with
  | none => priv == 3
  | some i =>
    let cfg := fieldOf (h.csrOf (0x3A0 + 2 * (i / 8))) (8 * (i % 8)) 8
    let whole := match h.pmpRange i with
      | some (lo, hi) => decide (lo ≤ pa ∧ pa + n ≤ hi)
      | none => false
    let may := match k with
      | .fetch => cfg / 4 % 2 == 1
      | .load | .hlv | .hlvx => cfg % 2 == 1
      | .store | .hsv => cfg / 2 % 2 == 1
      | .cbo => cfg % 4 != 0
    whole && ((priv == 3 && cfg / 128 % 2 == 0) || may)

/-! ### Walks -/

/-- A PTE that a hart reads, as a supervisor's load; the access ends in an access fault where the PMP does not permit the read, where no
region holds the PTE, a violation (R363), over a failed link (R405), and where the line is poisoned (R406). -/
def State.readPte (s : State) (part : Nat) (r : HartRef) (k : HartKind) (pa : Nat) : Except HartErr Nat :=
  let why (w : Option PteTrouble) : Except HartErr Nat := .error ⟨k.accessFault, none, false, w⟩
  if !(s.hartOf r).pmpOk 1 .load pa 8 then why none
  else match s.pteAt part pa with
    | none => why (some (.noMemory pa))
    | some p =>
      if (s.way r.slice part pa).errs then why none
      else if s.way r.slice part pa = .held then why (some .wait)
      else if (s.line part pa).poison then why (some (if s.recordRoom r.slice then .poison pa else .wait))
      else .ok p

/-- Whether menvcfg, or henvcfg for a first stage under a second, lets a leaf name a memory type (Svpbmt). -/
def Hart.pbmt (h : Hart) (virt : Bool) : Bool := (h.csrOf 0x30A).getLsbD 62 && (!virt || (h.csrOf 0x60A).getLsbD 62)

/-- The second stage: a guest physical address under hgatp. The access there is of a kind of its own, a load where a table of the first
stage is read. -/
def State.guestXlate (s : State) (part : Nat) (r : HartRef) (k : HartKind) (walk : Bool) (gpa : Nat) : Except HartErr (Nat × TlbEntry) :=
  let h := s.hartOf r
  let fault : HartErr := ⟨k.guestFault, some gpa, walk, none⟩
  let w := (h.csrOf 0x680).toNat
  match satpTop (w / 2 ^ 60) with
  | none => .ok (gpa, .bare)
  | some top =>
    let bits := levelShift (top + 1)
    if gpa ≥ 2 ^ (bits + 2) then .error fault
    else match hartWalk (s.readPte part r k) (s.xenOf part) (h.pbmt false) fault (gpa % 2 ^ bits) top
        (w % 2 ^ 44 * 4096 + 4096 * (gpa / 2 ^ bits)) with
      | .error c => .error c
      | .ok e =>
        if e.hartPermits (if walk then .load else k) 0 false (fieldOf (h.csrOf 0x300) 19 1 = 1) then .ok (e.pa + gpa % 2 ^ e.size, e)
        else .error fault

/-- The mode in which a hart's access is made: MPRV gives loads and stores of M-mode the mode of MPP and MPV, and HLV, HLVX and HSV go as in
the virtual mode that hstatus.SPVP names. -/
def Hart.accessMode (h : Hart) (k : HartKind) : Nat × Bool :=
  let st := h.csrOf 0x300
  if k.guest then (fieldOf (h.csrOf 0x600) 8 1, true)
  else if h.priv = 3 ∧ k ≠ .fetch ∧ st.getLsbD 17 then
    let p := fieldOf st 11 2
    (p, decide (p < 3) && st.getLsbD 39)
  else (h.priv, h.virt)

/-- A hart's virtual address as a physical one with the leaf that gives it, or why there is none. -/
def State.hartTranslate (s : State) (part : Nat) (r : HartRef) (k : HartKind) (va : DWord) : Except HartErr (Nat × TlbEntry) :=
  let h := s.hartOf r
  let m := h.accessMode k
  let fault : HartErr := .plain k.pageFault
  if m.1 = 3 then .ok (va.toNat, .bare)
  else
    let stage2 (walk : Bool) (gpa : Nat) : Except HartErr (Nat × TlbEntry) :=
      if m.2 then s.guestXlate part r k walk gpa else .ok (gpa, .bare)
    let w := (if m.2 then h.csrOf 0x280 else h.csrOf 0x180).toNat
    let st := h.csrOf 0x300
    let vst := if m.2 then h.csrOf 0x200 else st
    match satpTop (w / 2 ^ 60) with
    | none => stage2 false va.toNat
    | some top =>
      let bits := levelShift (top + 1)
      let sx := va.toNat / 2 ^ (bits - 1)
      if sx ≠ 0 ∧ sx ≠ 2 ^ (65 - bits) - 1 then .error fault
      else
        let read (pa : Nat) : Except HartErr Nat := match stage2 true pa with
          | .error c => .error c
          | .ok (pa, _) => s.readPte part r k pa
        match hartWalk read (s.xenOf part) (h.pbmt m.2) fault (va.toNat % 2 ^ bits) top (w % 2 ^ 44 * 4096) with
        | .error c => .error c
        | .ok e =>
          if e.hartPermits k m.1 (vst.getLsbD 18) (st.getLsbD 19 || vst.getLsbD 19) then
            match stage2 false (e.pa + va.toNat % 2 ^ e.size) with
            | .error c => .error c
            | .ok (pa, g) => .ok (pa, if m.2 && satpTop ((h.csrOf 0x680).toNat / 2 ^ 60) != none then g else e)
          else .error fault

/-! ### Interrupts (R395, R396) -/

/-- An instruction of so many bytes retires: minstret counts it unless mcountinhibit stops that, and the next one follows. -/
def Hart.retire (h : Hart) (len : Nat) : Hart :=
  { h with pc := h.pc + BitVec.ofNat 64 len, instret := if (h.csrOf 0x320).getLsbD 2 then h.instret else h.instret + 1#64 }

/-- Whether an interrupt file signals its hart: delivery is on and an identity is pending, enabled and below the threshold. -/
def ImsicFile.signals (f : ImsicFile) : Bool :=
  f.delivery == 1#64 && f.pending.any fun i => f.enabled.contains i && (f.threshold == 0#64 || decide (i < f.threshold.toNat))

def Hart.fileOf (h : Hart) (f : Nat) : ImsicFile := h.files.get f ⟨[], [], 0#64, 0#64⟩

/-- The guest files that signal, by the bits of hgeip. -/
def Hart.hgeip (h : Hart) : DWord :=
  BitVec.ofNat 64 (((List.range 7).map fun i => boolNat (h.fileOf (2 + i)).signals * 2 ^ (i + 1)).sum)

/-- The interrupts pending for a hart: those that mip and hvip hold, and its files' signals (MEIP, SEIP, SGEIP, and VSEIP of the guest file
that hstatus.VGEIN names). -/
def Hart.mip (h : Hart) : DWord :=
  let g := fieldOf (h.csrOf 0x600) 12 6
  h.csrOf 0x344 ||| (h.csrOf 0x645 &&& 0x440#64)
    ||| (if (h.fileOf 0).signals then 0x800#64 else 0#64) ||| (if (h.fileOf 1).signals then 0x200#64 else 0#64)
    ||| (if 1 ≤ g ∧ (h.fileOf (1 + g)).signals then 0x400#64 else 0#64)
    ||| (if h.hgeip &&& h.csrOf 0x607 ≠ 0#64 then 0x1000#64 else 0#64)

/-- The highest-priority cause of a set of pending interrupts. -/
def firstIrq (bits : DWord) : Option Nat := [11, 3, 7, 9, 1, 5, 12, 10, 2, 6, 13].find? fun i => bits.getLsbD i

/-- mideleg and hideleg as they read: the virtual supervisor's interrupts and the guest files' are always delegated. -/
def Hart.mideleg (h : Hart) : DWord := h.csrOf 0x303 ||| 0x1444#64

/-- vsip and vsie as a virtual supervisor sees them: what hideleg names, with its three interrupts at a supervisor's places. -/
def Hart.virtualBits (h : Hart) (bits : DWord) : DWord :=
  let b := bits &&& h.mideleg &&& h.csrOf 0x603
  ((b &&& 0x444#64) >>> 1) ||| (b &&& 0x2000#64)

/-- The identity that an interrupt file gives first: the lowest that is pending, enabled and below the threshold. -/
def ImsicFile.top (f : ImsicFile) : Nat :=
  ((List.range 2048).find? fun i => f.pending.contains i && f.enabled.contains i && (f.threshold == 0#64 || decide (i < f.threshold.toNat))).getD 0

/-- The interrupt that a virtual supervisor is given, with its priority number (vstopi): from its interrupts, its external one as the guest
file or hvictl ranks it, or the one that hvictl injects. -/
def Hart.virtualTop (h : Hart) : Option (Nat × Nat) :=
  let c := h.csrOf 0x609
  let g := fieldOf (h.csrOf 0x600) 12 6
  let iid := fieldOf c 16 12
  let prio := fieldOf c 0 8
  let bits := h.virtualBits h.mip &&& h.virtualBits (h.csrOf 0x304)
  let file := (h.fileOf (1 + g)).top
  let ext : Option (Nat × Nat) :=
    if !bits.getLsbD 9 then none
    else if 1 ≤ g ∧ file ≠ 0 then some (9, file)
    else if g = 0 ∧ iid = 9 ∧ prio ≠ 0 then some (9, prio)
    else some (9, 256)
  if c.getLsbD 30 then
    if iid = 0 then ext
    else
      let rank := if prio ≠ 0 then prio else if c.getLsbD 9 then 257 else 0
      match ext with
      | some e => if e.2 < rank then some e else some (iid, rank)
      | none => some (iid, rank)
  else match ext with
    | some e => some e
    | none => (firstIrq (bits &&& ~~~0x200#64)).map fun i => (i, 256)

/-- The interrupt that a hart would take now: its target, 3 for M, 1 for HS and 0 for VS, and its cause. -/
def Hart.interrupt (h : Hart) : Option (Nat × Nat) :=
  let p := h.mip &&& h.csrOf 0x304
  let mdeleg := h.mideleg
  let hdeleg := h.csrOf 0x603
  let m := if h.priv < 3 || (h.csrOf 0x300).getLsbD 3 then firstIrq (p &&& ~~~mdeleg) else none
  let hs := if h.priv < 3 && (h.virt || h.priv == 0 || (h.csrOf 0x300).getLsbD 1) then firstIrq (p &&& mdeleg &&& ~~~hdeleg) else none
  let vs := if h.priv < 3 && h.virt && (h.priv == 0 || (h.csrOf 0x200).getLsbD 1) then h.virtualTop.map Prod.fst else none
  match m, hs, vs with
  | some c, _, _ => some (3, c)
  | none, some c, _ => some (1, c)
  | none, none, some c => some (0, c)
  | none, none, none => none

/-- A hart takes an interrupt. -/
def Hart.takeInterrupt (h : Hart) (i : Nat × Nat) : Hart :=
  if i.1 = 3 then h.trapM i.2 true 0#64 else if i.1 = 1 then h.trapHS i.2 true 0#64 else h.trapVS i.2 true 0#64

/-! ### The start of a hart, and mtime (R394, R396) -/

/-- A hart leaves reset at an address in M-mode, with a0 holding its mhartid (R394); its interrupt files stay. -/
def Hart.released (h : Hart) (r : HartRef) (start : DWord) : Hart :=
  { Hart.reset with
    files := h.files, stores := h.stores, mtimecmp := h.mtimecmp, start := h.start, pc := start, run := .running
    x := ⟨[(10, BitVec.ofNat 64 (4 * r.slice + r.hart))]⟩
    csr := ⟨[(0xF14, BitVec.ofNat 64 (4 * r.slice + r.hart))]⟩ }

/-- mtime of a slice (R396). -/
def Slice.mtime (x : Slice) : DWord := BitVec.ofNat 64 (x.cyc.toNat / 10)

/-! ### The least partition -/

/-- A partition of one slice with one region: the least that reaches memory. -/
def Part.single : Part :=
  { cfg := ⟨0, 0, 1, 1, 0, 0, 1, 1, 0#384, 0, 0#64⟩, slices := [0], boot := 0, tried := [], inReset := false, watchdog := none,
    version := 0, kdig := 0#384, xen := false, bindings := .empty, regions := ⟨[(0, ⟨0, 0, false, 0, 0, 0⟩)]⟩, routes := .empty, held := false, closed := [],
    mailbox := .reset, launches := .empty, placing := .empty }

/-! ### An access at the home banks (R363, R393, R406) -/

/-- The ASID that a hart's write leaves in OWNER (R213): that of satp for a hart in S or U mode, and 0 for one in M-mode, whatever mode
MPRV gives its access. -/
def Hart.owner (h : Hart) (k : HartKind) : BitVec 12 :=
  let m := h.accessMode k
  if h.priv = 3 || m.2 || (satpTop ((h.csrOf 0x180).toNat / 2 ^ 60)).isNone then 0#12 else rootAsid (h.csrOf 0x180)

/-- The violation that a hart's request is (R363): a slice outside the partition, or no valid region. A store to an interrupt file is an
MSI, whose target outside the partition is cause 4. -/
def State.hartViolation (s : State) (part : Nat) (k : HartKind) (pa : Nat) : Option Nat :=
  match systemSlice pa with
  | some n => if (s.slice n).part = some part then none else some (if k.isStore ∧ (imsicTarget pa).isSome then 4 else 1)
  | none => if (s.regionAt part pa).isSome then none else some 2

/-- How an access of a hart goes: it may perform, it ends in an exception, or it waits for a place for its record (R337). -/
inductive HartTry where
  | ok
  | trap (cause : Nat) (s : State)
  | wait
  deriving DecidableEq, Repr

/-- Record 0x81 of a hart that consumes poison (R406, R412). -/
def hartPoison (asid : BitVec 12) (pa : Nat) : Rec :=
  { Rec.blank with cause := 0x81#8, asid := asid, address := BitVec.ofNat 64 pa, detail := BitVec.ofNat 64 (poisonDetail pa) }

/-- What an access of a hart does with its line: it names the address alone (dw.awake), it writes the whole line without a fetch
(cbo.zero), or it fetches the line. -/
inductive HartTouch where
  | nothing
  | line
  | fetch
  deriving DecidableEq, Repr

/-- A hart takes the exception of an access of a kind: its value is the address, a guest virtual one where the access goes as in a virtual
mode. -/
def State.hartFault (s : State) (r : HartRef) (k : HartKind) (cause : Nat) (va : DWord) : State :=
  s.modHart r fun h => h.trapGuest cause va (h.accessMode k).2 none false

/-- A hart takes the exception of an address that has no translation: a PTE's read that was refused is logged (R363), and a poisoned one
leaves its record (R406). Where the read waits, the hart does too. -/
def State.hartErr (s : State) (r : HartRef) (part : Nat) (k : HartKind) (e : HartErr) (va : DWord) : State :=
  let trap (s : State) : State := s.modHart r fun h => h.trapGuest e.cause va (h.accessMode k).2 e.gpa e.walk
  match e.pte with
  | none => trap s
  | some .wait => s
  | some (.noMemory pa) => trap (s.logViolation r.slice 0 ((s.hartViolation part .load pa).getD 2) r.hart (BitVec.ofNat 64 pa))
  | some (.poison pa) => trap (s.postError r.slice (hartPoison ((s.hartOf r).owner k) pa))

/-- A hart's write has performed: bytes at the home banks, and the requests that wait on a cell in them (R241). -/
def State.hartWrite (s : State) (part : Nat) (owner : BitVec 12) : List (Nat × Nat) → List Byte → State
  | [], _ => s
  | p :: r, bs =>
    let s := s.portWrite part p.1 (bs.take p.2) owner
    let s := if p.1 % 64 < 8 then s.grantAll part (p.1 / 64 * 64) else s
    s.hartWrite part owner r (bs.drop p.2)

/-! ### Stores of a hart that perform later (R262)

RISC-V leaves the order of a hart's stores to different bytes open unless a fence, or an atomic's .rl, orders them: a plain store may
perform after a later one, the launch store among them (R262). -/

/-- Whether pieces of memory meet those of a store that has not performed. -/
def HartStoreHeld.meets (p : HartStoreHeld) (part : Nat) (l : List (Nat × Nat)) : Bool :=
  p.part == part && p.pieces.any fun a => l.any fun b => decide (a.1 < b.1 + b.2 ∧ b.1 < a.1 + a.2)

/-- Whether pieces of memory meet a store of a hart that has not performed. -/
def State.hartMeets (s : State) (h : HartRef) (part : Nat) (l : List (Nat × Nat)) : Bool := (s.hartOf h).stores.any fun p => p.meets part l

/-- A store that has not performed performs: the n-th, and before it none of the others. -/
def State.hartPerform (s : State) (h : HartRef) (n : Nat) : State :=
  match (s.hartOf h).stores[n]? with
  | none => s
  | some p => (s.modHart h fun x => { x with stores := x.stores.eraseIdx n }).hartWrite p.part p.owner p.pieces p.bytes

/-- Every store of a hart performs, in program order: a fence of its writes, an atomic's release, or an access that meets one. -/
def State.hartDrain (s : State) (h : HartRef) : State := (s.hartOf h).stores.foldl (fun s _ => s.hartPerform h 0) s

/-- The bytes of a plain store: they perform at once, or later in a turn that leaves them. -/
def State.hartStored (s : State) (h : HartRef) (part : Nat) (owner : BitVec 12) (l : List (Nat × Nat)) (bs : List Byte) : State :=
  if (s.hartOf h).later then s.modHart h fun x => { x with stores := x.stores ++ [⟨part, owner, l, bs⟩] }
  else s.hartWrite part owner l bs

/-- The checks of a hart's access to one line of memory: the PMP, the region, the way to the home bank (R411, R414), the alias check under
XEN where the access touches the line, and poison where it fetches it. -/
def State.hartCheck (s : State) (r : HartRef) (part : Nat) (k : HartKind) (e : TlbEntry) (pa n : Nat) (touch : HartTouch) : HartTry :=
  let h := s.hartOf r
  if !h.pmpOk (h.accessMode k).1 k pa n then .trap k.accessFault s
  else if (s.regionAt part pa).isNone then
    .trap k.accessFault (s.logViolation r.slice 0 ((s.hartViolation part k pa).getD 2) r.hart (BitVec.ofNat 64 pa))
  else if (s.way r.slice part pa).errs then .trap k.accessFault s
  else if s.way r.slice part pa = .held then .wait
  else if touch != .nothing && s.xenOf part && (s.aliasCause part pa e).isSome then .trap k.accessFault s
  else if touch == .fetch && (s.line part pa).poison then
    if s.recordRoom r.slice then .trap k.accessFault (s.postError r.slice (hartPoison (h.owner k) pa)) else .wait
  else .ok

/-- Two bytes of a hart's instruction, or the state in which the exception of the fetch has been taken; a fetch that waits for its record
leaves the state as it is. -/
def State.fetchParcel (s : State) (r : HartRef) (at_ : DWord) : Except State Nat :=
  match (s.slice r.slice).part with
  | none => .error (s.hartFault r .fetch 1 at_)
  | some p => match s.hartTranslate p r .fetch at_ with
    | .error c => .error (s.hartErr r p .fetch c at_)
    | .ok (pa, e) => match s.hartCheck r p .fetch e pa 2 .fetch with
      | .trap c s => .error (s.hartFault r .fetch c at_)
      | .wait => .error s
      | .ok => .ok (leNat (s.readMem p pa 2))

/-- A hart's next instruction (R393, R397): the word at its pc, or the two bytes of a compressed one. -/
def State.fetchHart (s : State) (r : HartRef) : Except State Word :=
  let pc := (s.hartOf r).pc
  match s.fetchParcel r pc with
  | .error s => .error s
  | .ok lo =>
    if lo % 4 ≠ 3 then .ok (BitVec.ofNat 32 lo)
    else match s.fetchParcel r (pc + 2#64) with
      | .error s => .error s
      | .ok hi => .ok (BitVec.ofNat 32 (lo + hi * 2 ^ 16))

end Sys2Proof.Machine
end

