-- ==== Sys2Proof/Machine/Launch.lean ====
section
/-!
DEFINITION. The launch unit (R23, R65, R129-R131, R206, R313-R316): the launch table, the refill from a spill ring, the dequeue with
its reads and checks, and the placement of teams.
-/

namespace Sys2Proof.Machine

open Host (Outcome)

/-! ### A unit's reads -/

/-- Why a read of a unit of a slice gives no bytes: it fails, at an address where the firewall may have refused it (R363), or its home
bank is held (R411, R414). -/
inductive UnitFail where
  | fails (at_ : Option Nat)
  | waits
  deriving DecidableEq, Repr

/-- Bytes at physical addresses as a unit of a slice reads them: an error response or poison fails the read (R316). -/
def State.unitRead (s : State) (slice part pa n : Nat) : Except UnitFail (List Byte) :=
  let lines := (List.range ((pa + n - 1) / 128 - pa / 128 + 1)).map fun i => (pa / 128 + i) * 128
  match (pa :: lines.drop 1).find? fun a => (s.way slice part a).errs with
  | some a => .error (.fails (some a))
  | none =>
    if lines.any fun a => s.way slice part a == .held then .error .waits
    else if lines.any fun a => (s.line part a).poison then .error (.fails none)
    else .ok (s.readMem part pa n)

/-! ### The launch table (R313, R314) -/

/-- A register with the bits of a mask taken from a value. -/
def maskedWrite (old mask value : DWord) : DWord := (old &&& ~~~mask) ||| (value &&& mask)

/-- An entry with one of its four doublewords written under a mask of the bits written: the reserved bits stay zero, ERRLOW is read
only, and a WORD with V = 1 sets PUT and TAKE to 0. -/
def LaunchEntry.write (e : LaunchEntry) (dword : Nat) (mask value : DWord) : LaunchEntry :=
  match dword with
  | 0 =>
    let e := { e with word := maskedWrite e.word mask value &&& 0xC1FFFFFFFFFFFFF8#64 }
    if mask ≠ 0#64 ∧ e.word.getLsbD 63 then { e with put := 0#32, take := 0#32, waiting := [] } else e
  | 1 => { e with desc := maskedWrite e.desc mask value &&& ~~~0x7F#64 }
  | 2 => { e with ring := maskedWrite e.ring mask value &&& 0xFFFFFFFFFFFFF01F#64 }
  | _ => { e with errcnt := (maskedWrite (e.errcnt.setWidth 64) mask value).setWidth 32 }

/-- The mask and the value of a write of some bytes at an offset in an aligned doubleword. -/
def byteMask (offset size : Nat) : DWord := BitVec.ofNat 64 ((2 ^ (8 * size) - 1) * 2 ^ (8 * (offset % 8)))
def byteValue (offset : Nat) (value : DWord) : DWord := value <<< (8 * (offset % 8))

/-- LAUNCH_TABLE_WRITE (R313): the table changes; each core compares by its own view until the change reaches it. -/
def execLaunchTableWrite (part : Nat) (index : BitVec 8) (offset size : Nat) (value : DWord) (s : State) :
    Outcome State Fault Refusal :=
  .next (s.modLaunch part index.toNat fun e => e.write (offset / 8) (byteMask offset size) (byteValue offset value))

/-- LAUNCH_TABLE_TAKE_EFFECT (R313): a core compares by the entry as it stands now. -/
def execLaunchTableTakeEffect (core : Nat) (index : BitVec 8) (s : State) : Outcome State Fault Refusal :=
  match (s.slice (sliceOf core)).part with
  | none => .next s
  | some p =>
    let e := ((s.part? p).map fun x => x.launches.get index.toNat .empty).getD .empty
    .next (s.modCore core fun k => { k with launchView := k.launchView.set index.toNat e.word })

/-- SPILL_REFILL (R314): the ring's oldest argument moves to the FIFO when a place is free; one whose read is refused or poisoned is
lost, and the entry counts it (DESIGN CHOICE: notes/assumptions). -/
def execSpillRefill (part : Nat) (index : BitVec 8) (s : State) : Outcome State Fault Refusal :=
  match (s.launchOf part index.toNat).ringOf with
  | none => .next s
  | some (base, n) =>
    let s := s.flushRing part index.toNat base n
    let e := s.launchOf part index.toNat
    let at_ := base + 8 * (e.take.toNat % n)
    if e.put = e.take ∨ 64 ≤ e.fifo.length then .next s
    else match s.unitRead (s.unitSlice part) part at_ 8 with
      | .error .waits => .next s
      | .error (.fails a) =>
        .next ((a.elim s fun a => s.refuseUnit (s.unitSlice part) part a).modLaunch part index.toNat fun e => { e.error at_ with take := e.take + 1#32 })
      | .ok bs =>
        let arg := BitVec.ofNat 64 (leNat bs)
        .next (s.modLaunch part index.toNat fun e => { e with fifo := e.fifo ++ [arg], take := e.take + 1#32 })

/-- A piece of a page as the launch unit reads it in a process's space: the bytes, unless the translation, a permission, the alias
check, the region, the way or poison fails it, or a home bank is held. -/
def State.spacePiece (s : State) (part : Nat) (root : DWord) (world : Nat) (sup : Bool) (va : DWord) (n : Nat) : Except UnitFail (List Byte) :=
  if !canonical va then .error (.fails none)
  else match s.walkEnd (s.unitSlice part) part root world va with
    | .held => .error .waits
    | .lost _ pa => .error (.fails (some pa))
    | .result (.error _) => .error (.fails none)
    | .result (.ok e) =>
      let pa := e.phys va
      let lines := (List.range ((pa + n - 1) / 128 - pa / 128 + 1)).map fun i => (pa / 128 + i) * 128
      if (permCause e sup true false world).isSome || lines.any (fun a => (s.aliasCause part a e).isSome) then .error (.fails none)
      else s.unitRead (s.unitSlice part) part pa n

/-- Bytes of a process's space. -/
def State.spaceBytes (s : State) (part : Nat) (d : Desc) (va : DWord) (n : Nat) : Except UnitFail (List Byte) :=
  (rangePieces va.toNat n).foldl (fun acc p => match acc, s.spacePiece part d.root d.world d.sup p.1 p.2 with
    | .ok l, .ok b => .ok (l ++ b)
    | .ok _, .error f => .error f
    | .error f, _ => .error f) (.ok [])

/-- A field of a byte string. -/
def field (bs : List Byte) (off n : Nat) : Nat := leNat ((bs.drop off).take n)
def allZero (bs : List Byte) (off n : Nat) : Bool := ((bs.drop off).take n).all (· == 0#8)

/-! ### Descriptor, header and process-group table (R65, R130, R315) -/

/-- A launch descriptor read field by field; the checks are apart. -/
def Desc.parse (bs : List Byte) : Desc :=
  { image := BitVec.ofNat 64 (field bs 0 8), root := BitVec.ofNat 64 (field bs 8 8), grid := BitVec.ofNat 64 (field bs 16 8),
    maxgrp := field bs 24 2, slots := field bs 26 1, alloc := field bs 27 1, scratch := field bs 28 4, nt := field bs 32 1,
    nm := field bs 33 1, cluster := field bs 34 1, cw := field bs 35 1 % 16, ch := field bs 35 1 / 16, prio := field bs 36 1 % 4,
    sup := field bs 36 1 / 4 % 2 == 1, pin := field bs 36 1 / 8 % 2 == 1, world := field bs 37 1,
    pgt := BitVec.ofNat 64 (field bs 40 8), cond := BitVec.ofNat 64 (field bs 48 8) }

/-- Whether a descriptor keeps its ranges and rules (R129, R315); supok is the word's SUPOK, cores the partition's cores. -/
def Desc.wellFormed (d : Desc) (bs : List Byte) (supok : Bool) (cores : Nat) : Bool :=
  decide (d.root.toNat / 2 ^ 60 = 10 ∧ d.root.toNat / 2 ^ 56 % 16 = 0 ∧ 1 ≤ d.gridX ∧ 1 ≤ d.gridY ∧ 1 ≤ d.gridZ ∧ d.teams ≤ 2 ^ 31
    ∧ 1 ≤ d.maxgrp ∧ d.maxgrp ≤ 256 ∧ 1 ≤ d.slots ∧ d.slots ≤ 128 ∧ 1 ≤ d.alloc ∧ d.alloc ≤ 24 ∧ d.scratch ≤ 2097152
    ∧ d.nt ≤ 16 ∧ d.nm ≤ 16 ∧ 1 ≤ d.cluster ∧ d.cluster ≤ 12 ∧ d.cw * d.ch = d.cluster ∧ field bs 36 1 < 16 ∧ d.world ≤ 15)
  && allZero bs 38 2 && allZero bs 56 72 && (supok || !d.sup)
  && (!d.pin || decide (d.cluster = 1 ∧ d.teams ≤ cores)) && d.teams % d.cluster == 0

/-- A kernel image header (R65). -/
def Header.parse (bs : List Byte) : Header :=
  { genOff := field bs 8 4, genWords := field bs 12 4, tmplOff := field bs 16 4, tmplLen := field bs 20 4, constOff := field bs 24 4,
    constLen := field bs 28 4, dataOff := field bs 32 4, dataLen := field bs 36 4, entry := field bs 40 4,
    windows := (List.range 8).map fun k => (field bs (48 + 8 * k) 4, field bs (52 + 8 * k) 4) }

/-- Whether a header's magic and version match and its sections keep R61: in order, each at a multiple of 4,096. -/
def Header.wellFormed (h : Header) (bs : List Byte) : Bool :=
  decide (field bs 0 4 = 0x54485744 ∧ field bs 4 2 = 1 ∧ field bs 6 2 = 0 ∧ h.genOff % 4096 = 0 ∧ h.tmplOff % 4096 = 0
    ∧ h.constOff % 4096 = 0 ∧ h.dataOff % 4096 = 0 ∧ 4096 ≤ h.genOff ∧ h.genOff + 12 * h.genWords ≤ h.tmplOff
    ∧ h.tmplLen % 12 = 0 ∧ h.tmplOff + h.tmplLen ≤ h.constOff ∧ h.constOff + h.constLen ≤ h.dataOff)
  && allZero bs 44 4 && allZero bs 112 16

/-- What ends an entry of a launch word: it is malformed, a read at an address of its own failed, at a place where the firewall may have
refused it, or a read waits. -/
inductive LaunchStop where
  | malformed
  | unread (addr : Nat) (at_ : Option Nat)
  | waits
  deriving DecidableEq, Repr

/-- A read of the launch unit as what it means for the entry; addr is the address that ERRLOW would record. -/
def readOr {α : Type} (addr : Nat) (r : Except UnitFail α) : Except LaunchStop α :=
  match r with
  | .ok x => .ok x
  | .error .waits => .error .waits
  | .error (.fails a) => .error (.unread addr a)

/-- A read whose failure makes the entry malformed. -/
def readWell {α : Type} (r : Except UnitFail α) : Except LaunchStop α :=
  match r with
  | .ok x => .ok x
  | .error .waits => .error .waits
  | .error (.fails _) => .error .malformed

/-- The rank of a partition in a process-group table and the number of ranks (R130): 0 and 1 without a table; the entry is malformed when
the table cannot be read, breaks a rule or does not hold the partition. -/
def State.rankIn (s : State) (part : Nat) (d : Desc) : Except LaunchStop (Nat × Nat) :=
  if d.pgt = 0#64 then .ok (0, 1)
  else match readWell (s.spaceBytes part d d.pgt 64) with
    | .error e => .error e
    | .ok h =>
      let n := field h 0 4
      if d.pgt.toNat % 64 ≠ 0 ∨ n < 1 ∨ 4096 < n ∨ field h 4 2 * field h 6 2 * field h 8 2 ≠ n ∨ !allZero h 10 54 then .error .malformed
      else match readWell (s.spaceBytes part d (d.pgt + 64#64) (32 * n)) with
        | .error e => .error e
        | .ok bs =>
          if (List.range n).any fun q => !allZero bs (32 * q + 9) 7 then .error .malformed
          else match (List.range n).find? fun q => field bs (32 * q) 8 == Config.packageId.toNat && field bs (32 * q + 8) 1 == part with
            | some q => .ok (q, n)
            | none => .error .malformed

/-! ### Dequeue (R23, R316) -/

/-- An entry of a launch word that ends: ERRCNT counts it; ERRLOW keeps its value where no address is named. -/
def LaunchEntry.ended (e : LaunchEntry) (addr : Option Nat) : LaunchEntry :=
  e.error (addr.getD e.errlow.toNat)

/-- The condition word of a descriptor: whether the launch proceeds or is discarded. -/
def State.condition (s : State) (part : Nat) (d : Desc) : Except UnitFail Bool :=
  if d.cond = 0#64 then .ok true
  else if d.cond.toNat % 4 ≠ 0 then .error (.fails none)
  else (s.spaceBytes part d d.cond 4).map fun b => leNat b != 0

/-- What the dequeue of an argument makes: a launch to place, nothing, or the end of the entry. -/
def State.readLaunch (s : State) (part idx : Nat) (p : Part) (e : LaunchEntry) (arg : DWord) : Except LaunchStop (Option Launching) :=
  match readOr e.desc.toNat (s.unitRead (s.unitSlice part) part e.desc.toNat 128) with
  | .error x => .error x
  | .ok bs =>
    let d := Desc.parse bs
    if !d.wellFormed bs (e.word.getLsbD 62) (16 * p.slices.length) then .error .malformed
    else match readOr d.image.toNat (s.spaceBytes part d d.image 128) with
      | .error x => .error x
      | .ok hb =>
        let h := Header.parse hb
        if !h.wellFormed hb then .error .malformed
        else match s.rankIn part d with
          | .error x => .error x
          | .ok (q, n) => match readOr d.cond.toNat (s.condition part d) with
            | .error x => .error x
            | .ok false => .ok none
            | .ok true =>
              let cl := d.teams / d.cluster
              .ok (some ⟨idx, d, h, arg, q, n, q * cl / n * d.cluster, (q + 1) * cl / n * d.cluster⟩)

/-- LAUNCH_DEQUEUE (R316): the word's oldest argument leaves the FIFO, unless one of its reads is held. -/
def execLaunchDequeue (part : Nat) (index : BitVec 8) (s : State) : Outcome State Fault Refusal :=
  match s.part? part with
  | none => .next s
  | some p =>
    let e := p.launches.get index.toNat .empty
    match e.fifo with
    | [] => .next s
    | arg :: rest =>
      let s' := s.modLaunch part index.toNat fun e => { e with fifo := rest }
      match s.readLaunch part index.toNat p e arg with
      | .error .waits => .next s
      | .error .malformed => .next (s'.modLaunch part index.toNat fun e => e.ended none)
      | .error (.unread addr a) =>
        .next ((a.elim s' fun a => s'.refuseUnit (s.unitSlice part) part a).modLaunch part index.toNat fun e => e.ended (some addr))
      | .ok none => .next s'
      | .ok (some l) => .next (if l.next < l.bound
          then s'.modPart part fun p => { p with placing := p.placing.set index.toNat (p.placing.get index.toNat [] ++ [l]) } else s')

/-! ### Placement (R22, R23, R63, R129, R206, R315) -/

/-- The registers of a placed team's context (R63). -/
def launchRegs (l : Launching) (x y z clrank : Nat) : SMap DWord :=
  let two (lo hi : Nat) : DWord := BitVec.ofNat 64 (lo + hi * 2 ^ 32)
  ⟨[(1, l.arg), (2, BitVec.ofNat 64 x), (3, two y z), (4, l.desc.grid), (5, two clrank l.desc.cluster), (6, two l.rank l.nranks)]⟩

/-- The team of a linear index as it starts. -/
def Launching.team (l : Launching) (part index clock : Nat) (cluster : Option (Nat × Nat)) (granules : List Nat) : Team :=
  let d := l.desc
  let x := index % d.gridX
  let y := index / d.gridX % d.gridY
  let z := index / (d.gridX * d.gridY)
  { gen := { g := launchRegs l x y z (index % d.cluster), pc := l.hdr.entry, queue := [], opened := none, sup := d.sup, run := .ready clock,
             done := 0, busy := false, waitPage := none, walkFaults := [], kept := [] }
    part := part, launch := l.index, desc := d, hdr := l.hdr, arg := l.arg, x := x, y := y, z := z, index := index,
    clrank := index % d.cluster, rank := l.rank, nranks := l.nranks, cluster := cluster, granules := granules, entries := .empty,
    entryNext := [], bindings := [], bars := .empty, cbars := .empty, preq := false, preqNext := none, deadline := none,
    saving := none, holdIssue := false, ended := false }

/-- Whether the launch unit may place a team on a core: its slice is in the partition and accepts placements (R21) and is not in
the recovery sequence (R414), the partition is not held (R411), and neither the core nor one of its sub-partitions is marked for a spare
or lost (R410). -/
def State.placeable (s : State) (part : Nat) (p : Part) (core : Nat) : Bool :=
  let x := s.slice (sliceOf core)
  x.part == some part && !p.closed.contains (sliceOf core) && !x.err.esum.getLsbD 7 && !p.held && !x.err.waitCore.getLsbD (core % 16)
    && !(s.core core).retired

/-- One team placed on one core, none when the core has not the room. -/
def State.placeOne (s : State) (part : Nat) (p : Part) (l : Launching) (index core : Nat) (cluster : Option (Nat × Nat)) : Option State :=
  if !s.placeable part p core then none
  else match (s.core core).takeTeam l.desc with
    | none => none
    | some (k, ctx, gs) =>
      let k := { k with teams := k.teams.set ctx (l.team part index (k.clock + 1) cluster gs) }
      some ((s.setCore core k).acquireAll core)

/-- The teams of a cluster placed on the cores of a rectangle, in order of rank. -/
def State.placeRanks (s : State) (part : Nat) (p : Part) (l : Launching) (id : Nat) : List (Nat × Nat) → Option State
  | [] => some s
  | (c, core) :: r => match s.placeOne part p l (l.next + c) core (some (id, l.desc.cluster)) with
    | none => none
    | some s => s.placeRanks part p l id r

/-- The cores of a partition in ascending core number (R315). -/
def Part.cores (p : Part) : List Nat :=
  (List.range (16 * Config.slices)).filter fun c => p.slices.contains (sliceOf c)

/-- The next team of a launch, or the next cluster with its north-west team, placed on a core. -/
def State.placeNext (s : State) (part : Nat) (p : Part) (l : Launching) (core : Nat) : Option State :=
  let d := l.desc
  if d.cluster = 1 then
    if d.pin && p.cores[l.next]? != some core then none else s.placeOne part p l l.next core none
  else
    let m := meshOf core
    let cores := (List.range d.cluster).map fun c => clusterCore m.1 m.2 d.cw c
    if cores.any Option.isNone then none
    else State.placeRanks { s with freeCtr := s.freeCtr + 1 } part p l s.freeCtr ((cores.filterMap id).zipIdx.map fun (q : Nat × Nat) => (q.2, q.1))

/-- How the walks of the pages of the constant windows end (R206): with nothing when every page translates. -/
def State.windowsEnd (s : State) (part : Nat) (l : Launching) : Option UnitFail :=
  (l.hdr.windows.flatMap fun w => rangePieces (l.desc.image.toNat + l.hdr.constOff + 4 * w.1) (4 * w.2)).findSome? fun q =>
    if !canonical q.1 then some (.fails none)
    else match s.walkEnd (s.unitSlice part) part l.desc.root l.desc.world q.1 with
      | .held => some .waits
      | .lost _ pa => some (.fails (some pa))
      | .result (.error _) => some (.fails none)
      | .result (.ok e) => (permCause e l.desc.sup true false l.desc.world).map fun _ => .fails none

/-- TEAM_PLACE (R23): the launch at the head of a word's places its next team or cluster on a core that has room; a constant window
that does not translate ends the entry. -/
def execTeamPlace (part : Nat) (index : BitVec 8) (core : Nat) (s : State) : Outcome State Fault Refusal :=
  match s.part? part with
  | none => .next s
  | some p => match p.placing.get index.toNat [] with
    | [] => .next s
    | l :: rest => match s.placeNext part p l core with
      | none => .next s
      | some s' =>
        let s' := s'.takeRequests
        let put (s : State) (ls : List Launching) : State := s.modPart part fun p => { p with placing := p.placing.set index.toNat ls }
        match s.windowsEnd part l with
        | some .waits => .next s
        | some (.fails a) =>
          let s := a.elim s fun a => s.refuseUnit (s.unitSlice part) part a
          .next ((put s rest).modLaunch part index.toNat fun e => e.ended none)
        | none =>
          let l := { l with next := l.next + l.desc.cluster }
          .next (put s' (if l.next < l.bound then l :: rest else rest))

end Sys2Proof.Machine
end

