-- ==== Sys2Proof/Machine/Network.lean ====
section
/-!
DEFINITION. The Ethernet port (R401) and the receiving side of the Adeser transport (R402): descriptor rings, frames, the link, and
the exposures.
-/

namespace Sys2Proof.Machine

open Host (Outcome)

/-! ### Rings (R401) -/

/-- The base and the length of a descriptor ring, none when LOG2N is outside 4 to 16. -/
def ringOf (r : DWord) : Option (Nat × Nat) :=
  let n := (r.extractLsb' 0 5).toNat
  if 4 ≤ n ∧ n ≤ 16 then some ((r &&& ~~~0xFFF#64).toNat, 2 ^ n) else none

def State.modNet (s : State) (slice : Nat) (f : Net → Net) : State := s.modSlice slice fun x => { x with net := f x.net }

/-- TX_POST (R401). -/
def execTxPost (slice : Nat) (tail : Word) (s : State) : Outcome State Fault Refusal :=
  .next (s.modNet slice fun n => { n with txTail := tail })
/-- RX_POST (R401). -/
def execRxPost (slice : Nat) (tail : Word) (s : State) : Outcome State Fault Refusal :=
  .next (s.modNet slice fun n => { n with rxTail := tail })

/-- EtherType of a frame, past a VLAN tag. -/
def etherType (f : List Byte) : Nat :=
  let t := beNat ((f.drop 12).take 2)
  if t = 0x8100 then beNat ((f.drop 16).take 2) else t
/-- EtherType of the Adeser transport. -/
def adeserType : Nat := 0x88B5

/-- The port completes a descriptor: the length it names, DONE and ERR are written. -/
def State.doneDescriptor (s : State) (part at_ len : Nat) (err : Bool) : State :=
  s.deviceWrite part (at_ + 8) (leBytes 2 len ++ [if err then 3#8 else 1#8]) 0#12

/-- The lines that bytes at a physical address touch, by their first bytes. -/
def touchedLines (pa n : Nat) : List Nat := (List.range ((pa + n - 1) / 128 - pa / 128 + 1)).map fun i => (pa / 128 + i) * 128

/-- Where the port of a slice gets no answer to a request for the bytes of a buffer, and whether a home bank of it is held. -/
def State.bufferBad (s : State) (slice part pa n : Nat) : Option Nat := (touchedLines pa n).find? fun a => (s.way slice part a).errs
def State.bufferHeld (s : State) (slice part pa n : Nat) : Bool := (touchedLines pa n).any fun a => s.way slice part a == .held

/-- A descriptor of a ring as the port of a slice reads it: the buffer's address and its length. -/
def State.portDescriptor (s : State) (slice part at_ : Nat) : Except UnitFail (Nat × Nat) :=
  (s.unitRead slice part at_ 16).map fun bs => (field bs 0 8, field bs 8 2)

/-- FRAME_TX_DONE (R401): the oldest posted transmit descriptor is completed. A frame that the port cannot send, because the link is
down, its buffer does not answer or is poisoned, it is longer than 9,216 bytes or its EtherType is the transport's, completes with
ERR. A descriptor that does not answer is passed over; what the firewall refuses is logged (R363). -/
def execFrameTxDone (slice : Nat) (err : Bool) (s : State) : Outcome State Fault Refusal :=
  let x := s.slice slice
  match x.part, ringOf x.net.txRing with
  | some p, some (base, n) =>
    let ends (s : State) (frames : List (List Byte)) : Outcome State Fault Refusal :=
      let s := s.modNet slice fun n => { n with txHead := n.txHead + 1#32, frames := n.frames ++ frames }
      .next (s.sendMsi slice p x.net.msiAddr x.net.msiData)
    let at_ := base + 16 * (x.net.txHead.toNat % n)
    if x.net.txHead = x.net.txTail then .next s
    else match s.portDescriptor slice p at_ with
      | .error .waits => .next s
      | .error (.fails a) => ends (a.elim s fun a => s.refuseUnit slice p a) []
      | .ok (buf, len) =>
        if s.bufferHeld slice p buf len then .next s
        else
          let frame := s.readMem p buf len
          let poor := (touchedLines buf len).any fun a => (s.line p a).poison
          let bad := err || !x.net.up || (s.bufferBad slice p buf len).isSome || poor || decide (9216 < len) || etherType frame == adeserType
          let s := (s.bufferBad slice p buf len).elim s fun a => s.refuseUnit slice p a
          ends (s.doneDescriptor p at_ len bad) (if bad then [] else [frame])
  | _, _ => .next s

/-- ETHERNET_FRAME_RX (R401): a frame that is not the transport's goes to the oldest posted receive buffer, with its length; one that
the buffer does not hold, or that does not answer, completes with ERR; without a posted buffer it is lost. -/
def execEthernetFrameRx (slice : Nat) (frame : List Byte) (s : State) : Outcome State Fault Refusal :=
  let x := s.slice slice
  match x.part, ringOf x.net.rxRing with
  | some p, some (base, n) =>
    let ends (s : State) : Outcome State Fault Refusal :=
      let s := s.modNet slice fun n => { n with rxHead := n.rxHead + 1#32 }
      .next (s.sendMsi slice p x.net.msiAddr x.net.msiData)
    let at_ := base + 16 * (x.net.rxHead.toNat % n)
    if !x.net.up || x.net.rxHead = x.net.rxTail || etherType frame == adeserType || decide (9216 < frame.length) then .next s
    else match s.portDescriptor slice p at_ with
      | .error .waits => .next s
      | .error (.fails a) => ends (a.elim s fun a => s.refuseUnit slice p a)
      | .ok (buf, len) =>
        let fits := decide (frame.length ≤ len)
        if fits && s.bufferHeld slice p buf frame.length then .next s
        else
          let refused := if fits then s.bufferBad slice p buf frame.length else none
          let bad := !fits || refused.isSome
          let s := refused.elim s fun a => s.refuseUnit slice p a
          let s := if bad then s else s.deviceWrite p buf frame 0#12
          ends (s.doneDescriptor p at_ (if bad then len else frame.length) bad)
  | _, _ => .next s

/-- ETHERNET_LINK_CHANGE (R395): the link's state, and APLIC source 5 when it changes. -/
def execEthernetLinkChange (slice : Nat) (up : Bool) (s : State) : Outcome State Fault Refusal :=
  if (s.slice slice).net.up = up then .next s
  else .next ((s.modNet slice fun n => { n with up := up }).pulse slice 5)

/-! ### Exposures (R401, R402) -/

/-- A peer entry as written, with the counter of the entry in force (R403). -/
def Peer.withCounters (p : Peer) (old : Option Peer) : Peer :=
  match old with
  | some q => { p with rtail := q.rtail }
  | none => p

/-- EXPOSURE_TAKE_EFFECT (R401): a slice's port goes by the exposures and the peer entries as they are written now. -/
def execExposureTakeEffect (slice : Nat) (s : State) : Outcome State Fault Refusal :=
  .next (s.modNet slice fun n =>
    { n with viewExp := n.exposures, viewPeers := n.peers.mapVals fun i p => p.withCounters (n.viewPeers.find i) })

def Exposure.pages (e : Exposure) : Nat := e.len.toNat / 4096
def Exposure.world (e : Exposure) : Nat := (e.len.extractLsb' 4 4).toNat
def Exposure.permits (e : Exposure) (put : Bool) : Bool := if put then e.len.getLsbD 1 else e.len.getLsbD 0

/-- The exposure in force that serves a segment: its key matches and its rights permit it, and the segment lies within it. -/
def Net.exposureFor (n : Net) (g : AdeserSegment) : Option Exposure :=
  n.viewExp.vals.find? fun e =>
    e.key != 0#64 && e.key == g.key && e.permits g.put && decide (g.offset.toNat + g.len ≤ e.pages * 4096)

/-- The translation of an address under the tables of an exposing process, whose satp names their levels. -/
def State.exposedWalk (s : State) (part : Nat) (root : DWord) (world : Nat) (va : DWord) : Option TlbEntry :=
  match satpTop (root.toNat / 2 ^ 60) with
  | none => none
  | some top =>
    let bits := levelShift (top + 1)
    let sx := va.toNat / 2 ^ (bits - 1)
    if sx ≠ 0 ∧ sx ≠ 2 ^ (65 - bits) - 1 then none
    else match walkFrom (fun pa => leNat (s.readMem part pa 8)) (s.xenOf part) (rootAsid root) world (va.toNat % 2 ^ bits) top
        ((root.extractLsb' 0 44).toNat * 4096) with
      | .ok e => some e
      | .error _ => none

/-- The physical address of a segment's bytes of one page under its exposure as a user access of its world, when it passes every check. -/
def State.exposedPiece (s : State) (slice part : Nat) (e : Exposure) (put : Bool) (va : DWord) (n : Nat) : Option Nat :=
  match s.exposedWalk part e.root e.world va with
  | none => none
  | some t =>
    let pa := t.phys va
    if (permCause t false (!put) put e.world).isSome || (s.way slice part pa).errs then none
    else if (touchedLines pa n).any fun a => (s.aliasCause part a t).isSome then none
    else some pa

/-- The physical pieces of a segment's bytes, page by page, when every piece passes. -/
def State.exposedAt (s : State) (slice part : Nat) (e : Exposure) (g : AdeserSegment) : Option (List (Nat × Nat)) :=
  let ps := (rangePieces (e.vbase + g.offset).toNat g.len).map fun p =>
    ((s.exposedPiece slice part e g.put (BitVec.ofNat 64 (p.1.toNat % 2 ^ 64)) p.2).map fun pa => (pa, p.2))
  if ps.all Option.isSome then some (ps.filterMap id) else none

/-- Bytes written at physical pieces, in order. -/
def State.putPieces (s : State) (part : Nat) (owner : BitVec 12) : List (Nat × Nat) → List Byte → State
  | [], _ => s
  | p :: r, bs => (s.portWrite part p.1 (bs.take p.2) owner).putPieces part owner r (bs.drop p.2)

/-- ADESER_SEGMENT_RX (R402): a segment is served under its exposure, or refused without a record; the reply goes to the sender. A
put that writes a launch word is refused there (R254), and so is a get of poisoned bytes. -/
def execAdeserSegmentRx (slice : Nat) (seg : AdeserSegment) (s : State) : Outcome State Fault Refusal :=
  let x := s.slice slice
  let reply (s : State) (refused : Bool) (bs : List Byte) : State :=
    s.modNet slice fun n => { n with replies := n.replies ++ [(seg, refused, bs)] }
  match x.part, x.net.exposureFor seg with
  | some p, some e => match s.exposedAt slice p e seg with
    | none => .next (reply s true [])
    | some l =>
      if l.any fun a => s.way slice p a.1 == .held then .next s
      else if seg.put then
        match l.flatMap fun a => (s.partLaunches p a.1 a.2).map fun w => (w.1, a.1) with
        | [] => .next (reply (s.putPieces p (rootAsid e.root) l (seg.data.take seg.len)) false [])
        | ws => .next (reply (ws.foldl (fun s w => s.refuseLaunch p w.1 w.2) s) true [])
      else if l.any fun a => (touchedLines a.1 a.2).any fun x => (s.line p x).poison then .next (reply s true [])
      else .next (reply s false (l.flatMap fun a => s.readMem p a.1 a.2))
  | _, _ => .next (reply s true [])

end Sys2Proof.Machine
end

