-- ==== Sys2Proof/Machine/Devices.lean ====
section
/-!
DEFINITION. PCI Express (R398-R400): bonding, training, the IOMMU's directories and translation (the RISC-V IOMMU's layout, PRESUMED:
notes/assumptions), device reads, writes and MSIs, and the INTx messages (R395).
-/

namespace Sys2Proof.Machine

open Host (Outcome)

/-! ### Root ports (R395, R398, R399) -/

def State.modPort (s : State) (slice : Nat) (f : RootPort → RootPort) : State := s.modSlice slice fun x => { x with port := f x.port }

/-- The partner that DIR names: east or south, none at the edge. -/
def bondPartner (slice : Nat) (south : Bool) : Option Nat :=
  if south then (if slice / 4 < 3 then some (slice + 4) else none) else (if slice % 4 < 3 then some (slice + 1) else none)

/-- Whether a partner may be bonded: it is in the partition, not bonded, and its link is neither up nor training (R399, R404). -/
def State.bondable (s : State) (slice : Nat) (partner : Option Nat) : Bool :=
  match partner with
  | none => false
  | some m => (s.slice m).part.isSome && (s.slice m).part == (s.slice slice).part && (s.slice m).port.partner.isNone
      && !(s.slice m).port.linkUp && !(s.slice m).port.training

/-- BOND_REQUEST (R399): a write of the bond register. -/
def execBondRequest (slice : Nat) (value : Word) (s : State) : Outcome State Fault Refusal :=
  let south := value.getLsbD 2
  if !value.getLsbD 0 then .next (s.modPort slice fun p => { p with dir := south, bond := false, refused := false })
  else if s.bondable slice (bondPartner slice south) then
    .next (s.modPort slice fun p => { p with dir := south, bond := true, refused := false })
  else .next (s.modPort slice fun p => { p with dir := south, bond := false, refused := true })

/-- Whether a slice's port is the upper half of a bond: its partner lies west or north of it. -/
def RootPort.upper (p : RootPort) (slice : Nat) : Bool := p.partner.any fun m => decide (m < slice)

/-- PCIE_LINK_TRAINING (R398, R399): a training begins, or goes on without a link, or brings the link up; a requested bond comes into
force, one no longer requested ends. A bond whose partner may not be bonded any more is refused then (DESIGN CHOICE:
notes/assumptions). The upper half of a bond trains with its lower. -/
def execPcieLinkTraining (slice : Nat) (up : Bool) (s : State) : Outcome State Fault Refusal :=
  let p := (s.slice slice).port
  if p.upper slice then .next s
  else
    let s := match p.partner with
      | some m => s.modPort m fun q => { q with partner := none }
      | none => s
    let asked := if p.bond then bondPartner slice p.dir else none
    let want := if s.bondable slice asked then asked else none
    let refuse := asked.isSome && want.isNone
    let s := match want with
      | some m => s.modPort m fun q => { q with partner := some slice, linkUp := false, training := false }
      | none => s
    .next (s.modPort slice fun q =>
      { q with linkUp := up, training := !up, partner := want, bond := q.bond && !refuse, refused := q.refused || refuse })

/-- INTX_MESSAGE (R395): INTA to INTD of the root port are wired sources 1 to 4. -/
def execIntxMessage (slice : Nat) (pin : Fin 4) (asserted : Bool) (s : State) : Outcome State Fault Refusal :=
  .next (s.wire slice (pin.val + 1) asserted)

/-! ### The IOMMU (R400) -/

/-- An 8-byte register of the IOMMU: ddtp at 0x10, fqb at 0x28, fqh and fqt at 0x30 and 0x34, fqcsr at 0x4C;
cqb at 0x18, cqh and cqt at 0x20 and 0x24, cqcsr at 0x48; ipsr at 0x54, icvec at 0x2F8 and the MSI table from 0x300. -/
def Iommu.reg32 (x : Iommu) (off : Nat) : Word := x.regs.get off 0#32
def Iommu.reg64 (x : Iommu) (off : Nat) : Nat := (x.reg32 off).toNat + (x.reg32 (off + 4)).toNat * 2 ^ 32

/-- What the IOMMU knows of a request: the first stage's table, the second stage's, the PSCID of a process context, and the MSI table
with its mask and pattern. -/
structure DevSpace where
  fsc     : Nat
  hgatp   : Nat
  pscid   : Option (BitVec 12)
  msiptp  : Nat
  msiMask : Nat
  msiPat  : Nat
  deriving DecidableEq, Repr

/-- Why the IOMMU stops a request: the cause of its record, and iotval2, which holds the guest physical address of a guest page fault with
bit 0 for an access of the first stage's tables. trouble says that a table's read was refused (R363) or waits (R414). -/
structure DevFault where
  cause   : Nat
  iotval2 : Nat
  trouble : Option PteTrouble
  deriving DecidableEq, Repr

/-- The place in a directory of a number of levels that indexes a device directory: the leaf by requester ID bits [5:0], the middle by
[14:6], the root by [23:15]. -/
def ddIndex (rid : Nat) (level : Nat) : Nat :=
  match level with
  | 0 => rid % 64
  | 1 => rid / 64 % 512
  | _ => rid / 2 ^ 15 % 512

/-- An entry of 8 bytes of a table, at a physical address, as the IOMMU of a slice reads it; the cause given where no region holds it or the
way to it has failed, and corrupt where its line is poisoned. -/
def State.dirWord (s : State) (slice part fault corrupt pa : Nat) : Except DevFault Nat :=
  if (s.regionAt part pa).isNone then .error ⟨fault, 0, some (.noMemory pa)⟩
  else if (s.way slice part pa).errs then .error ⟨fault, 0, none⟩
  else if s.way slice part pa = .held then .error ⟨fault, 0, some .wait⟩
  else if (s.line part pa).poison then .error ⟨corrupt, 0, none⟩
  else .ok (leNat (s.readMem part pa 8))

/-- The device directory from a level down to a leaf context: an entry that is not valid is cause 258, one with a reserved bit 259. -/
def State.ddWalk (s : State) (slice part rid : Nat) : Nat → Nat → Except DevFault Nat
  | 0, page => .ok (page + 64 * ddIndex rid 0)
  | l + 1, page => match s.dirWord slice part 257 268 (page + 8 * ddIndex rid (l + 1)) with
    | .error f => .error f
    | .ok e =>
      if e % 2 = 0 then .error ⟨258, 0, none⟩
      else if e / 2 % 2 ^ 9 ≠ 0 ∨ e / 2 ^ 54 ≠ 0 then .error ⟨259, 0, none⟩
      else s.ddWalk slice part rid l (e / 2 ^ 10 % 2 ^ 44 * 4096)

/-- A PTE that the IOMMU reads for a request. -/
def State.devPte (s : State) (slice part : Nat) (k : HartKind) (pa : Nat) : Except DevFault Nat := s.dirWord slice part k.accessFault 274 pa

/-- The second stage of a device's address: the request's kind names the fault, and the access is of a kind of its own; implicit says that
the first stage's tables or a directory are what is read. -/
def State.devGuest (s : State) (slice part : Nat) (d : DevSpace) (k access : HartKind) (implicit : Bool) (gpa : Nat) :
    Except DevFault (Nat × TlbEntry) :=
  let fault : DevFault := ⟨k.guestFault, gpa / 4 * 4 + boolNat implicit, none⟩
  match satpTop (d.hgatp / 2 ^ 60) with
  | none => .ok (gpa, .bare)
  | some top =>
    let bits := levelShift (top + 1)
    if 2 ^ (bits + 2) ≤ gpa then .error fault
    else match hartWalk (s.devPte slice part k) (s.xenOf part) true fault (gpa % 2 ^ bits) top
        (d.hgatp % 2 ^ 44 * 4096 + 4096 * (gpa / 2 ^ bits)) with
      | .error f => .error f
      | .ok e => if e.hartPermits access 0 false false then .ok (e.pa + gpa % 2 ^ e.size, e) else .error fault

/-- The process directory from a level down to a process context, whose tables stand at guest physical addresses under a second stage. -/
def State.pdWalk (s : State) (slice part : Nat) (d : DevSpace) (k : HartKind) (pasid : Nat) : Nat → Nat → Except DevFault Nat
  | 0, page => (s.devGuest slice part d k .load true (page + 16 * (pasid % 256))).map (·.1)
  | l + 1, page => match s.devGuest slice part d k .load true (page + 8 * (pasid / 2 ^ (8 + 9 * l) % 512)) with
    | .error f => .error f
    | .ok (pa, _) => match s.dirWord slice part 265 269 pa with
      | .error f => .error f
      | .ok e =>
        if e % 2 = 0 then .error ⟨266, 0, none⟩
        else if e / 2 % 2 ^ 9 ≠ 0 ∨ e / 2 ^ 54 ≠ 0 then .error ⟨267, 0, none⟩
        else s.pdWalk slice part d k pasid l (e / 2 ^ 10 % 2 ^ 44 * 4096)

/-- Whether the translation control of a device context asks for what the IOMMU lacks (ATS, PRI, hardware updates of A and D, another byte
order, 32-bit tables), sets a reserved bit, or has a default process without process directories. -/
def tcBad (tc : Nat) : Bool :=
  tc / 2 % 8 ≠ 0 || tc / 64 % 8 ≠ 0 || tc / 2 ^ 10 ≠ 0 || (tc / 2 ^ 9 % 2 = 1 && tc / 32 % 2 = 0)

/-- Whether a first stage's table register names a mode that no stage has, or sets a reserved bit. -/
def modeBad (w : Nat) : Bool := (w / 2 ^ 60 ≠ 0 && (satpTop (w / 2 ^ 60)).isNone) || w / 2 ^ 44 % 2 ^ 16 ≠ 0

/-- Whether the second stage's names a mode that it lacks, or a root that is not aligned to its 16 KiB. -/
def guestModeBad (w : Nat) : Bool := w / 2 ^ 60 ≠ 0 && ((satpTop (w / 2 ^ 60)).isNone || w % 4 ≠ 0)

/-- Whether the words of a device context that follow its translation control are misconfigured (cause 259): iohgatp, the reserved bits of
the ta word, the first stage or the process directories, MSI translation, and the reserved word. -/
def contextBad (tc : Nat) (w : Nat → Nat) : Bool :=
  guestModeBad (w 1) || w 2 % 2 ^ 12 ≠ 0 || w 2 / 2 ^ 32 ≠ 0
    || (if tc / 32 % 2 = 0 then modeBad (w 3) else decide (3 < w 3 / 2 ^ 60) || w 3 / 2 ^ 44 % 2 ^ 16 ≠ 0)
    || 1 < w 4 / 2 ^ 60 || w 4 / 2 ^ 44 % 2 ^ 16 ≠ 0 || w 5 / 2 ^ 52 ≠ 0 || w 6 / 2 ^ 52 ≠ 0 || w 7 ≠ 0

/-- The context of a process of a device context. -/
def State.devProcess (s : State) (slice part : Nat) (base : DevSpace) (k : HartKind) (q : Nat) : Except DevFault DevSpace :=
  let levels := base.fsc / 2 ^ 60
  if levels = 0 then .ok { base with fsc := 0 }
  else if 3 < levels then .error ⟨259, 0, none⟩
  else if 2 ^ (if levels = 1 then 8 else if levels = 2 then 17 else 20) ≤ q then .error ⟨260, 0, none⟩
  else match s.pdWalk slice part base k q (levels - 1) (base.fsc % 2 ^ 44 * 4096) with
    | .error f => .error f
    | .ok pc => match s.dirWord slice part 265 269 pc, s.dirWord slice part 265 269 (pc + 8) with
      | .ok ta, .ok fsc =>
        if ta % 2 = 0 then .error ⟨266, 0, none⟩
        else if modeBad fsc || ta / 2 ^ 3 % 2 ^ 9 ≠ 0 || ta / 2 ^ 32 ≠ 0 then .error ⟨267, 0, none⟩
        else .ok { base with fsc := fsc, pscid := some (BitVec.ofNat 12 (ta / 2 ^ 12)) }
      | .error f, _ => .error f
      | _, .error f => .error f

/-- The device context of a requester, whose directory may have fewer levels than requester IDs ask for, and whether it keeps the
faults of its translations from the queue. -/
def State.devContext (s : State) (slice part : Nat) (rid : BitVec 16) : Except DevFault (Nat × DevSpace) :=
  let ddtp := (s.slice slice).iommu.reg64 0x10
  let mode := ddtp % 16
  if mode = 0 then .error ⟨256, 0, none⟩
  else if mode = 1 then .ok (1, ⟨0, 0, none, 0, 0, 0⟩)
  else if 4 < mode then .error ⟨259, 0, none⟩
  else if (mode = 2 ∧ 64 ≤ rid.toNat) ∨ (mode = 3 ∧ 2 ^ 15 ≤ rid.toNat) then .error ⟨260, 0, none⟩
  else match s.ddWalk slice part rid.toNat (mode - 2) (ddtp / 2 ^ 10 % 2 ^ 44 * 4096) with
    | .error f => .error f
    | .ok at_ => match s.dirWord slice part 257 268 at_ with
      | .error f => .error f
      | .ok tc =>
        let w (i : Nat) : Nat := leNat (s.readMem part (at_ + 8 * i) 8)
        if tc % 2 = 0 then .error ⟨258, 0, none⟩
        else if tcBad tc || contextBad tc w then .error ⟨259, 0, none⟩
        else .ok (tc, ⟨w 3, w 1, none, w 4, w 5, w 6⟩)

/-- The context of a request, or the fault that ends it. -/
def State.devSpace (s : State) (slice part : Nat) (rid : BitVec 16) (pasid : Option (BitVec 20)) (k : HartKind) : Except DevFault DevSpace :=
  match s.devContext slice part rid with
  | .error f => .error f
  | .ok (tc, base) =>
    if (s.slice slice).iommu.reg64 0x10 % 16 = 1 then .ok base
    else if tc / 32 % 2 = 0 then (if pasid.isSome then .error ⟨260, 0, none⟩ else .ok base)
    else match pasid with
      | some q => s.devProcess slice part base k q.toNat
      | none => if tc / 2 ^ 9 % 2 = 1 then s.devProcess slice part base k 0 else .ok { base with fsc := 0 }

/-- Whether a fault is recorded: a device context with DTF keeps the faults of its own translations out of the queue. -/
def State.faultShown (s : State) (slice part : Nat) (rid : BitVec 16) (f : DevFault) : Bool :=
  match s.devContext slice part rid with
  | .ok (tc, _) => tc / 16 % 2 == 0 || (decide (256 ≤ f.cause ∧ f.cause ≤ 259))
  | .error _ => true

/-- A device's address as a guest physical one: the first stage as a user access. -/
def State.devFirst (s : State) (slice part : Nat) (d : DevSpace) (k : HartKind) (iova : Nat) : Except DevFault (Nat × TlbEntry) :=
  match satpTop (d.fsc / 2 ^ 60) with
  | none => .ok (iova, .bare)
  | some top =>
    let bits := levelShift (top + 1)
    let sx := iova / 2 ^ (bits - 1)
    let fault : DevFault := ⟨k.pageFault, 0, none⟩
    if sx ≠ 0 ∧ sx ≠ 2 ^ (65 - bits) - 1 then .error fault
    else
      let read (pa : Nat) : Except DevFault Nat := match s.devGuest slice part d k .load true pa with
        | .error f => .error f
        | .ok (pa, _) => s.devPte slice part k pa
      match hartWalk read (s.xenOf part) true fault (iova % 2 ^ bits) top (d.fsc % 2 ^ 44 * 4096) with
      | .error f => .error f
      | .ok e => if e.hartPermits k 0 false false then .ok (e.pa + iova % 2 ^ e.size, e) else .error fault

/-- A device's address as a physical one with the leaf that gives it. -/
def State.devXlate (s : State) (slice part : Nat) (d : DevSpace) (k : HartKind) (iova : Nat) : Except DevFault (Nat × TlbEntry) :=
  match s.devFirst slice part d k iova with
  | .error f => .error f
  | .ok (gpa, e) => match s.devGuest slice part d k k false gpa with
    | .error f => .error f
    | .ok (pa, g) => .ok (pa, if (satpTop (d.hgatp / 2 ^ 60)).isSome then g else e)

/-- What capabilities reads: version 1.0; Sv39, Sv48 and Sv57 and their x4 stages, MSI flat translation, MSIs for its own interrupts, 56
physical address bits, and process directories of one to three levels (R400). -/
def iommuCapabilities : Nat :=
  0x10 + 2 ^ 9 + 2 ^ 10 + 2 ^ 11 + 2 ^ 17 + 2 ^ 18 + 2 ^ 19 + 2 ^ 22 + 56 * 2 ^ 32 + 2 ^ 38 + 2 ^ 39 + 2 ^ 40

def State.setIommu (s : State) (slice off : Nat) (w : Word) : State :=
  s.modSlice slice fun x => { x with iommu := { x.iommu with regs := x.iommu.regs.set off w } }

/-- An interrupt of the IOMMU, 0 of the command queue and 1 of the fault queue: ipsr keeps it pending, and a new one is sent as the MSI that
icvec and the MSI table name, unless it is masked there. -/
def State.iommuSignal (s : State) (slice part cause : Nat) : State :=
  let x := (s.slice slice).iommu
  let ipsr := x.reg32 0x54
  if ipsr.getLsbD cause then s
  else
    let s := s.setIommu slice 0x54 (ipsr ||| (1#32 <<< cause))
    let e := 0x300 + 16 * (x.reg64 0x2F8 / 16 ^ cause % 16)
    if (x.reg32 (e + 12)).getLsbD 0 then s else s.sendMsi slice part (BitVec.ofNat 64 (x.reg64 e)) (x.reg32 (e + 8))

/-- A status bit of a queue's control register is set, and the queue's interrupt follows when it is enabled. -/
def State.iommuStatus (s : State) (slice part queue bit : Nat) : State :=
  let o := 0x48 + 4 * queue
  let csr := (s.slice slice).iommu.reg32 o
  let s := s.setIommu slice o (csr ||| (1#32 <<< bit))
  if csr.getLsbD 1 then s.iommuSignal slice part queue else s

/-- Where the next record of the IOMMU's fault queue goes. -/
def Iommu.faultPlace (x : Iommu) : Nat := x.reg64 0x28 / 2 ^ 10 % 2 ^ 44 * 4096 + 32 * (x.reg32 0x34).toNat

/-- A request of the IOMMU for a device's that the firewall refuses is logged as the device's (R363; DESIGN CHOICE: notes/assumptions). -/
def State.refuseIommu (s : State) (slice part rid pa : Nat) : State :=
  (s.violation part pa).elim s fun c => s.logViolation slice 2 c rid (BitVec.ofNat 64 pa)

/-- The record of a fault of the IOMMU: the cause, the transaction's type, the requester, the address and iotval2. -/
def DevFault.record (f : DevFault) (k : HartKind) (rid : BitVec 16) (pasid : Option (BitVec 20)) (iova : DWord) : List Byte :=
  let ttyp := if k = .store then 3 else 2
  let w0 := f.cause + (pasid.getD 0#20).toNat * 2 ^ 12 + boolNat pasid.isSome * 2 ^ 32 + ttyp * 2 ^ 34 + rid.toNat * 2 ^ 40
  leBytes 8 w0 ++ leBytes 8 0 ++ leBytes 8 iova.toNat ++ leBytes 8 f.iotval2

/-- The IOMMU records a fault in its queue when the queue is on, shows no error and has room. Without room the overflow is kept in fqcsr, and
so is a queue whose memory does not answer. A table's read or a record that the firewall refused is logged (R363). -/
def State.iommuFault (s : State) (slice part : Nat) (f : DevFault) (k : HartKind) (rid : BitVec 16) (pasid : Option (BitVec 20))
    (iova : DWord) : State :=
  let s := match f.trouble with
    | some (.noMemory pa) => s.refuseIommu slice part rid.toNat pa
    | _ => s
  let x := (s.slice slice).iommu
  let n := 2 ^ (x.reg64 0x28 % 32 + 1)
  let tail := (x.reg32 0x34).toNat
  let csr := x.reg32 0x4C
  if !csr.getLsbD 0 || csr.getLsbD 8 || csr.getLsbD 9 || !s.faultShown slice part rid f then s
  else if (tail + 1) % n == (x.reg32 0x30).toNat then s.iommuStatus slice part 1 9
  else if (s.way slice part x.faultPlace).errs then
    (s.refuseIommu slice part rid.toNat x.faultPlace).iommuStatus slice part 1 8
  else
    let s := s.portWrite part x.faultPlace (f.record k rid pasid iova) 0#12
    let s := s.setIommu slice 0x34 (BitVec.ofNat 32 ((tail + 1) % n))
    if csr.getLsbD 1 then s.iommuSignal slice part 1 else s

/-- Whether a fault waits: the table's read, or the place of its record, is at a home bank that is held (R411, R414). -/
def State.iommuHeld (s : State) (slice part : Nat) (f : DevFault) : Bool :=
  let x := (s.slice slice).iommu
  f.trouble == some .wait || ((x.reg32 0x4C).getLsbD 0 && s.way slice part x.faultPlace == .held)

/-! ### The IOMMU's commands (R400) -/

/-- One command: an invalidation has nothing to invalidate, since nothing is cached; a fence writes its word when it asks for it. none for an
illegal command, and false for a word whose memory does not answer. -/
def State.iommuCommand (s : State) (slice part at_ : Nat) : Option (Bool × State) :=
  let w (i : Nat) : Nat := leNat (s.readMem part (at_ + 8 * i) 8)
  let op := w 0 % 128
  let f := w 0 / 128 % 8
  if (op = 1 ∨ op = 3) ∧ f ≤ 1 then some (true, s)
  else if op = 2 ∧ f = 0 ∧ w 0 / 2 ^ 11 % 2 = 0 then
    let pa := w 1 % 2 ^ 62 * 4
    if w 0 / 2 ^ 10 % 2 = 0 then some (true, s)
    else if (s.way slice part pa).errs then some (false, s.refuseUnit slice part pa)
    else some (true, s.portWrite part pa (leBytes 4 (w 0 / 2 ^ 32)) 0#12)
  else none

/-- Whether a command, or the word that a fence writes, is at a home bank that is held (R411, R414). -/
def State.commandHeld (s : State) (slice part at_ : Nat) : Bool :=
  s.way slice part at_ == .held
    || (leNat (s.readMem part at_ 8) % 128 == 2 && s.way slice part (leNat (s.readMem part (at_ + 8) 8) % 2 ^ 62 * 4) == .held)

/-- The IOMMU takes the commands of its queue in order while the queue is on and shows no error: one that is illegal or whose memory
does not answer stops it, and one at a home bank that is held waits until the queue's next doorbell. -/
def State.iommuCommands (s : State) (slice part : Nat) : Nat → State
  | 0 => s
  | k + 1 =>
    let x := (s.slice slice).iommu
    let csr := x.reg32 0x48
    let cqb := x.reg64 0x18
    let n := 2 ^ (cqb % 32 + 1)
    let head := (x.reg32 0x20).toNat
    let at_ := cqb / 2 ^ 10 % 2 ^ 44 * 4096 + 16 * head
    if !csr.getLsbD 0 || csr.extractLsb' 8 3 != 0#3 || head == (x.reg32 0x24).toNat % n || s.commandHeld slice part at_ then s
    else if (s.way slice part at_).errs then (s.refuseUnit slice part at_).iommuStatus slice part 0 8
    else match s.iommuCommand slice part at_ with
      | none => s.iommuStatus slice part 0 10
      | some (false, s) => s.iommuStatus slice part 0 8
      | some (true, s) => (s.setIommu slice 0x20 (BitVec.ofNat 32 ((head + 1) % n))).iommuCommands slice part k

/-- Registers of an IOMMU that software does not write: capabilities, and the head of what it reads and the tail of what it writes. -/
def iommuReadOnly (o : Nat) : Bool := o == 0 || o == 4 || o == 0x20 || o == 0x34

/-- A write of bits of a 4-byte register of an IOMMU. cqcsr and fqcsr hold the enables, status bits that writing 1 clears, and the bit that
says that the queue is on; turning a queue on clears its status and its own index. ipsr's bits are cleared by writing 1. -/
def Iommu.write (x : Iommu) (o : Nat) (mask value : Word) : Iommu :=
  let old := x.reg32 o
  let w := (old &&& ~~~mask) ||| (value &&& mask)
  let cleared := old &&& ~~~(value &&& mask)
  if iommuReadOnly o then x
  else if o = 0x54 then { x with regs := x.regs.set o cleared }
  else if o = 0x48 ∨ o = 0x4C then
    let on := w.getLsbD 0
    let starts := on && !old.getLsbD 0
    let status := if starts then 0#32 else cleared &&& 0xF00#32
    let x := { x with regs := x.regs.set o ((w &&& 3#32) ||| status ||| (if on then 0x10000#32 else 0#32)) }
    if starts then { x with regs := x.regs.set (if o = 0x48 then 0x20 else 0x34) 0#32 } else x
  else { x with regs := x.regs.set o w }

/-! ### Device requests (R363, R400, R406) -/

/-- Where a device's request goes: a physical address, or the state after what stops it; one to a slice in recovery waits (R414). -/
inductive DevTarget where
  | at_ (pa : Nat) (owner : BitVec 12)
  | waits
  | stopped (unsupported : Bool) (s : State)
  deriving DecidableEq, Repr

/-- A device's request translated and checked: a fault of the IOMMU is recorded there, a violation in the firewall log of the port's
slice, an alias mismatch as cause 5 or 7. -/
def State.devTarget (s : State) (slice part : Nat) (rid : BitVec 16) (pasid : Option (BitVec 20)) (k : HartKind) (addr : DWord) (n : Nat) :
    DevTarget :=
  let stop (unsupported : Bool) (f : DevFault) : DevTarget :=
    if s.iommuHeld slice part f then .waits else .stopped unsupported (s.iommuFault slice part f k rid pasid addr)
  match s.devSpace slice part rid pasid k with
  | .error c => stop true c
  | .ok d => match s.devXlate slice part d k addr.toNat with
    | .error c => stop true c
    | .ok (pa, e) => match s.violation part pa, s.way slice part pa with
      | some c, _ => .stopped false (s.logViolation slice 2 c rid.toNat (BitVec.ofNat 64 pa))
      | none, .held => .waits
      | none, .failed _ _ => .stopped false s
      | none, _ =>
        let lines := (List.range ((pa + n - 1) / 128 - pa / 128 + 1)).map fun i => (pa / 128 + i) * 128
        if s.xenOf part && lines.any (fun a => (s.aliasCause part a e).isSome) then
          stop false ⟨k.accessFault, 0, none⟩
        else .at_ pa (d.pscid.getD 0#12)

/-- Whether a device behind a slice's root port may make a request of at most so many bytes: the link is up, the port forwards upstream
requests, and the request stays in one 4 KiB page. -/
def State.deviceLive (s : State) (slice : Nat) (addr : DWord) (n most : Nat) : Bool :=
  let p := (s.slice slice).port
  p.linkUp && p.busMaster && decide (0 < n ∧ n ≤ most ∧ addr.toNat % 4096 + n ≤ 4096)

/-- The maximum payload and the maximum read request (R398). -/
def maxPayload : Nat := 512
def maxRead : Nat := 4096

/-- DEVICE_WRITE (R254, R400): the bytes perform at the home banks as one request. Bytes that hold a launch word whole queue it; a
write that covers part of one is discarded whole. -/
def execDeviceWrite (slice : Nat) (rid : BitVec 16) (pasid : Option (BitVec 20)) (addr : DWord) (data : List Byte) (s : State) :
    Outcome State Fault Refusal :=
  match (s.slice slice).part with
  | none => .next s
  | some p =>
    if !s.deviceLive slice addr data.length maxPayload then .next s
    else match s.devTarget slice p rid pasid .store addr data.length with
      | .stopped _ s => .next s
      | .waits => .next s
      | .at_ pa owner => .next (s.deviceWrite p pa data owner)

/-- DEVICE_READ (R400, R406): the completion that the port sends. -/
def execDeviceRead (slice : Nat) (rid : BitVec 16) (pasid : Option (BitVec 20)) (addr : DWord) (len : Nat) (s : State) :
    Outcome State Fault Refusal :=
  match (s.slice slice).part with
  | none => .next s
  | some p =>
    if !s.deviceLive slice addr len maxRead then .next s
    else
      let reply (s : State) (status : Nat) (bs : List Byte) : State :=
        s.modPort slice fun q => { q with replies := q.replies ++ [⟨rid, status, bs⟩] }
      match s.devTarget slice p rid pasid .load addr len with
      | .stopped true s => .next (reply s 3 [])
      | .stopped false s => .next (reply s 2 [])
      | .waits => .next s
      | .at_ pa _ =>
        let bad := (List.range ((pa + len - 1) / 128 - pa / 128 + 1)).any fun i => (s.line p ((pa / 128 + i) * 128)).poison
        .next (reply s (if bad then 1 else 0) (s.readMem p pa len))

/-- The bits of a number that a mask selects, gathered from the lowest. -/
def gatherBits (mask x : Nat) : Nat :=
  ((List.range 52).foldl (fun (r : Nat × Nat) i =>
    if mask / 2 ^ i % 2 = 1 then (r.1 + x / 2 ^ i % 2 * 2 ^ r.2, r.2 + 1) else r) (0, 0)).1

/-- The target of a device's MSI under the flat MSI table of its context: none when the address is no interrupt file's, else the
physical address, or the fault of a PTE that is not valid, not of the basic mode, or sets a reserved bit. -/
def State.msiTarget (s : State) (slice part : Nat) (d : DevSpace) (gpa : Nat) : Option (Except DevFault Nat) :=
  let page := gpa / 4096
  let mask := d.msiMask % 2 ^ 52
  if d.msiptp / 2 ^ 60 ≠ 1 ∨ page ||| mask ≠ d.msiPat % 2 ^ 52 ||| mask then none
  else
    let at_ := d.msiptp % 2 ^ 44 * 4096 + 16 * gatherBits mask page
    some (match s.dirWord slice part 261 270 at_ with
      | .error f => .error f
      | .ok e =>
        if e % 2 = 0 then .error ⟨262, 0, none⟩
        else if e / 2 % 4 ≠ 3 ∨ e / 2 ^ 3 % 2 ^ 7 ≠ 0 ∨ e / 2 ^ 54 ≠ 0 then .error ⟨263, 0, none⟩
        else .ok (e / 2 ^ 10 % 2 ^ 44 * 4096 + gpa % 4096))

/-- DEVICE_MSI (R363, R395, R400): an MSI reaches an interrupt file only through MSI translation. -/
def execDeviceMsi (slice : Nat) (rid : BitVec 16) (addr : DWord) (data : Word) (s : State) : Outcome State Fault Refusal :=
  match (s.slice slice).part with
  | none => .next s
  | some p =>
    let stop (f : DevFault) : Outcome State Fault Refusal :=
      if s.iommuHeld slice p f then .next s else .next (s.iommuFault slice p f .store rid none addr)
    if !s.deviceLive slice addr 4 maxPayload then .next s
    else match s.devSpace slice p rid none .store with
      | .error c => stop c
      | .ok d => match s.devFirst slice p d .store addr.toNat with
        | .error c => stop c
        | .ok (gpa, _) => match s.msiTarget slice p d gpa with
          | none => .next (s.logViolation slice 2 ((s.violation p gpa).getD 3) rid.toNat (BitVec.ofNat 64 gpa))
          | some (.error c) => stop c
          | some (.ok pa) => match imsicTarget pa with
            | some (n, h, f) =>
              if (s.slice n).part = some p then .next (s.setPending n h f data.toNat)
              else .next (s.logViolation slice 2 4 rid.toNat (BitVec.ofNat 64 pa))
            | none => .next (s.logViolation slice 2 ((s.violation p pa).getD 3) rid.toNat (BitVec.ofNat 64 pa))

end Sys2Proof.Machine
end

