-- ==== Sys2Proof/Machine/Harts.lean ====
section
/-!
DEFINITION. Harts (R393-R397): dw.await, dw.awake and dw.awake.all, the start of a hart, the timer comparison, and the wake of a
sleeping hart by an interrupt.
-/

namespace Sys2Proof.Machine

open Host (Outcome)

/-! ### The rendezvous instructions (R397) -/

/-- The key of a hart's word: its virtual address and the ASID of satp, or under Bare translation its physical address and 0. -/
def Hart.waitKey (h : Hart) (va : DWord) (pa : Nat) : DWord × BitVec 12 :=
  if (h.accessMode .load).1 = 3 || (satpTop ((h.csrOf 0x180).toNat / 2 ^ 60)).isNone then (BitVec.ofNat 64 pa, 0#12)
  else (va, rootAsid (h.csrOf 0x180))

/-- An instruction of a hart is done: the next one follows it. -/
def State.hartNext (s : State) (r : HartRef) : State := s.modHart r fun h => h.retire 4

/-- What the three instructions share: the exceptions in their order, then the word's partition, physical address and home slice. A store of
the hart to the word that has not performed performs first, with the others, and the instruction is for its next turn (R262). -/
def State.dwWord (s : State) (i : Instr) (rs1 : BitVec 5) (touch : HartTouch) (k : HartRef → Hart → Nat → Nat → Nat → State) :
    Outcome State Fault Refusal :=
  match s.cur with
  | .hart r =>
    let h := s.hartOf r
    let va := h.reg rs1
    if h.virt then .next (s.hartTrap r 22 (((encodeHartWord i).getD 0#32).setWidth 64))
    else if va.toNat % 4 ≠ 0 then .next (s.hartFault r .load 4 va)
    else match (s.slice r.slice).part with
      | none => .next (s.hartFault r .load 5 va)
      | some p => match s.hartTranslate p r .load va with
        | .error c => .next (s.hartErr r p .load c va)
        | .ok (pa, e) => match s.hartCheck r p .load e pa 4 touch with
          | .trap c s => .next (s.hartFault r .load c va)
          | .wait => .next s
          | .ok => .next (if s.hartMeets r p [(pa, 4)] then s.hartDrain r else k r h p pa ((s.tableSlice p pa).getD 0))
  | _ => .fault .noAgent

/-- DW_AWAIT (R397): the hart goes on with 1 or 2, or sleeps; its next instruction follows in any case. -/
def execDwAwait (rd rs1 rs2 : BitVec 5) (s : State) : Outcome State Fault Refusal :=
  s.dwWord (.dwAwait rd rs1 rs2) rs1 .fetch fun r h p pa home =>
    let s' := s.hartNext r
    match s.awaitTest p pa home ((h.reg rs2).setWidth 32) false with
    | some n => s'.modHart r fun h => h.setReg rd (BitVec.ofNat 64 n)
    | none =>
      let key := h.waitKey (h.reg rs1) pa
      let s' := s'.modHart r fun h => { h with run := .sleeping rd }
      s'.modSlice home fun x => { x with rendezvous := x.rendezvous ++ [⟨key.1, key.2, pa, .hart r, 0⟩] }

/-- What dw.awake does once its address has passed: one waiter or all wake, and rd takes their number. -/
def State.dwAwake (s : State) (r : HartRef) (h : Hart) (rd rs1 : BitVec 5) (pa home : Nat) (all_ : Bool) : State :=
  let key := h.waitKey (h.reg rs1) pa
  let w := (s.hartNext r).wakeKey home key.1 key.2 all_
  w.1.modHart r fun h => h.setReg rd (BitVec.ofNat 64 w.2)

/-- DW_AWAKE (R397). -/
def execDwAwake (rd rs1 : BitVec 5) (s : State) : Outcome State Fault Refusal :=
  s.dwWord (.dwAwake rd rs1) rs1 .nothing fun r h _ pa home => s.dwAwake r h rd rs1 pa home false

/-- DW_AWAKE_ALL (R397). -/
def execDwAwakeAll (rd rs1 : BitVec 5) (s : State) : Outcome State Fault Refusal :=
  s.dwWord (.dwAwakeAll rd rs1) rs1 .nothing fun r h _ pa home => s.dwAwake r h rd rs1 pa home true

/-! ### Start, timers and the wake by an interrupt (R394, R396, R397) -/

/-- A write of HSTART (R394, R395): START is kept, and GO releases a hart held in reset; a hart that has left reset ignores it. -/
def State.startHart (s : State) (r : HartRef) (value : DWord) : State :=
  s.modHart r fun h =>
    if h.run ≠ .held then h
    else
      let h := { h with start := value &&& ~~~2#64 }
      if value.getLsbD 0 then h.released r (value &&& ~~~3#64) else h

/-- HART_START (R394). -/
def execHartStart (h : HartRef) (value : DWord) (s : State) : Outcome State Fault Refusal :=
  if (s.slice h.slice).part.isNone || decide (4 ≤ h.hart) then .next s else .next (s.startHart h value)

/-- A bit of a register. -/
def withBit (w : DWord) (n : Nat) (b : Bool) : DWord := setField w n 1 (boolNat b)

/-- The timer interrupts of a hart as mtime stands: MTIP always, STIP when Sstc is enabled for it, and VSTIP set only then. -/
def Hart.compareTimers (h : Hart) (mtime : DWord) : Hart :=
  let ip := withBit (h.csrOf 0x344) 7 (decide (h.mtimecmp.toNat ≤ mtime.toNat))
  let stce := (h.csrOf 0x30A).getLsbD 63
  let ip := if stce then withBit ip 5 (decide ((h.csrOf 0x14D).toNat ≤ mtime.toNat)) else ip
  let ip := withBit ip 6 (stce && (h.csrOf 0x60A).getLsbD 63 && decide ((h.csrOf 0x24D).toNat ≤ (mtime + h.csrOf 0x605).toNat))
  h.setCsr 0x344 ip

/-- TIMER_COMPARE (R396): the timer interrupts of a hart that has left reset take the state that mtime gives them. -/
def execTimerCompare (h : HartRef) (s : State) : Outcome State Fault Refusal :=
  if (s.hartOf h).run = .held then .next s else .next (s.modHart h fun x => x.compareTimers (s.slice h.slice).mtime)

/-- HART_AWAIT_INTERRUPT_WAKE (R397): an interrupt that would be taken wakes a sleeping hart with 3; its table entry leaves. The hart
takes the interrupt at its next turn, with its pc at the next instruction. -/
def execHartAwaitInterruptWake (h : HartRef) (s : State) : Outcome State Fault Refusal :=
  match (s.hartOf h).run, (s.hartOf h).interrupt with
  | .sleeping rd, some _ =>
    let s := { s with slices := s.slices.mapVals fun _ x => { x with rendezvous := x.rendezvous.filter fun w => w.agent != Agent.hart h } }
    .next (s.modHart h fun x => { x.setReg rd 3#64 with run := .running })
  | _, _ => .next s

end Sys2Proof.Machine
end

