-- ==== Sys2Proof/Machine/Markhor.lean ====
section
/-!
DEFINITION. Markhor (R356-R358, R362, R364-R366, R369, R370, R375-R377): the anti-rollback fuses, the reset of a slice, the boot of
the package and of a partition, the watchdog, the root secret, the loss of power, and what a line's channel holds.
-/

namespace Sys2Proof.Machine

open Host (Outcome)

/-! ### Anti-rollback counters (R375-R377) -/

/-- The number of programmed bits of a fuse copy. -/
def fuseCount (x : BitVec 64) : Nat := ((List.range 64).filter fun i => x.getLsbD i).length
/-- A thermometer code of a value. -/
def thermometer (n : Nat) : BitVec 64 := BitVec.ofNat 64 (2 ^ n - 1)

def Fuse.blank : Fuse := ⟨0#64, 0#64, 0#64, 0#64⟩

/-- The resolution of a counter at a boot (R376): the bits that read differently count as programmed, then the copy that holds less
is completed. -/
def Fuse.resolve (f : Fuse) : Fuse :=
  let a := f.a ||| f.weakA
  let b := f.b ||| f.weakB
  if fuseCount b < fuseCount a then ⟨a, a, 0#64, 0#64⟩
  else if fuseCount a < fuseCount b then ⟨b, b, 0#64, 0#64⟩
  else ⟨a, b, 0#64, 0#64⟩

def Markhor.fuse (m : Markhor) (c : Nat) : Fuse := m.fuses.get c .blank
/-- The value of a counter: the programmed bits of copy A. -/
def Markhor.counter (m : Markhor) (c : Nat) : Nat := fuseCount (m.fuse c).a

/-- A counter raised to a version, at most 64, and never lowered (R377). -/
def Markhor.raise (m : Markhor) (c version : Nat) : Markhor :=
  let f := m.fuse c
  let n := max (fuseCount f.a) (min 64 version)
  { m with fuses := m.fuses.set c { f with a := f.a ||| thermometer n, b := f.b ||| thermometer n } }

/-- The bits of a mask that are to be programmed, ascending, and a copy after so many of them, with the next one half programmed. -/
def fuseBits (old new : BitVec 64) : List Nat := (List.range 64).filter fun i => new.getLsbD i && !old.getLsbD i
def programmed (old : BitVec 64) (bits : List Nat) : BitVec 64 := bits.foldl (fun x i => x ||| (1#64 <<< i)) old

/-- A counter's copies with those of a target programmed into them; a bit that is programmed stays so. -/
def Fuse.full (f t : Fuse) : Fuse := ⟨f.a ||| t.a, f.b ||| t.b, 0#64, 0#64⟩

/-- A counter that is being brought to its target, interrupted after a number of bits (R376): copy A first, then copy B; the bit being
programmed reads differently at the two thresholds. -/
def Fuse.interrupted (f t : Fuse) (bits : Nat) : Fuse :=
  let as := fuseBits f.a t.a
  let bs := fuseBits f.b t.b
  let half (l : List Nat) : BitVec 64 := programmed 0#64 (l.take 1)
  if bits < as.length then
    let a := programmed f.a (as.take bits)
    { f with a := a, weakA := (f.weakA &&& ~~~a) ||| half (as.drop bits) }
  else
    let n := bits - as.length
    let b := programmed f.b (bs.take n)
    { f with a := f.a ||| t.a, weakA := 0#64, b := b, weakB := (f.weakB &&& ~~~b) ||| half (bs.drop n) }

/-- The counters under way, in order, when so many bits of theirs have been programmed. -/
def Markhor.programPart (m : Markhor) : List (Nat × Fuse) → Nat → Markhor
  | [], _ => m
  | w :: r, bits =>
    let f := m.fuse w.1
    let all_ := (fuseBits f.a w.2.a).length + (fuseBits f.b w.2.b).length
    if all_ < bits then { m with fuses := m.fuses.set w.1 (f.full w.2) }.programPart r (bits - all_)
    else { m with fuses := m.fuses.set w.1 (f.interrupted w.2 bits) }

/-- Every counter under way is completed. -/
def Markhor.finishFuses (m : Markhor) : Markhor :=
  { m.fuseWork.foldl (fun (m : Markhor) w => { m with fuses := m.fuses.set w.1 ((m.fuse w.1).full w.2) }) m with fuseWork := [] }

/-- The counters that the resolution of a boot changes, with what it makes them (R376). -/
def Markhor.unresolved (m : Markhor) : List (Nat × Fuse) :=
  m.fuses.cells.filterMap fun p => if p.2.resolve = p.2 then none else some (p.1, p.2.resolve)

/-- A counter's raise to a version, when it changes the counter (R377). -/
def Markhor.raiseWork (m : Markhor) (c version : Nat) : List (Nat × Fuse) :=
  if m.counter c < min 64 version then [(c, (m.raise c version).fuse c)] else []

/-! ### Slices and regions (R8, R362, R364-R366) -/

/-- The slices of a rectangle in ascending order. -/
def rectSlices (x0 y0 w h : Nat) : List Nat :=
  (List.range Config.slices).filter fun n => decide (x0 ≤ n % 4 ∧ n % 4 < x0 + w ∧ y0 ≤ n / 4 ∧ n / 4 < y0 + h)

def PartCfg.slices (c : PartCfg) : List Nat := rectSlices c.x0 c.y0 c.w c.h
def PartCfg.maxSlices (c : PartCfg) : List Nat := rectSlices c.mx0 c.my0 c.mw c.mh
/-- The partition's number: the lowest slice number as first configured (R361). -/
def PartCfg.number (c : PartCfg) : Nat := c.slices.headD 0

/-- Whether rising numbers follow each other without a gap. -/
def contiguous : List Nat → Bool
  | a :: b :: r => a + 1 == b && contiguous (b :: r)
  | _ => true

/-- Whether slices beside a rectangle form a contiguous run along one of its edges. -/
def runAlong (x0 y0 w h : Nat) (rest : List Nat) : Bool :=
  let xs := rest.map (· % 4)
  let ys := rest.map (· / 4)
  let row := xs.all (fun x => decide (x0 ≤ x ∧ x < x0 + w)) && contiguous xs && (ys.all (· + 1 == y0) || ys.all (· == y0 + h))
  let col := ys.all (fun y => decide (y0 ≤ y ∧ y < y0 + h)) && contiguous ys && (xs.all (· + 1 == x0) || xs.all (· == x0 + w))
  rest.isEmpty || row || col

/-- The shapes a partition may take (R366): a rectangle, or a rectangle with a contiguous run of slices along one of its edges. -/
def shapeOk (slices : List Nat) : Bool :=
  !slices.isEmpty && (List.range 4).any fun x0 => (List.range 4).any fun y0 => (List.range 5).any fun w => (List.range 5).any fun h =>
    let r := rectSlices x0 y0 w h
    !r.isEmpty && r.all slices.contains && runAlong x0 y0 w h (slices.filter fun n => !r.contains n)

/-- The region table of a partition at its creation (R365). -/
def firstRegions (slices : List Nat) : SMap Region :=
  let n := slices.length
  ⟨(List.range (Config.regionSlots * n)).map fun r => (r, ⟨slices.getD (r % n) 0, r / n, false, 0, 0, 0⟩)⟩

/-! ### Routes (R11, R362, R366, R411) -/

/-- Whether a list of slices is a way from one slice to another over the links of a partition that have not failed. -/
def State.validPath (s : State) (slices : List Nat) (a b : Nat) (p : List Nat) : Bool :=
  p.head? == some a && p.getLast? == some b && p.all slices.contains
    && (p.zip (p.drop 1)).all fun e => (directionOf e.1 e.2).isSome && s.linkUp e.1 e.2

/-- A way within some slices from one to another of so many hops at most, over the links that are permitted. -/
def findPath (up : Nat → Nat → Bool) (slices : List Nat) (b : Nat) : Nat → List Nat → Nat → Option (List Nat)
  | 0, _, a => if a = b then some [a] else none
  | n + 1, seen, a =>
    if a = b then some [a]
    else (List.range 4).findSome? fun d => match neighbour a d with
      | some m =>
        if slices.contains m && !seen.contains m && up a m then (findPath up slices b n (m :: seen) m).map (a :: ·) else none
      | none => none

/-- A shortest way within some slices. -/
def shortestPath (up : Nat → Nat → Bool) (slices : List Nat) (a b : Nat) : Option (List Nat) :=
  (List.range (slices.length + 1)).findSome? fun n => findPath up slices b n [a] a

/-- The route that Markhor programs for a pair: which of the ways over working links is Markhor's own. Without one the route that is left
leads over a failed link. -/
def State.routeFor (s : State) (n : Nat) (slices : List Nat) (a b : Nat) : List Nat :=
  let p := Config.routePick n a b
  if s.validPath slices a b p then p
  else ((shortestPath s.linkUp slices a b).or (shortestPath (fun _ _ => true) slices a b)).getD [a, b]

/-- Markhor programs the routes of every pair of a partition's slices (R362). -/
def State.programRoutes (s : State) (part : Nat) : State :=
  let f := s.fresh
  f.2.modPart part fun p =>
    { p with routes := ⟨p.slices.flatMap fun a => (p.slices.filter (· ≠ a)).map fun b => (16 * a + b, s.routeFor f.1 p.slices a b)⟩ }

/-! ### The reset of a slice (R259, R380, R394, R396) -/

/-- Whether an agent is of a slice. -/
def agentOfSlice (n : Nat) (a : Agent) : Bool :=
  match a with
  | .group g => sliceOf g.core == n
  | .ctx c => sliceOf c.core == n
  | .hart h => h.slice == n
  | _ => false

/-- A hart after a reset of its slice. -/
def Hart.afterReset (h : Hart) : Hart := if h.run = .retired then { Hart.reset with run := .retired } else .reset

/-- A slice after a reset: what lasts is its partition, its port's address, and what spares have replaced or are to replace, which
SPAREREQ goes on to say. -/
def Slice.afterReset (x : Slice) (n : Nat) : Slice :=
  { Slice.reset with
    part := x.part
    harts := x.harts.mapVals fun _ h => h.afterReset
    hartSpare := x.hartSpare
    net := { Net.reset with mac := Config.portMac n, spare := x.net.spare }
    err := { ErrBlock.reset with
                                 esum := if x.err.waitPch || x.err.waitHart != 0#4 || x.err.waitCore != 0#16 then 0x40#8 else 0#8,
                                 spCore := x.err.spCore, spHart := x.err.spHart, spPch := x.err.spPch, spLane := x.err.spLane,
                                 waitPch := x.err.waitPch, waitHart := x.err.waitHart, waitCore := x.err.waitCore,
                                 qmap := x.err.qmap, chErrs := x.err.chErrs, chMarked := x.err.chMarked, links := x.err.links,
                                 waysOff := x.err.waysOff } }

/-- A core after a reset of its slice: what lasts is what spares have replaced or are to replace, and what Tahr remembers of its last
grant (R414). -/
def Core.afterReset (k : Core) (c : Nat) : Core :=
  { Core.reset c with power := { Power.reset (c / 16) with granted := k.power.granted }, marked := k.marked, retired := k.retired, spareUsed := k.spareUsed,
                      subs := ⟨(k.subs.cells.filter fun p => p.2.marked).map fun p => (p.1, { Sub.reset with marked := true })⟩ }

/-- A slice is reset: the stores of its harts have performed and every waiter of its table wakes with 3 first (R259), nothing of its
agents waits anywhere, and no line of its banks is pinned any more (R212). -/
def State.resetSlice (s : State) (n : Nat) : State :=
  let s := (List.range 4).foldl (fun s h => s.hartDrain ⟨n, h⟩) s
  let s := s.wakeAll n (fun _ => true) 3
  { s with
    slices := (s.slices.mapVals fun _ x => { x with rendezvous := x.rendezvous.filter fun w => !agentOfSlice n w.agent }).set n ((s.slice n).afterReset n)
    cells := s.cells.mapVals fun _ l => l.filter fun r => !agentOfSlice n r.agent
    pins := s.pins.keep fun k _ => s.homeSlice (k / 2 ^ 50) (k % 2 ^ 50 * 128) != some n
    cores := ⟨s.cores.cells.map fun p => (p.1, if sliceOf p.1 = n then p.2.afterReset p.1 else p.2)⟩ }

/-! ### Memory of a partition -/

/-- Bytes written by Markhor at home banks, OWNER 0 (R213, R360). -/
def State.markhorWrite (s : State) (part pa : Nat) (bs : List Byte) : State :=
  (List.range ((pa + bs.length - 1) / 128 - pa / 128 + 1)).foldl (fun s i =>
    let line := pa / 128 + i
    let cells := bs.zipIdx.filterMap fun b => if (pa + b.2) / 128 = line then some ((pa + b.2) % 128, b.1) else none
    s.bankWrite part line cells 0#12) s

/-- A range of a partition's memory set to zero with its metadata clear, and nothing waiting on a cell of it. -/
def State.clearRange (s : State) (part pa n : Nat) : State :=
  let inside (k : Nat) : Bool := decide (memKey part pa ≤ k ∧ k < memKey part pa + n)
  { s with mem := s.mem.filter fun c => !inside c.1
           lines := s.lines.keep fun k _ => !inside (k * 128)
           pins := s.pins.keep fun k _ => !inside (k * 128) }

/-- Whether every byte of a range lies in a valid region. -/
def State.rangeValid (s : State) (part pa n : Nat) : Bool :=
  (List.range ((pa + n - 1) / 2 ^ 27 - pa / 2 ^ 27 + 1)).all fun i => (s.regionAt part ((pa / 2 ^ 27 + i) * 2 ^ 27)).isSome

/-! ### Memory encryption (R369, R370) -/

def State.rootOf (s : State) : BitVec 256 := s.markhor.root.getD 0#256
/-- The key pair of a world's memory encryption, and the key of its line MAC. -/
def State.xtsKey (s : State) (b : Word × Word) : BitVec 512 := BitVec.ofNat 512 (deriveKey s.rootOf 1 b.1 b.2 512)
def State.macKey (s : State) (b : Word × Word) : BitVec 256 := BitVec.ofNat 256 (deriveKey s.rootOf 2 b.1 b.2 256)

/-- What a line's pseudo-channel holds for it: the plain text under ATTR 00, else the text enciphered with the line's address as its
tweak. -/
def State.channelText (s : State) (part line : Nat) : List Byte :=
  let bs := s.readMem part (line * 128) 128
  let m := s.line part (line * 128)
  if m.attr = 0#2 then bs else Config.aesXts (s.xtsKey (s.binding part m.world.toNat)) (line * 128) bs

/-- The MAC of a line's metadata lane (R213): under ATTR 10 the first 48 bits of the GMAC over the enciphered text, zero otherwise. -/
def State.channelMac (s : State) (part line : Nat) : BitVec 48 :=
  let m := s.line part (line * 128)
  if m.attr = 2#2 then
    (Config.aesGmac (s.macKey (s.binding part m.world.toNat)) (BitVec.ofNat 96 (line * 128)) (s.channelText part line)).extractLsb' 80 48
  else 0#48

/-! ### The boot loader and a kernel image (R357) -/

/-- The period of a partition's watchdog in mtime ticks. -/
def PartCfg.period (c : PartCfg) : Nat := if c.wdPeriod = 0#64 then 3000000000 else c.wdPeriod.toNat

/-- The digest of a kernel image as signed: bytes 0 to 159 of the header, then bytes 256 to LENGTH - 1. -/
def imageDigest (bs : List Byte) : BitVec 384 := Config.sha384 (bs.take 160 ++ bs.drop 256)
/-- A big-endian field of an image. -/
def imageField (bs : List Byte) (off n : Nat) : Nat := beNat ((bs.drop off).take n)

/-- Whether the loader accepts an image for a partition (R357). -/
def State.acceptsImage (s : State) (p : Part) (bs : List Byte) : Bool :=
  let key := Config.publicKeyOf p.cfg.keyhash
  imageField bs 0 4 == 0x4B524E31 && decide (256 ≤ bs.length) && imageField bs 8 8 == bs.length
    && Config.sha384 (beBytes 96 key.toNat) == p.cfg.keyhash
    && Config.ecdsaVerify (imageDigest bs) (BitVec.ofNat 768 (imageField bs 160 96)) key
    && decide (s.markhor.counter p.cfg.counter ≤ imageField bs 4 4)

/-- The boot loader of a partition is given an image: an accepted one is loaded, and the boot hart enters it in M-mode; a refused one
leaves the loader waiting. -/
def State.loadKernel (s : State) (part : Nat) (bs : List Byte) : State :=
  match s.part? part with
  | none => s
  | some p =>
    let r : HartRef := ⟨p.boot, 0⟩
    if (s.hartOf r).run ≠ .loader || !s.acceptsImage p bs then s
    else
      let s := s.writeMem part (imageField bs 16 8) (bs.drop 256)
      let s := s.setPart part { p with version := imageField bs 4 4, kdig := imageDigest bs }
      s.modHart r fun h => h.released r (BitVec.ofNat 64 (imageField bs 24 8))

/-- Step 5 of R356 for one partition: its firewalls, region table and mailbox as at creation, its watchdog started, and the boot hart
of its boot slice in the boot loader. -/
def State.startPart (s : State) (part boot : Nat) (p : Part) : State :=
  let s := s.clearRange part 0 (2 ^ 57)
  let p : Part :=
    { p with boot := boot, inReset := false, version := 0, kdig := 0#384, xen := false, bindings := .empty,
             watchdog := some (BitVec.ofNat 64 ((s.slice boot).mtime.toNat + p.cfg.period)),
             regions := firstRegions p.slices, routes := .empty, held := false, closed := [], mailbox := .reset, launches := .empty, placing := .empty }
  let s := (s.setPart part p).programRoutes part
  let s := p.slices.foldl (fun s n => s.modSlice n fun x => { x with part := some part }) s
  s.modHart ⟨boot, 0⟩ fun h => if h.run = .retired then h else { h with run := .loader }

/-- A partition of a configuration record before its start. -/
def PartCfg.part (c : PartCfg) : Part :=
  { cfg := c, slices := c.slices, boot := c.number, tried := [], inReset := false, watchdog := none, version := 0, kdig := 0#384,
    xen := false, bindings := .empty, regions := .empty, routes := .empty, held := false, closed := [], mailbox := .reset, launches := .empty, placing := .empty }

/-! ### The package (R356, R358, R369, R376) -/

/-- The versions of Markhor's four images, in the order of their counters. -/
def Markhor.imageVersions (m : Markhor) : List Nat := m.versions ++ [m.cfgVersion]

/-- Step 2 of R356: every image's digest and signature pass, and its version is at least its counter. -/
def Markhor.imagesOk (m : Markhor) : Bool :=
  (List.range 4).all fun i => Config.firmwareOk i && decide (m.counter i ≤ m.imageVersions.getD i 0)

/-- What R362 says of a configuration record: no two partitions share a slice, each has its slices in its maximum rectangle, and each names
a rollback counter of 4 to 7. -/
def Markhor.cfgOk (m : Markhor) : Bool :=
  m.cfg.all (fun c => !c.slices.isEmpty && c.slices.all c.maxSlices.contains && decide (4 ≤ c.counter ∧ c.counter ≤ 7))
    && (List.range m.cfg.length).all fun i => (m.cfg.drop (i + 1)).all fun d =>
      match m.cfg[i]? with
      | some c => c.slices.all fun n => !d.slices.contains n
      | none => true

/-- A partition put in its place by ascending number. -/
def insertCfg (c : PartCfg) : List PartCfg → List PartCfg
  | [] => [c]
  | d :: r => if c.number ≤ d.number then c :: d :: r else d :: insertCfg c r

/-- The spares that the test of a slice brings in for the units that it finds at fault (R356, R367): cores, sub-partitions, harts and
channels and the port's lane, under the numbers of their records (R410). A core for which no spare is left takes no team; any other such
unit stays in use. -/
def State.testSlice (s : State) (n : Nat) : State :=
  let f := s.fresh
  let bad (unit : Nat) : Bool := Config.testFails f.1 n unit
  let s := (List.range Config.coresPerSlice).foldl (fun s c =>
    if bad (0x2000 + c) then
      if 0 < (s.slice n).err.spCore then s.modSlice n fun x => { x with err := { x.err with spCore := x.err.spCore - 1 } }
      else s.modCore (16 * n + c) fun k => { k with retired := true }
    else if (List.range Config.subsPerCore).any fun b => bad (0x1000 + c * 32 + b) then
      s.modCore (16 * n + c) fun k => { k with spareUsed := true }
    else s) f.2
  let channels := ((List.range 80).filter fun c => bad (0x4000 + c)).length
  s.modSlice n fun x =>
    let hart := x.hartSpare && (List.range 4).any fun h => bad (0x3000 + h)
    let lane := decide (0 < x.err.spLane) && bad 0x7000
    { x with
      hartSpare := x.hartSpare && !hart
      net := { x.net with spare := x.net.spare || lane }
      err := { x.err with spHart := x.err.spHart - boolNat hart, spPch := x.err.spPch - channels, spLane := x.err.spLane - boolNat lane } }

/-- A step of the boot fails: the package stops at it, and Markhor reports it (R356). -/
def State.bootFails (s : State) (m : Markhor) (step : Nat) : State :=
  { s with markhor := { m with failed := true, reports := m.reports ++ [step] } }

/-- Steps 4 to 6 of R356, when the boot epoch has been written: every slice reset and tested, then each partition of the configuration
record started, and the counters of the images that have passed raised at the end. -/
def State.bootPackage (s : State) (m : Markhor) (kernels : List (Nat × List Byte)) : State :=
  let pass := Config.bootStepOk m.epoch 4
  let m := { m with epoch := m.epoch + 1, sealCtr := m.sealMark, booted := true }
  let s := { s with markhor := m, parts := .empty }
  let s := (List.range Config.slices).foldl (fun s n => ((s.resetSlice n).modSlice n fun x => { x with part := none }).testSlice n) s
  if !pass then s.bootFails { m with booted := false } 4
  else
    let s := (m.cfg.foldr insertCfg []).foldl (fun s c => s.startPart c.number c.number c.part) s
    let s := kernels.foldl (fun s k => s.loadKernel k.1 k.2) s
    { s with markhor := { s.markhor with fuseWork := m.imageVersions.zipIdx.flatMap fun v => m.raiseWork v.2 v.1 } }

/-- PACKAGE_BOOT (R356): the steps in order; a step that fails stops the package and is reported. The counters that step 1 resolves, and
those that the end of the boot raises, are under way until the event comes again (R376). The images given are those that the partitions'
loaders fetch. -/
def execPackageBoot (kernels : List (Nat × List Byte)) (s : State) : Outcome State Fault Refusal :=
  let m := s.markhor
  if !m.fuseWork.isEmpty then .next { s with markhor := m.finishFuses }
  else if m.booted || m.failed then .next s
  else if !Config.bootStepOk m.epoch 1 then .next (s.bootFails m 1)
  else if !m.unresolved.isEmpty then .next { s with markhor := { m with fuseWork := m.unresolved } }
  else if !m.imagesOk || !m.cfgOk then .next (s.bootFails m 2)
  else if !Config.bootStepOk m.epoch 3 then .next (s.bootFails m 3)
  else .next (s.bootPackage m kernels)

/-- LOADER_RETRY (R357): the loader of a partition, waiting after a refused image, is given another. -/
def execLoaderRetry (part : Nat) (image : List Byte) (s : State) : Outcome State Fault Refusal := .next (s.loadKernel part image)

/-- The boot hart of a slice is retired; the slice's spare takes its number if it is unused. -/
def State.retireHart (s : State) (slice hart : Nat) : State :=
  (s.hartDrain ⟨slice, hart⟩).modSlice slice fun x =>
    if x.hartSpare then { x with hartSpare := false, err := { x.err with spHart := x.err.spHart - 1 } }
    else { x with harts := x.harts.set hart { x.harts.get hart Hart.reset with run := .retired } }

/-- BOOT_WATCHDOG_EXPIRY (R358): when the clock in which the watchdog expires has passed without BOOTOK, the boot hart is retired, the
partition's slices are reset, and the sequence starts again with the next-higher-numbered slice, or the partition stays in reset and is reported. -/
def execBootWatchdogExpiry (part : Nat) (s : State) : Outcome State Fault Refusal :=
  match s.part? part with
  | none => .next s
  | some p => match p.watchdog with
    | none => .next s
    | some d =>
      if (s.slice p.boot).cyc.toNat ≤ 10 * d.toNat then .next s
      else
        let s := s.retireHart p.boot 0
        let s := p.slices.foldl (fun s n => s.resetSlice n) s
        let p := { p with watchdog := none, tried := p.tried ++ [p.boot] }
        match p.slices.find? fun n => decide (p.boot < n) && !p.tried.contains n with
        | some n => .next (s.startPart part n p)
        | none => .next { s.setPart part { p with inReset := true, mailbox := .reset, launches := .empty, placing := .empty } with
            markhor := { s.markhor with reports := s.markhor.reports ++ [part + 256] } }

/-- ROOT_PROVISION (R369): the root and its provisioning index are written once, before the first configuration. -/
def execRootProvision (root : BitVec 256) (index : BitVec 20) (s : State) : Outcome State Fault Refusal :=
  if s.markhor.root.isSome || s.markhor.booted || decide (0 < s.markhor.epoch) then .next s
  else .next { s with markhor := { s.markhor with root := some root, provIndex := index } }

/-- POWER_LOSS (R376): the package is as before its boot; what Markhor's fuses and store hold stays, what spares have replaced stays
replaced, and the counters under way have had so many bits programmed. -/
def execPowerLoss (bits : Nat) (s : State) : Outcome State Fault Refusal :=
  let m := s.markhor.programPart s.markhor.fuseWork bits
  .next { State.reset with
    agenda := s.agenda, freeCtr := s.freeCtr
    cores := s.cores.mapVals fun c k => k.afterReset c
    slices := s.slices.mapVals fun n x => { x.afterReset n with part := none }
    markhor := { Markhor.reset with root := m.root, provIndex := m.provIndex, epoch := m.epoch, fuses := m.fuses, sealMark := m.sealMark,
                                    cfg := m.cfg, cfgVersion := m.cfgVersion, versions := m.versions } }

end Sys2Proof.Machine
end

