-- ==== Sys2Proof/Machine/Mailbox.lean ====
section
/-!
DEFINITION. The mailbox of a partition (R360, R361) and its requests: identity, BOOTOK, the PTE extension, bindings, ASSIGN (R372),
regions, JOIN and LEAVE (R366-R368), attestation (R373, R374) and recovery (R414).
-/

namespace Sys2Proof.Machine

open Host (Outcome)

/-! ### What a request finds and does -/

/-- What serving a request gives: RESULT, the OUT registers it writes, and the state after. -/
structure Served where
  result : Nat
  outs   : List (Nat × DWord)
  state  : State
  deriving DecidableEq, Repr

/-- A request that changes nothing: bad argument 1, refused 2, unknown code 3 (R360, R361). -/
def State.unserved (s : State) (result : Nat) : Served := ⟨result, [], s⟩
/-- A request that is done without a result register. -/
def State.servedOk (s : State) : Served := ⟨0, [], s⟩

/-- The cores of a slice that hold a team. -/
def State.sliceHasTeam (s : State) (n : Nat) : Bool :=
  (List.range Config.coresPerSlice).any fun c => !(s.core (16 * n + c)).teams.cells.isEmpty

/-- Whether every hart of a slice is stopped in WFI, and its root port is quiesced (R368, R399, R414). -/
def State.slicePrepared (s : State) (n : Nat) : Bool :=
  let x := s.slice n
  !s.sliceHasTeam n
    && (List.range 4).all (fun h => let r := (s.hartOf ⟨n, h⟩).run; r == .wfi || r == .retired)
    && !x.port.busMaster && x.port.partner.isNone

/-- The slices of a partition as a mask. -/
def sliceMask (slices : List Nat) : Nat := slices.foldl (fun m n => m + 2 ^ n) 0

/-- The lowest free slot of a slice. -/
def Part.freeSlot (p : Part) (n : Nat) : Option Nat :=
  (List.range Config.regionSlots).find? fun i => p.regions.vals.all fun r =>
    !(r.slice == n && r.slot == i) && !(r.dual && r.oslice == n && r.oslot == i)

/-! ### The requests -/

/-- IDENT (R361). -/
def State.serveIdent (s : State) (part : Nat) (p : Part) : Served :=
  ⟨0, [(0, Config.packageId), (1, BitVec.ofNat 64 (part + sliceMask p.slices * 2 ^ 16 + p.boot * 2 ^ 32))], s⟩

/-- BOOTOK (R361, R377): the watchdog stops, and the partition's counter is raised to the running image's version. -/
def State.serveBootok (s : State) (part : Nat) (p : Part) : Served :=
  let s := s.setPart part { p with watchdog := none }
  let m := s.markhor
  { s with markhor := { m with fuseWork := m.fuseWork ++ m.raiseWork p.cfg.counter p.version } }.servedOk

/-- PTEXT (R361). -/
def State.servePtext (s : State) (part : Nat) (p : Part) (on : Bool) : Served :=
  if p.slices.any s.sliceHasTeam then s.unserved 2 else (s.setPart part { p with xen := on }).servedOk

/-- WBIND (R371): refused while a line of the partition carries the world with ATTR 01 or 10. -/
def State.serveWbind (s : State) (part : Nat) (p : Part) (world tenant period : Nat) : Served :=
  let held := s.lines.cells.any fun l => l.1 / 2 ^ 50 == part && l.2.world.toNat == world && l.2.attr != 0#2
  if 15 < world ∨ 2 ^ 32 ≤ tenant ∨ 2 ^ 32 ≤ period then s.unserved 1
  else if held then s.unserved 2
  else (s.setPart part { p with bindings := p.bindings.set world (BitVec.ofNat 32 tenant, BitVec.ofNat 32 period) }).servedOk

/-- ASSIGN of one line (R372): every cached copy in the partition is discarded, and the line is zero under its new ATTR and WORLD. -/
def State.assignLine (s : State) (part : Nat) (p : Part) (attr : BitVec 2) (world : BitVec 4) (line : Nat) : State :=
  let s := { s with
    cores := s.cores.mapVals fun c k => if p.slices.contains (sliceOf c) then { k with l1 := k.l1.erase line } else k }
  let s := s.bankWrite part line ((List.range 128).map fun i => (i, 0#8)) 0#12
  { s with lines := s.lines.set (lineKey part (line * 128)) ⟨attr, world, 0#12, false⟩ }

/-- RESULT of an ASSIGN that is turned away (R372). -/
def State.assignBad (s : State) (part : Nat) (p : Part) (base len : Nat) (what : DWord) : Option Nat :=
  let attr := what.extractLsb' 0 2
  if base % 4096 ≠ 0 ∨ len % 4096 ≠ 0 ∨ attr = 3#2 ∨ (0 < len ∧ !s.rangeValid part base len) then some 1
  else if attr ≠ 0#2 ∧ !p.xen then some 2
  else none

/-- The lines of an ASSIGN from a first one on, in ascending address order (R430). -/
def State.assignFrom (s : State) (part : Nat) (p : Part) (base len : Nat) (what : DWord) (first : Nat) : State :=
  ((List.range (len / 128)).drop first).foldl
    (fun s i => s.assignLine part p (what.extractLsb' 0 2) (what.extractLsb' 4 4) (base / 128 + i)) s

/-- ASSIGN (R372), or what is left of it. -/
def State.serveAssign (s : State) (part : Nat) (p : Part) (q : MailReq) : Served :=
  let base := (q.arg 0).toNat
  let len := (q.arg 1).toNat
  match if q.began then none else s.assignBad part p base len (q.arg 2) with
  | some r => s.unserved r
  | none => (s.assignFrom part p base len (q.arg 2) q.lines).servedOk

/-- RDROP (R361): a present region's contents are lost and its slot is free. -/
def State.serveRdrop (s : State) (part : Nat) (p : Part) (r : Nat) : Served :=
  if 4096 ≤ r ∨ (p.regions.find r).isNone then s.unserved 1
  else ((s.setPart part { p with regions := p.regions.erase r }).clearRange part (r * 2 ^ 27) (2 ^ 27)).servedOk

/-- RADD (R361): an absent region in the lowest free slot of a slice, filled with zeros. -/
def State.serveRadd (s : State) (part : Nat) (p : Part) (r n : Nat) : Served :=
  if 4096 ≤ r ∨ (p.regions.find r).isSome ∨ !p.slices.contains n then s.unserved 1
  else match p.freeSlot n with
    | none => s.unserved 2
    | some i => ((s.setPart part { p with regions := p.regions.set r ⟨n, i, false, 0, 0, 0⟩ }).clearRange part (r * 2 ^ 27) (2 ^ 27)).servedOk

/-- Rising numbers put in their place. -/
def insertNat (n : Nat) : List Nat → List Nat
  | [] => [n]
  | m :: r => if n ≤ m then n :: m :: r else m :: insertNat n r

/-- JOIN (R366, R367): the slice is reset and tested, the routes are programmed, its slots take 238 new regions at the lowest absent numbers, filled with zeros, and its harts
start at ARG1 in M-mode. -/
def State.serveJoin (s : State) (part : Nat) (p : Part) (n : Nat) (start : DWord) : Served :=
  if Config.slices ≤ n then s.unserved 1
  else if (s.slice n).part.isSome || !p.cfg.maxSlices.contains n || !shapeOk (insertNat n p.slices) then s.unserved 2
  else
    let absent := ((List.range 4096).filter fun r => (p.regions.find r).isNone).take Config.regionSlots
    let s := (s.resetSlice n).testSlice n
    let s := absent.foldl (fun s r => s.clearRange part (r * 2 ^ 27) (2 ^ 27)) s
    let regions := absent.zipIdx.foldl (fun (m : SMap Region) (r : Nat × Nat) => m.set r.1 ⟨n, r.2, false, 0, 0, 0⟩) p.regions
    let p := { p with slices := insertNat n p.slices, regions := regions, closed := p.closed.filter (· ≠ n) }
    let s := ((s.setPart part p).programRoutes part).modSlice n fun x => { x with part := some part }
    let s := (List.range 4).foldl (fun s h => s.modHart ⟨n, h⟩ fun x =>
      if x.run = .retired then x else x.released ⟨n, h⟩ (start &&& ~~~3#64)) s
    let view : SMap DWord := p.launches.mapVals' fun e => e.word
    let s := (List.range Config.coresPerSlice).foldl (fun s c => s.modCore (16 * n + c) fun k => { k with launchView := view }) s
    ⟨0, [(0, BitVec.ofNat 64 (absent.headD 0))], s⟩

/-- LEAVEBEGIN (R21, R361). -/
def State.serveLeavebegin (s : State) (part : Nat) (p : Part) (n : Nat) : Served :=
  if !p.slices.contains n then s.unserved 1
  else (s.setPart part { p with closed := if p.closed.contains n then p.closed else p.closed ++ [n] }).servedOk

/-- The regions whose home is a slice. -/
def Part.regionsOf (p : Part) (n : Nat) : List Nat := p.regions.cells.filterMap fun r => if r.2.slice = n then some r.1 else none

/-- The move of a region of a leaving slice begins (R259, R368): the waiters on its words wake with 3, and the lowest free slot of the
lowest-numbered remaining slice that has one becomes its new home, of which it has no line yet. -/
def State.beginMove (s : State) (part n r : Nat) : State :=
  match s.part? part with
  | none => s
  | some p => match p.regions.find r, (p.slices.filter (· ≠ n)).findSome? fun m => (p.freeSlot m).map fun i => (m, i) with
    | some g, some (m, i) =>
      (s.wakeAll n (fun w => w.pa / 2 ^ 27 == r) 3).modPart part fun p =>
        { p with regions := p.regions.set r ⟨m, i, true, g.slice, g.slot, 0⟩ }
    | _, _ => s

/-- The next line of a region switches its home; with the last one the move is over (R368). -/
def Region.switchLine (g : Region) : Region :=
  if g.moved + 1 < 2 ^ 20 then { g with moved := g.moved + 1 } else ⟨g.slice, g.slot, false, 0, 0, 0⟩

def State.modRegion (s : State) (part r : Nat) (f : Region → Region) : State :=
  s.modPart part fun p => match p.regions.find r with
    | some g => { p with regions := p.regions.set r (f g) }
    | none => p

/-- A whole region of a leaving slice moves. -/
def State.moveRegion (s : State) (part n r : Nat) : State :=
  (s.beginMove part n r).modRegion part r fun g => ⟨g.slice, g.slot, false, 0, 0, 0⟩

/-- The region of a partition that is on its move. -/
def Part.moving (p : Part) : Option Nat := (p.regions.cells.find? fun r => r.2.dual).map Prod.fst

/-- RESULT of a LEAVE that is turned away (R366, R368). -/
def State.leaveBad (s : State) (p : Part) (n : Nat) : Option Nat :=
  let rest := p.slices.filter (· ≠ n)
  let free := (rest.map fun m => Config.regionSlots - (p.regionsOf m).length).sum
  if !p.slices.contains n then some 1
  else if !p.closed.contains n || !s.slicePrepared n || !shapeOk rest || decide (free < (p.regionsOf n).length) then some 2
  else none

/-- The end of a LEAVE (R368): routes and firewalls are programmed again, and the slice is reset and free. The partition's boot slice keeps
its number, also when that is the slice that leaves (R20, R358; DEDUCED: notes/assumptions). -/
def State.endLeave (s : State) (part n : Nat) : State :=
  let s := s.modPart part fun p => { p with slices := p.slices.filter (· ≠ n), closed := p.closed.filter (· ≠ n) }
  ((s.programRoutes part).resetSlice n).modSlice n fun x => { x with part := none }

/-- LEAVE (R366, R368), or what is left of it. -/
def State.serveLeave (s : State) (part : Nat) (p : Part) (q : MailReq) : Served :=
  let n := (q.arg 0).toNat
  match if q.began then none else s.leaveBad p n with
  | some r => s.unserved r
  | none =>
    let s := p.moving.elim s fun r => s.modRegion part r fun g => ⟨g.slice, g.slot, false, 0, 0, 0⟩
    let s := (p.regionsOf n).foldl (fun s r => s.moveRegion part n r) s
    (s.endLeave part n).servedOk

/-! ### Attestation (R373, R374) -/

/-- The private scalar of a world's attestation key: 1 to n - 1 (R369). -/
def State.attestScalar (s : State) (b : Word × Word) : BitVec 384 :=
  BitVec.ofNat 384 (deriveKey s.rootOf 4 b.1 b.2 384 % (Config.p384Order - 1) + 1)

/-- Bytes 0 to 319 of a report. -/
def State.reportBody (s : State) (part : Nat) (p : Part) (world : Nat) (nonce : List Byte) : List Byte :=
  let b := s.binding part world
  let m := s.markhor
  beBytes 4 0x41545354 ++ beBytes 2 1 ++ beBytes 2 (sliceMask p.slices) ++ beBytes 8 Config.packageId.toNat ++ beBytes 1 part
    ++ beBytes 1 world ++ beBytes 2 0 ++ beBytes 4 b.1.toNat ++ beBytes 4 b.2.toNat ++ beBytes 4 (boolNat p.xen) ++ nonce
    ++ beBytes 48 (Config.firmwareDigest 0).toNat ++ beBytes 48 (Config.firmwareDigest 1).toNat
    ++ beBytes 48 (Config.firmwareDigest 2).toNat ++ beBytes 48 p.kdig.toNat
    ++ (List.range 8).flatMap (fun i => beBytes 4 (m.counter i)) ++ beBytes 16 0

/-- ATTEST (R374): the report and its signature. -/
def State.serveAttest (s : State) (part : Nat) (p : Part) (nonceAt reportAt world : Nat) : Served :=
  if 15 < world ∨ !s.rangeValid part nonceAt 48 ∨ !s.rangeValid part reportAt 416 then s.unserved 1
  else
    let body := s.reportBody part p world (s.readMem part nonceAt 48)
    let sig := Config.ecdsaSign (s.attestScalar (s.binding part world)) (Config.sha384 body)
    (s.markhorWrite part reportAt (body ++ beBytes 96 sig.toNat)).servedOk

/-- ATTKEY (R361, R373): the public point of a world's attestation key. -/
def State.serveAttkey (s : State) (part : Nat) (at_ world : Nat) : Served :=
  if 15 < world ∨ !s.rangeValid part at_ 96 then s.unserved 1
  else (s.markhorWrite part at_ (beBytes 96 (Config.ecdsaPublic (s.attestScalar (s.binding part world))).toNat)).servedOk

/-! ### Recovery of a slice (R411, R414) -/

/-- The slices of a partition that its links reach from some, in so many hops. -/
def State.reach (s : State) (slices : List Nat) : Nat → List Nat → List Nat
  | 0, l => l
  | k + 1, l => s.reach slices k (slices.filter fun n => l.contains n || l.any fun m => (List.range 4).any fun d => neighbour m d == some n && s.linkUp m n)

/-- Whether a partition's slices are still joined by links within it. -/
def State.joined (s : State) (slices : List Nat) : Bool := slices.all (s.reach slices slices.length (slices.take 1)).contains

/-- Steps 4 to 6 for a slice's spares: the harts and the channel that await one take it, as long as there is one (R410). -/
def Slice.swapSpares (x : Slice) : Slice :=
  let e := x.err
  let h := (List.range 4).find? fun i => e.waitHart.getLsbD i
  let x := match h with
    | some i => if 0 < e.spHart then
        { x with hartSpare := false, err := { x.err with spHart := e.spHart - 1, waitHart := x.err.waitHart &&& ~~~(1#4 <<< i) } } else x
    | none => x
  let take := min x.err.chMarked.length x.err.spPch
  let left := x.err.chMarked.drop take
  { x with err := { x.err with spPch := x.err.spPch - take, chMarked := left, waitPch := !left.isEmpty,
                               chErrs := (x.err.chMarked.take take).foldl (fun m c => m.erase c) x.err.chErrs } }

/-- RESULT of a RECOVER that is turned away (R361, R414). -/
def State.recoverBad (s : State) (p : Part) (n : Nat) : Option Nat :=
  if !p.slices.contains n then some 1
  else if !s.slicePrepared n then some 2
  else none

/-- The sequence of a RECOVER starts: ESUM.RECOV is 1, and the slice's firewall holds the requests of others (R414). -/
def State.startRecover (s : State) (n : Nat) : State :=
  s.modSlice n fun x => { x with err := { x.err with esum := x.err.esum ||| 0x80#8 } }

/-- RECOVER (R414), or what is left of it: steps 3 to 7, at whose end RECOV clears. Traffic takes ways that avoid the failed links; without a
path between the partition's slices the partition stays held, and Markhor reports it (R411). -/
def State.serveRecover (s : State) (part : Nat) (p : Part) (q : MailReq) : Option Served :=
  let n := (q.arg 0).toNat
  match if q.began then none else s.recoverBad p n with
  | some r => some (s.unserved r)
  | none =>
    if !s.joined p.slices then none
    else
    let s := (((s.resetSlice n).modSlice n Slice.swapSpares).settleSpareReq n).programRoutes part
    let s := s.modPart part fun p => { p with held := false }
    let view : SMap DWord := p.launches.mapVals' fun e => e.word
    some ((List.range Config.coresPerSlice).foldl (fun s c => s.modCore (16 * n + c) fun k => { k with launchView := view }) s).servedOk

/-! ### The mailbox (R360) -/

/-- A request served; none while the partition stays held (R411). -/
def State.serveRequest (s : State) (part : Nat) (p : Part) (q : MailReq) : Option Served :=
  let a := q.arg
  let n (i : Nat) : Nat := (a i).toNat
  match q.code with
  | 0x01 => some (s.serveIdent part p)
  | 0x02 => some (s.serveBootok part p)
  | 0x03 => some (s.servePtext part p ((a 0).getLsbD 0))
  | 0x04 => some (s.serveWbind part p (n 0) (n 1) (n 2))
  | 0x05 => some (s.serveAssign part p q)
  | 0x06 => some (s.serveRdrop part p (n 0))
  | 0x07 => some (s.serveRadd part p (n 0) (n 1))
  | 0x08 => some (s.serveJoin part p (n 0) (a 1))
  | 0x09 => some (s.serveLeavebegin part p (n 0))
  | 0x0A => some (s.serveLeave part p q)
  | 0x0B => some (s.serveAttest part p (n 0) (n 1) (n 2))
  | 0x0C => some (s.serveAttkey part (n 0) (n 2))
  | 0x0D => s.serveRecover part p q
  | _ => some (s.unserved 3)

def State.modMailbox (s : State) (part : Nat) (f : Mailbox → Mailbox) : State := s.modPart part fun p => { p with mailbox := f p.mailbox }

/-- CODE is written (R360): the request starts with the arguments as they stand, and BOOTOK stops the watchdog at once (R358); while BUSY
the write is ignored and sets OVR. -/
def State.writeCode (s : State) (part code : Nat) : State :=
  match s.part? part with
  | none => s
  | some p =>
    if p.mailbox.busy.isSome then s.modMailbox part fun m => { m with ovr := true }
    else
      let args := (List.range 8).map fun i => p.mailbox.args.get i 0#64
      let s := s.modMailbox part fun m => { m with busy := some ⟨code, args, false, 0, false, 0, []⟩ }
      if code = 2 then s.modPart part fun p => { p with watchdog := none } else s

/-- The request in a partition's mailbox changed. -/
def State.modBusy (s : State) (part : Nat) (f : MailReq → MailReq) : State :=
  s.modMailbox part fun m => { m with busy := m.busy.map f }

/-- The partition whose request cannot end stays held, and is reported once (R411). -/
def State.reportHeld (s : State) (part : Nat) : State :=
  let s := s.modPart part fun p => { p with held := true }
  if s.markhor.reports.contains (part + 512) then s
  else { s with markhor := { s.markhor with reports := s.markhor.reports ++ [part + 512] } }

/-- What serving a request has given, held for its DONE. -/
def State.publish (r : Served) (part : Nat) (q : MailReq) : State :=
  r.state.modMailbox part fun m => { m with busy := some { q with served := true, result := r.result, outs := r.outs } }

/-- Markhor serves the request that waits in a partition's mailbox, or what is left of it. -/
def State.serveMailbox (s : State) (part : Nat) : State :=
  match s.part? part with
  | none => s
  | some p => match p.mailbox.busy with
    | none => s
    | some q =>
      if q.served then s
      else match s.serveRequest part p q with
        | none => ((s.startRecover (q.arg 0).toNat).modBusy part fun q => { q with began := true }).reportHeld part
        | some r => State.publish r part q

/-- One instant of an ASSIGN, a LEAVE or a RECOVER that Markhor has under way, so that others see what lies between (R368, R372, R414,
R430): its checks, or one line of an ASSIGN or of a region's move, the start of a region's move, or the end. -/
def State.mailTurn (s : State) (part : Nat) (p : Part) (q : MailReq) : State :=
  let n := (q.arg 0).toNat
  let begin_ (s : State) : State := s.modBusy part fun q => { q with began := true }
  let checked (bad : Option Nat) (s : State) : State := match bad with
    | some _ => s.serveMailbox part
    | none => begin_ s
  match q.code with
  | 0x05 =>
    let what := q.arg 2
    if !q.began then checked (s.assignBad part p n (q.arg 1).toNat what) s
    else if q.lines < (q.arg 1).toNat / 128 then
      (s.assignLine part p (what.extractLsb' 0 2) (what.extractLsb' 4 4) (n / 128 + q.lines)).modBusy part fun q =>
        { q with lines := q.lines + 1 }
    else s.serveMailbox part
  | 0x0A =>
    if !q.began then checked (s.leaveBad p n) s
    else match p.moving, p.regionsOf n with
      | some r, _ => s.modRegion part r Region.switchLine
      | none, r :: _ => s.beginMove part n r
      | none, [] => s.serveMailbox part
  | 0x0D => if !q.began then checked (s.recoverBad p n) ((s.recoverBad p n).elim (s.startRecover n) fun _ => s) else s.serveMailbox part
  | _ => s.serveMailbox part

/-- A request of a code made through a slice's mailbox: of a request of the code that waits, one instant is done; else CODE is written,
and the request that this starts is served. -/
def State.request (s : State) (slice code : Nat) : State :=
  match (s.slice slice).part with
  | none => s
  | some part => match (s.part? part).bind fun p => p.mailbox.busy with
    | none => (s.writeCode part code).serveMailbox part
    | some q => match s.part? part with
      | some p => if q.code = code ∧ !q.served then s.mailTurn part p q else s.writeCode part code
      | none => s

/-- IDENT (R361). -/
def execIdent (slice : Nat) (s : State) : Outcome State Fault Refusal := .next (s.request slice 0x01)
/-- BOOTOK (R361). -/
def execBootok (slice : Nat) (s : State) : Outcome State Fault Refusal := .next (s.request slice 0x02)
/-- PTEXT (R361). -/
def execPtext (slice : Nat) (s : State) : Outcome State Fault Refusal := .next (s.request slice 0x03)
/-- WBIND (R371). -/
def execWbind (slice : Nat) (s : State) : Outcome State Fault Refusal := .next (s.request slice 0x04)
/-- ASSIGN (R372). -/
def execAssign (slice : Nat) (s : State) : Outcome State Fault Refusal := .next (s.request slice 0x05)
/-- RDROP (R361). -/
def execRdrop (slice : Nat) (s : State) : Outcome State Fault Refusal := .next (s.request slice 0x06)
/-- RADD (R361). -/
def execRadd (slice : Nat) (s : State) : Outcome State Fault Refusal := .next (s.request slice 0x07)
/-- JOIN (R367). -/
def execJoin (slice : Nat) (s : State) : Outcome State Fault Refusal := .next (s.request slice 0x08)
/-- LEAVEBEGIN (R361). -/
def execLeavebegin (slice : Nat) (s : State) : Outcome State Fault Refusal := .next (s.request slice 0x09)
/-- LEAVE (R368). -/
def execLeave (slice : Nat) (s : State) : Outcome State Fault Refusal := .next (s.request slice 0x0A)
/-- ATTEST (R374). -/
def execAttest (slice : Nat) (s : State) : Outcome State Fault Refusal := .next (s.request slice 0x0B)
/-- ATTKEY (R361). -/
def execAttkey (slice : Nat) (s : State) : Outcome State Fault Refusal := .next (s.request slice 0x0C)
/-- RECOVER (R414). -/
def execRecover (slice : Nat) (s : State) : Outcome State Fault Refusal := .next (s.request slice 0x0D)

/-- MAILBOX_OVERRUN (R360): a code written while BUSY is ignored and sets OVR; written otherwise it starts its request. -/
def execMailboxOverrun (slice : Nat) (code : Byte) (s : State) : Outcome State Fault Refusal :=
  match (s.slice slice).part with
  | none => .next s
  | some part => .next (s.writeCode part code.toNat)

/-- MAILBOX_DONE (R360): what is left of the request is served, the results are published, BUSY clears, DONE sets and the MSI is sent; a counter's fuses are programmed by
then (R376). -/
def execMailboxDone (part : Nat) (s : State) : Outcome State Fault Refusal :=
  let s := s.serveMailbox part
  match s.part? part with
  | none => .next s
  | some p => match p.mailbox.busy with
    | none => .next s
    | some q =>
      if !q.served then .next s
      else
        let s := { s with markhor := s.markhor.finishFuses }
        let s := s.modMailbox part fun m =>
          { m with busy := none, done := true, result := q.result, outs := q.outs.foldl (fun o w => o.set w.1 w.2) m.outs }
        .next (s.sendMsi p.boot part p.mailbox.msiAddr p.mailbox.msiData)

end Sys2Proof.Machine
end

