-- ==== Sys2Proof/Machine/Power.lean ====
section
/-!
DEFINITION. A core's clock edge and what counts at it (R379-R387): the allowance counter and WLEVEL, the results and generator
instructions that are due, a write of %preq, Tahr's grants, the fail-safe rate, the rail switch, and the loans of a slice.
-/

namespace Sys2Proof.Machine

open Host (Outcome)

/-- The power registers of a core changed. -/
def State.modPower (s : State) (core : Nat) (f : Power → Power) : State := s.modCore core fun k => { k with power := f k.power }

/-! ### Generator instructions that complete at an edge (R80, R91) -/

/-- The sealed block registered under a key for a context's ownership (R80, R81). -/
def Core.registered (k : Core) (t : Team) (key : DWord) : Option Nat :=
  if key = 0#64 then none
  else (k.blocks.cells.find? fun p => p.2.st == .sealed && p.2.key == key && p.2.owner == t.owner && p.2.sup == t.gen.sup).map (·.1)

/-- A GBLKSEAL completes (R80): the block is sealed with its length, its unused granules are free, and it registers under the key
unless another block has. -/
def Core.completeSeal (k : Core) (ctx : Nat) (t : Team) (d : BitVec 6) (key : DWord) : Core :=
  match t.gen.opened with
  | none => k
  | some n => match k.blocks.find n with
    | none => k
    | some b =>
      let b := { b with st := .sealed, granules := ceilDiv b.len 64, sealer := ctx }
      let hit := k.registered t key
      let b := match hit with
        | some _ => { b with st := .released, key := 0#64 }
        | none => { b with key := key, regAt := k.clock }
      let h := k.handleWord (hit.getD n)
      { k with blocks := k.blocks.set n b }.modTeam ctx fun t =>
        ({ t with gen := { t.gen with opened := none } }.setGreg d h).genStep k.clock

/-- A GSTART completes (R91): its groups start, and issue from the next clock on. -/
def State.completeStart (s : State) (c : CtxRef) (d : BitVec 6) (e : EntryDesc) (arg : DWord) : State :=
  let clock := (s.core c.core).clock
  let file := startFile (arg.extractLsb' 0 32) (arg.extractLsb' 32 32)
  let r := s.startGroups c.core c.ctx e e.ngrp (fun _ => file) (clock + 1)
  r.1.modTeam c.core c.ctx fun t => (t.setGreg d (BitVec.ofNat 64 r.2)).genStep clock

/-- The generator instruction of a context that completes in the present clock. -/
def State.completeGen (s : State) (c : CtxRef) : State :=
  match s.team? c.core c.ctx with
  | none => s
  | some t =>
    let k := s.core c.core
    match t.gen.run with
    | .sealing at_ d key => if at_ ≤ k.clock then s.setCore c.core (k.completeSeal c.ctx t d key) else s
    | .starting at_ d e arg => if at_ ≤ k.clock then s.completeStart c d e arg else s
    | _ => s

/-- Every context of a core, in ascending order (R80, R132). -/
def State.completeGens (s : State) (core : Nat) : State :=
  (List.range Config.contexts).foldl (fun s c => s.completeGen ⟨core, c⟩) s

/-! ### The allowance counter (R381-R384) -/

/-- The debit that the word a group is at would draw (R382). -/
def View.nextDebit (v : View) : Nat :=
  match v.core.fetch v.fib with
  | .word i => if (productMaps i).isSome then v.productDebit i else Config.weight (sliceOf v.g.core) (powerClass i)
  | _ => 0

/-- The groups at the current fibres of a core's slots. -/
def State.currentViews (s : State) (core : Nat) : List View :=
  (s.core core).subs.cells.flatMap fun p => p.2.slots.cells.filterMap fun q => s.view ⟨core, p.1, q.1, q.2.current⟩

/-- The ready slots that a clock withheld (R384). -/
def State.withheldViews (s : State) (core : Nat) : List View :=
  let k := s.core core
  (s.currentViews core).filter fun v => s.readyIn v k.clock && decide (v.team.desc.prio < k.power.wlevel)

/-- Whether a slot of a core has been ready in the present clock: one is, or an issue opportunity of the clock has found one, whatever
has become of it since. -/
def State.anyReady (s : State) (core : Nat) : Bool :=
  let k := s.core core
  (s.currentViews core).any (fun v => s.readyIn v k.clock) || k.power.sawReady == some k.clock

/-- WLEVEL of an allowance (R383). -/
def withholding (slice : Nat) (allow : Int) : Nat :=
  let a := allow / 2 ^ 16
  let th : Int := Config.th slice
  if th ≤ a then 0 else min 4 (1 + ((th - a) / ((Config.stepLess1 slice + 1 : Nat) : Int)).toNat)

/-- ALLOW at the end of a clock (R383). -/
def Power.nextAllow (p : Power) (slice : Nat) : Int :=
  max (min (p.allow + p.rate) (Config.cap slice) - p.debits * 2 ^ 16) (-2 ^ 31)

/-- The power registers at the edge that ends a clock (R381, R383, R386, R387). -/
def Power.edge (p : Power) (slice clock : Nat) (withheld : Nat) (ready : Bool) : Power :=
  let allow := p.nextAllow slice
  let start := p.switching.isNone && p.railReq != p.rail
  { p with
    allow := allow
    wlevel := withholding slice allow
    wphase := (clock + 1) % 4
    drawn := p.drawn + p.debits + withheld
    clocks := p.clocks + 1
    debits := 0
    idleFor := if ready then 0 else p.idleFor + 1
    withheldFor := if p.wlevel = 0 then 0 else p.withheldFor + 1
    switching := if start then some (clock + 1 + 24) else p.switching
    changed := if start then false else p.changed }

/-- The clock at which a rail switch that ends at a clock changes the core's clock over: 20 ns after its pause begins, which is 20
clocks at VH and 12 at VL (R386). -/
def Power.changeover (p : Power) (ends : Nat) : Nat := if p.rail then ends - 12 else ends - 4

/-! ### The clock edge -/

/-- The operations of the special-function units of a core that complete in the present clock, each with its issue clock (R167). -/
def Core.sfuDue (core : Nat) (k : Core) : List (Nat × Turn) :=
  k.subs.cells.flatMap fun p => p.2.sfu.filterMap fun o => match o.due with
    | some d => if d ≤ k.clock then some (o.issued, .event (.sfuComplete core p.1 o.id)) else none
    | none => none

/-- The special-function units of a core that may accept an operation (R167). -/
def Core.sfuAccepts (core : Nat) (k : Core) : List Turn :=
  k.subs.cells.filterMap fun p =>
    if p.2.sfu.any (fun o => o.due.isNone) ∧ p.2.sfuNext ≤ k.clock then some (.event (.sfuAccept core p.1)) else none

/-- The turns that a core's present clock owes before it can end: those of the issue ports of the sub-partitions that hold slots, and of
the generator pipeline (R66, R103). -/
def Core.owedTurns (core : Nat) (k : Core) : List Turn :=
  (k.subs.cells.filterMap fun p => if p.2.slots.cells.isEmpty || k.portDone p.1 then none else some (.issue core p.1))
    ++ (if k.teams.cells.isEmpty || k.genDone then [] else [.gen core])

/-- What lands in the registers of a core at the end of its present clock, in the order of issue, whichever fibre issued it (R132): the
fixed-latency results (R106), the operations of the special-function units (R167) and of the matrix units (R290) that complete, and the
SPAWNs (R119, R120). -/
def Core.landings (core : Nat) (k : Core) : List Turn :=
  (byIssue ((k.dueResults core).map (fun p => (p.1, .event (.resultLand p.2)))
    ++ k.sfuDue core
    ++ k.dueMatrix.map (fun p => (p.1, .event (.matrixOpComplete core p.2.1 p.2.2)))
    ++ (k.spawnLandings core).map fun p => (p.1, .event (.spawnComplete p.2.1 p.2.2)))).map (·.2)

/-- What happens in a core at the end of its present clock, in order: the faults that the accesses and copies of the clock before show
(R429), what lands, in the order of issue (Core.landings), the matrix operations that start and whose occupancy ends (R290, R388,
R389), and the emit queues and waits of the contexts (R79, R83, R85). -/
def State.closeTurns (s : State) (core : Nat) : List Turn :=
  let k := s.core core
  (s.dueChecks core ++ k.dueFailures).map (fun p => .event (.accessFaultDetect p.1 p.2))
  ++ k.landings core
  ++ k.matStarts.map (fun n => .event (.matrixOpStart core n))
  ++ k.matEnds.map (fun n => .event (.matrixOccupancyEnd core n))
  ++ k.genCloses core

/-- What happens in a core at the beginning of its present clock: the rail's events, the operations that the special-function units
accept, the contexts whose GYIELD ends, and the limiter's window. -/
def Core.openTurns (core : Nat) (k : Core) : List Turn :=
  (match k.power.switching with
    | some e => (if !k.power.changed && decide (k.power.changeover e ≤ k.clock) then [.event (.railChangeover core)] else [])
        ++ (if e ≤ k.clock then [.event (.railSwitchEnd core)] else [])
    | none => [])
  ++ k.sfuAccepts core
  ++ k.genOpens core
  ++ (if k.clock % 4 = 0 then [.event (.limiterWindow core)] else [])

/-- Every fibre of a core without the falls of the clock that ends. -/
def Sub.nextClock (x : Sub) : Sub :=
  { x with slots := x.slots.mapVals fun _ t => { t with fibres := t.fibres.mapVals fun _ f => { f with fell := [] } } }

/-- The constant words that the current fibres of a core's slots wait for are sought (R37, R218). -/
def State.fillConsts (s : State) (core : Nat) : State :=
  (s.currentViews core).foldl (fun s v => match v.core.fetch v.fib with
    | .word i => if v.runs then v.constRefs.foldl (fun s r => s.fillConst v (newOp v i v.fib.exm [] [] [] 0#32) r.1 r.2) s else s
    | _ => s) s

/-- A slot of a core has been ready in the clock that ends: the loan it has made is recalled (R387). -/
def State.recallLoans (s : State) (core : Nat) (ready : Bool) : State :=
  if ready && (s.slice (sliceOf core)).loans.vals.any fun l => l.lender == core % Config.coresPerSlice then
    s.modSlice (sliceOf core) fun x =>
      { x with loans := x.loans.mapVals fun _ l => if l.lender = core % Config.coresPerSlice then { l with recalled := true } else l }
  else s

/-- The edge that ends a clock of a core and begins the next: every slot's change of fibre, then the counters of the clock. -/
def State.clockEdge (s : State) (core : Nat) : State :=
  let withheld := ((s.withheldViews core).map View.nextDebit).sum
  let ready := s.anyReady core
  let s := (((s.recallLoans core ready).settleSlots core).fillConsts core).noteAsks core
  let s := s.modCore core fun k =>
    { k with
      clock := k.clock + 1
      closing := false
      segs := 0
      drained := false
      power := k.power.edge (sliceOf core) k.clock withheld ready
      subs := k.subs.mapVals fun _ x => x.nextClock
      teams := k.teams.mapVals fun _ t => t.settleEntries (k.clock + 1) }
  let s := (s.settlePreq core).completeGens core
  { s with agenda := (s.core core).openTurns core ++ s.agenda }

/-- ALLOWANCE_UPDATE (R383): the present clock of a core ends and the next begins. What the clock still owes comes first: an issue
opportunity of every sub-partition and the generator's turn, then the events of the clock's end. -/
def execAllowanceUpdate (core : Nat) (s : State) : Outcome State Fault Refusal :=
  let k := s.core core
  let again : List Turn := [.event (.allowanceUpdate core)]
  if k.closing then .next (s.clockEdge core)
  else if !(k.owedTurns core).isEmpty then .next { s with agenda := k.owedTurns core ++ again ++ s.agenda }
  else
    let s := s.modCore core fun k => { k with closing := true }
    .next { s with agenda := s.closeTurns core ++ again ++ s.agenda }

/-! ### Grants (R379, R380) -/

/-- The grant of one core for a level (R379). -/
def grantFor (slice demand level : Nat) : Nat := max (failsafeRate slice) (min demand (min (Config.nominal slice) level))

/-- The sum of the grants for a level; demands are given by core. -/
def grantSum (demands : List (Nat × Nat)) (level : Nat) : Nat := (demands.map fun d => grantFor (sliceOf d.1) d.2 level).sum

/-- The largest 32-bit level whose grants do not exceed a budget (R379), found bit by bit. -/
def grantLevel (budget : Nat) (demands : List (Nat × Nat)) : Nat :=
  (List.range 32).foldl (fun l i => if grantSum demands (l + 2 ^ (31 - i)) ≤ budget then l + 2 ^ (31 - i) else l) 0

/-- The cores of the package. -/
def allCores : List Nat := List.range (Config.slices * Config.coresPerSlice)

/-- DEMAND over the interval that ends (R381): the mean, with the fraction below 16 bits dropped. -/
def Power.measured (p : Power) : Nat := p.drawn * 2 ^ 16 / p.clocks

/-- Whether the recovery sequence of a slice runs. -/
def State.recovering (s : State) (slice : Nat) : Bool := (s.slice slice).err.esum.getLsbD 7

/-- The last grant of a core, which Tahr holds in reserve while its slice is recovered (R414): the fail-safe rate before any. -/
def Power.lastRate (p : Power) (slice : Nat) : Nat := p.granted.getD (failsafeRate slice)

/-- GRANT_INTERVAL_END (R379): Tahr reads every core's DEMAND and computes its grant, out of what the reserve of the slices that are
being recovered leaves (R414). -/
def execGrantIntervalEnd (s : State) : Outcome State Fault Refusal :=
  let all_ := allCores.map fun c => (c, (s.core c).power.measured)
  let demands := all_.filter fun d => !s.recovering (sliceOf d.1)
  let kept := ((all_.filter fun d => s.recovering (sliceOf d.1)).map fun d => (s.core d.1).power.lastRate (sliceOf d.1)).sum
  let level := grantLevel (Config.budget - kept) demands
  let s := all_.foldl (fun s d => s.modPower d.1 fun p => { p with demand := d.2, drawn := 0, clocks := 0 }) s
  .next (demands.foldl (fun s d => s.modPower d.1 fun p =>
    { p with grant := some (grantFor (sliceOf d.1) d.2 level), granted := some (grantFor (sliceOf d.1) d.2 level) }) s)

/-- The cores of a slice. -/
def sliceCores (slice : Nat) : List Nat := (List.range Config.coresPerSlice).map (slice * Config.coresPerSlice + ·)

/-- A grant is taken: it replaces RATE and ends the fail-safe (R379, R380). -/
def Power.take (p : Power) (now : Nat) : Power :=
  match p.grant with
  | some r => { p with rate := r, failsafe := false, lastGrant := now, grant := none }
  | none => p

/-- GRANT_TAKE (R379, R387): the cores of a slice take their grants together, and every loan ends. -/
def execGrantTake (slice : Nat) (s : State) : Outcome State Fault Refusal :=
  if (sliceCores slice).all fun c => (s.core c).power.grant.isNone then .next s
  else
    let now := (s.slice slice).cyc.toNat
    let s := (sliceCores slice).foldl (fun s c => s.modPower c fun p => p.take now) s
    .next (s.modSlice slice fun x => { x with loans := .empty })

/-- FAILSAFE_TIMEOUT (R380): 150,000 slice reference clocks without a grant have passed; a core that is at its fail-safe rate since
stays as it is, with what loans have made of its rate. -/
def execFailsafeTimeout (core : Nat) (s : State) : Outcome State Fault Refusal :=
  if s.grantLate core 0 && !(s.core core).power.failsafe then .next (s.failsafe core) else .next s

/-! ### Rails (R386) -/

/-- RAIL_SWITCH_REQUEST (R386): RAILREQ is written; a switch starts at the next clock at which none is under way and it differs from
RAIL. -/
def execRailSwitchRequest (core : Nat) (low : Bool) (s : State) : Outcome State Fault Refusal :=
  .next (s.modPower core fun p => { p with railReq := low })

/-- RAIL_CHANGEOVER (R386): the core's clock changes to the new rail's. -/
def execRailChangeover (core : Nat) (s : State) : Outcome State Fault Refusal :=
  let k := s.core core
  match k.power.switching with
  | some e =>
    if !k.power.changed && decide (k.power.changeover e ≤ k.clock) then .next (s.modPower core fun p => { p with changed := true })
    else .next s
  | none => .next s

/-- RAIL_SWITCH_END (R386): RAIL takes the new value, and SWITCHING clears. -/
def execRailSwitchEnd (core : Nat) (s : State) : Outcome State Fault Refusal :=
  let k := s.core core
  match k.power.switching with
  | some e =>
    if e ≤ k.clock then .next (s.modPower core fun p => { p with rail := !p.rail, switching := none, changed := false })
    else .next s
  | none => .next s

/-! ### Lending (R387) -/

/-- A core of a slice by its local number. -/
def coreOf (slice n : Nat) : Nat := slice * Config.coresPerSlice + n

/-- The borrower of a loan: the lowest-numbered other core of the slice that has been withheld for 1,000 clocks. -/
def State.borrowerFor (s : State) (slice lender : Nat) : Option Nat :=
  (List.range Config.coresPerSlice).find? fun n => n != lender && decide (1000 ≤ (s.core (coreOf slice n)).power.withheldFor)

/-- LOAN_MAKE (R387, R392): an idle core without a loan, as lender or as borrower, lends 7/8 of its rate, when an entry is free and a
core borrows. A lender one of whose slots is ready by then has the loan recalled at once. -/
def execLoanMake (slice lender : Nat) (s : State) : Outcome State Fault Refusal :=
  let x := s.slice slice
  let p := (s.core (coreOf slice lender)).power
  match (List.range 16).find? fun e => (x.loans.find e).isNone, s.borrowerFor slice lender with
  | some e, some b =>
    if Config.coresPerSlice ≤ lender ∨ p.idleFor < 2000 ∨ x.loans.vals.any (fun l => l.lender == lender || l.borrower == lender) then
      .next s
    else
      let r := p.rate * 7 / 8
      let ready := s.anyReady (coreOf slice lender)
      let s := s.modSlice slice fun x => { x with loans := x.loans.set e ⟨ready, lender, b, r⟩ }
      let s := s.modPower (coreOf slice lender) fun p => { p with rate := p.rate - r }
      .next (s.modPower (coreOf slice b) fun p => { p with rate := p.rate + r })
  | _, _ => .next s

/-- LOAN_RECALL_START (R387): a slot of the lender is ready. -/
def execLoanRecallStart (slice loan : Nat) (s : State) : Outcome State Fault Refusal :=
  match (s.slice slice).loans.find loan with
  | none => .next s
  | some l =>
    if s.anyReady (coreOf slice l.lender) then
      .next (s.modSlice slice fun x => { x with loans := x.loans.set loan { l with recalled := true } })
    else .next s

/-- LOAN_RECALL_COMPLETE (R387): the rate goes back and the entry is cleared. Where the borrower's rate is below the loan, which only
the fail-safe rate makes possible (R380), what goes back is not stated: a free amount of what the borrower has, so that the sum of the
rates stays as it was. -/
def execLoanRecallComplete (slice loan : Nat) (s : State) : Outcome State Fault Refusal :=
  match (s.slice slice).loans.find loan with
  | none => .next s
  | some l =>
    if l.recalled then
      let b := coreOf slice l.borrower
      let left := (s.core b).power.rate
      let f := s.fresh
      let r := if l.rate ≤ left then (l.rate, s) else ((Config.freeWord f.1).toNat % (left + 1), f.2)
      let s := r.2.modSlice slice fun x => { x with loans := x.loans.erase loan }
      let s := s.modPower b fun p => { p with rate := p.rate - r.1 }
      .next (s.modPower (coreOf slice l.lender) fun p => { p with rate := p.rate + r.1 })
    else .next s

end Sys2Proof.Machine
end

