-- ==== Sys2Proof/Machine/Ras.lean ====
section
/-!
DEFINITION. Detected errors and spares (R405-R411): the retry rule, poison, the owner rule, the end of the teams that hold failing
storage, quarantine, failed links, and the swap of a marked unit for its spare.
-/

namespace Sys2Proof.Machine

open Host (Outcome)

/-! ### Transient errors (R405, R413) -/

/-- The four counters of corrected errors: 0 HBM, 1 memory-side cache, 2 core, 3 link. -/
def ErrBlock.countCe (e : ErrBlock) (k : Nat) : ErrBlock :=
  let up (w : Word) : Word := if w = 0xFFFFFFFF#32 then w else w + 1#32
  match k with
  | 0 => { e with ceHbm := up e.ceHbm }
  | 1 => { e with ceMsc := up e.ceMsc }
  | 2 => { e with ceCore := up e.ceCore }
  | _ => { e with ceLink := up e.ceLink }

/-- A successful retry: the counter, LASTCE and ESUM.CE. -/
def State.corrected (s : State) (slice k loc : Nat) : State :=
  let s := s.modSlice slice fun x => { x with err := { x.err.countCe k with lastCe := BitVec.ofNat 64 loc } }
  s.setEsum slice ((s.slice slice).err.esum ||| 1#8)

/-! ### Records about data and parts (R412) -/

/-- World and identifier of the access that found an error. -/
def State.finderSpace (s : State) (f : Option Agent) : Nat × BitVec 12 :=
  match f with
  | some (.group g) => ((s.view g).map fun v => (v.team.desc.world, v.team.asid)).getD (0, 0#12)
  | some (.ctx c) => ((s.team? c.core c.ctx).map fun t => (t.desc.world, t.asid)).getD (0, 0#12)
  | some (.hart h) => (0, (s.hartOf h).owner .load)
  | _ => (0, 0#12)

/-- A record of an error: cause, SPACE, address and DETAIL. -/
def errRec (cause : Byte) (space : Nat × BitVec 12) (pa detail : Nat) : Rec :=
  { Rec.blank with cause := cause, world := space.1, asid := space.2, address := BitVec.ofNat 64 pa, detail := BitVec.ofNat 64 detail }

/-- A unit's record, under a number of the unit within its slice. -/
def State.unitRecord (s : State) (slice unit : Nat) (cause : Byte) (space : Nat × BitVec 12) (pa detail : Nat) : State :=
  s.postUnit slice unit (errRec cause (if cause = 0x84#8 ∨ cause = 0x86#8 then space else (0, 0#12)) pa detail)

/-- A unit is marked for a spare, record 0x84, or has none left, record 0x88. -/
def State.markUnit (s : State) (slice unit : Nat) (space : Nat × BitVec 12) (detail : Nat) (left : Bool) (mark : Slice → Slice) : State :=
  if left then ((s.modSlice slice mark).settleSpareReq slice).unitRecord slice unit 0x84#8 space 0 detail
  else s.unitRecord slice unit 0x88#8 space 0 detail

/-- A sub-partition with a lasting fault (R410): its core takes no team until the swap; without a spare it stays in use. -/
def State.markSub (s : State) (core sub : Nat) (space : Nat × BitVec 12) (detail : Nat) : State :=
  if ((s.core core).sub sub).marked then s
  else
    let left := !(s.core core).spareUsed && (s.core core).subs.vals.all fun x => !x.marked
    let s := if left then s.modSub core sub fun x => { x with marked := true } else s
    s.markUnit (sliceOf core) (0x1000 + core % 16 * 32 + sub) space detail left fun x =>
      { x with err := { x.err with waitCore := x.err.waitCore ||| (1#16 <<< (core % 16)) } }

/-- A core with a lasting fault (R410): without a spare it takes no more teams. -/
def State.markCore (s : State) (core : Nat) (space : Nat × BitVec 12) (detail : Nat) : State :=
  if (s.core core).marked || (s.core core).retired then s
  else
    let slice := sliceOf core
    let waiting := ((List.range Config.coresPerSlice).filter fun c => (s.core (16 * slice + c)).marked).length
    let left := decide (waiting < (s.slice slice).err.spCore)
    let s := s.modCore core fun k => if left then { k with marked := true } else { k with retired := true }
    s.markUnit slice (0x2000 + core % 16) space detail left fun x =>
      { x with err := { x.err with waitCore := x.err.waitCore ||| (1#16 <<< (core % 16)) } }

/-- A hart with a lasting fault. -/
def State.markHart (s : State) (h : HartRef) (space : Nat × BitVec 12) : State :=
  let e := (s.slice h.slice).err
  if e.waitHart.getLsbD h.hart then s
  else s.markUnit h.slice (0x3000 + h.hart) space 9 (decide (0 < e.spHart) && e.waitHart == 0#4) fun x =>
    { x with err := { x.err with waitHart := x.err.waitHart ||| (1#4 <<< h.hart) } }

/-- A lasting error of a channel: the sixteenth marks it for a spare. -/
def State.countChannel (s : State) (slice ch : Nat) (space : Nat × BitVec 12) : State :=
  let n := (s.slice slice).err.chErrs.get ch 0 + 1
  let s := s.modSlice slice fun x => { x with err := { x.err with chErrs := x.err.chErrs.set ch n } }
  let e := (s.slice slice).err
  if n = 16 ∧ !e.chMarked.contains ch then
    s.markUnit slice (0x4000 + ch) space (ch * 256) (decide (e.chMarked.length < e.spPch)) fun x =>
      { x with err := { x.err with waitPch := true, chMarked := x.err.chMarked ++ [ch] } }
  else s

/-- The ways of a bank that are quarantined once a lasting fault of a way has been dealt with: that way among them, unless four are (R409). -/
def Slice.quarantined (x : Slice) (bank way : Nat) : BitVec 12 :=
  let q := x.err.qmap.get bank 0#12
  if q.getLsbD way || decide (4 ≤ ((List.range 12).filter fun i => q.getLsbD i).length) then q else q ||| (1#12 <<< way)

/-- A way of a bank with a lasting fault at a line (R409): quarantined, record 0x85, or in use on a bank with four quarantined ways
already, record 0x88. -/
def State.quarantine (s : State) (slice bank way code pa : Nat) : State :=
  let old := (s.slice slice).err.qmap.get bank 0#12
  let q := (s.slice slice).quarantined bank way
  if old.getLsbD way then s
  else
    let s := s.modSlice slice fun x => { x with err := { x.err with qmap := x.err.qmap.set bank q } }
    s.unitRecord slice (0x5000 + bank) (if q = old then 0x88#8 else 0x85#8) (0, 0#12) pa (code + bank * 256 + q.toNat * 65536)

/-! ### Poison and the owner rule (R406, R407) -/

def State.poisonLine (s : State) (part line : Nat) : State := s.modLine part (line * 128) fun m => { m with poison := true }

/-- The teams of a partition with an address-space identifier, by core and context. -/
def State.teamsOf (s : State) (part : Nat) (asid : BitVec 12) : List (Nat × Nat × Team) :=
  s.cores.cells.flatMap fun p => p.2.teams.cells.filterMap fun q =>
    if q.2.part = part ∧ q.2.asid = asid then some (p.1, q.1, q.2) else none

/-- The team of the access that found an error, with its place: core, context and %grp (R426). -/
def State.finderTeam (s : State) (f : Option Agent) : Option (Nat × Nat × Word) :=
  match f with
  | some (.group g) => (s.view g).map fun v => (g.core, v.slot.ctx, placeOfCtx ⟨g.core, v.slot.ctx⟩ + BitVec.ofNat 32 v.fib.grp)
  | some (.ctx c) => (s.team? c.core c.ctx).map fun _ => (c.core, c.ctx, placeOfCtx c)
  | _ => none

/-- The owner rule (R407): the line is poisoned, the owner's teams end, and record 0x82 is written. It names the finder's team when the
rule ends it, and no team otherwise (R425). -/
def State.ownerRule (s : State) (slice part line : Nat) (owner : BitVec 12) (detail : Nat) (f : Option Agent) : State :=
  let ts := if owner = 0#12 then [] else s.teamsOf part owner
  let r := errRec 0x82#8 (0, owner) (line * 128) detail
  let r := match s.finderTeam f with
    | none => r
    | some w => match ts.find? fun t => t.1 == w.1 && t.2.1 == w.2.1 with
      | some t => { r with place := w.2.2, team := BitVec.ofNat 32 t.2.2.index, launch := BitVec.ofNat 8 t.2.2.launch }
      | none => r
  let s := (s.poisonLine part line).postError slice r
  let s := if ts.isEmpty then s else s.setEsum slice ((s.slice slice).err.esum ||| 0x08#8)
  ts.foldl (fun s t => s.killTeam t.1 t.2.1) s

/-! ### Core storage (R408) -/

/-- The contexts that hold a register of a sub-partition's bank, by its physical index. -/
def Sub.holdersOf (x : Sub) (index : Nat) : List Nat :=
  (x.slots.vals.filterMap fun t => if t.units.contains (index / 32) then some t.ctx else none).dedup

/-- The contexts that hold a block of the emit store. -/
def Core.blockHolders (c : Nat) (k : Core) (n : Nat) : List Nat :=
  k.teams.cells.filterMap fun p =>
    let t := p.2
    let own := (k.blocks.find n).any fun b => b.owner == t.owner && !b.sup
    let runs := (k.teamGroups c p.1).any fun g => handleBlock g.2.2.handle == n
    if t.gen.opened = some n || t.references n || runs || own then some p.1 else none

/-- Every team of a list ends with record 0x83; without one, the record alone is written. -/
def State.endHolders (s : State) (core : Nat) (ctxs : List Nat) (space : Nat × BitVec 12) (detail : Nat) : State :=
  let slice := sliceOf core
  let base := errRec 0x83#8 space 0 detail
  if ctxs.isEmpty then s.postError slice base
  else ctxs.foldl (fun s c => match s.team? core c with
    | none => s
    | some t =>
      (s.postError slice { base with place := placeOfCtx ⟨core, c⟩, team := BitVec.ofNat 32 t.index, launch := BitVec.ofNat 8 t.launch }).killTeam
        core c) s

/-! ### Entries with parity alone, and a root port's completions (R405) -/

/-- A list without its entry at a place. -/
def SMap.dropAt {α : Type} (m : SMap α) (i : Nat) : SMap α := ⟨m.cells.eraseIdx i⟩

/-- An entry of a unit with parity alone is dropped, to be fetched again. -/
def Core.dropEntry (k : Core) (u i : Nat) : Core :=
  if u = constUnit then { k with constCache := k.constCache.dropAt i }
  else if u = genUnit then { k with genCache := k.genCache.dropAt i }
  else if u = tlbUnit then { k with tlb := k.tlb.eraseIdx i }
  else k.modSub (u - subTlbUnit) fun x => { x with tlb := x.tlb.eraseIdx i }

/-- A parity error of an entry: the entry is fetched again, and disabled at its second error. -/
def State.parityError (s : State) (core u i : Nat) : State :=
  let key := (core % 16 * 64 + u) * 65536 + i
  let n := (s.slice (sliceOf core)).err.parity.get key 0 + 1
  let s := s.modSlice (sliceOf core) fun x => { x with err := { x.err with parity := x.err.parity.set key n } }
  s.modCore core fun k =>
    let k := k.dropEntry u i
    if n = 2 then { k with parityOff := k.parityOff.set u (k.parityOff.get u 0 + 1) } else k

/-- The completion that a root port sent last is damaged on its link: the poisoned bit, or Completer Abort without data. Which is free. -/
def State.damageReply (s : State) (slice : Nat) : State :=
  let f := s.fresh
  let abort := (Config.freeWord f.1).getLsbD 0
  let damage (r : DevReply) : DevReply := if abort then { r with status := 2, data := [] } else { r with status := 1 }
  f.2.modSlice slice fun x => { x with port := { x.port with replies := match x.port.replies.reverse with
    | r :: rest => (damage r :: rest).reverse
    | [] => [] } }

/-! ### The retry rule (R405) -/

/-- The slice whose queue a site reports to, the counter of a corrected error, and its locator. -/
def State.siteOf (s : State) (e : ErrorSite) : Nat × Nat × Nat :=
  match e with
  | .hbmLine p l | .lineMac p l => ((s.homeSlice p (l * 128)).getD 0, 0, l * 128)
  | .mscLine p l _ _ => ((s.homeSlice p (l * 128)).getD 0, 1, l * 128)
  | .l1Line c l => (sliceOf c, 2, l * 128)
  | .register c b _ | .tile c b _ => (sliceOf c, 2, c * 32 + b)
  | .granule c _ | .emitBlock c _ | .parity c _ _ => (sliceOf c, 2, c)
  | .meshLink n d => (n, 3, d.val)
  | .ethernet n => (n, 3, 4)
  | .pcie n => (n, 3, 5)
  | .hartCache h l _ => (h.slice, 2, l * 128)

/-- The partition of a slice. -/
def State.slicePart (s : State) (n : Nat) : Nat := ((s.slice n).part).getD 0

/-- What follows a retry that failed, by the storage: the data's record, then the parts', then the consumers' (R405, R412). A line's
consumers find its poison, and those of a mesh link the error response, when their accesses perform (R406, R411). A MAC that does not
match is an error of its HBM4E line (R370). -/
def State.lasting (s : State) (e : ErrorSite) (f : Option Agent) : State :=
  let space := s.finderSpace f
  match e with
  | .hbmLine p l | .lineMac p l =>
    let slice := (s.homeSlice p (l * 128)).getD 0
    let ch := homeBank (l * 128)
    ((s.poisonLine p l).postError slice (errRec 0x80#8 space (l * 128) (ch * 256))).countChannel slice ch space
  | .mscLine p l way dirty =>
    let slice := (s.homeSlice p (l * 128)).getD 0
    let bank := homeBank (l * 128)
    let mask := (s.slice slice).quarantined bank way
    let s := if dirty then s.ownerRule slice p l (s.line p (l * 128)).owner (2 + bank * 256 + mask.toNat * 65536) f else s
    s.quarantine slice bank way (if dirty then 2 else 1) (l * 128)
  | .l1Line c l =>
    let s := match (s.core c).l1.find l with
      | none => s
      | some x =>
        let s := s.dropLine c l
        if x.dirty.isEmpty then s else s.ownerRule (sliceOf c) (s.partOf c) l x.owner 3 f
    let s := s.modSlice (sliceOf c) fun x => { x with err := { x.err with waysOff := x.err.waysOff.set c (x.err.waysOff.get c 0 + 1) } }
    let n := (s.core c).l1.cells.length
    if n = 0 then s else s.evictTo c (s.l1Room c) n
  | .register c b i =>
    let holders := ((s.core c).sub b).holdersOf i
    (s.markSub c b space 4).endHolders c holders space 4
  | .tile c b i =>
    let holders := ((s.core c).sub b).tileOwner.find i
    (s.markSub c b space 4).endHolders c holders.toList space 4
  | .granule c i =>
    let holder := ((s.core c).granules.get i ⟨0, none⟩).ctx
    (s.markCore c space 4).endHolders c holder.toList space 4
  | .emitBlock c n =>
    let holders := (s.core c).blockHolders c n
    (s.markCore c space 4).endHolders c holders space 4
  | .parity c u i => s.parityError c u i
  | .meshLink n d =>
    let s := s.modSlice n fun x => { x with err := { x.err with links := x.err.links ||| (1#4 <<< d.val) } }
    s.unitRecord n (0x6000 + d.val) 0x86#8 space 0 (6 + d.val * 256)
  | .ethernet n =>
    if 0 < (s.slice n).err.spLane then
      let s := (s.modSlice n fun x => { x with net := { x.net with laneMarked := true } }).unitRecord n 0x7000 0x84#8 space 0 7
      { s with agenda := .lane n :: s.agenda }
    else s.unitRecord n 0x7000 0x88#8 (0, 0#12) 0 7
  | .pcie n => (s.damageReply n).modSlice n fun x => { x with port := { x.port with linkUp := false } }
  | .hartCache h l dirty =>
    let p := s.slicePart h.slice
    let s := if dirty then s.ownerRule h.slice p l (s.line p (l * 128)).owner 9 f else s
    s.markHart h space

/-- Whether a failed retry of a storage writes a record about data or consumers, which its detection waits to place (R337). -/
def holdsRecord (e : ErrorSite) : Bool :=
  match e with
  | .hbmLine _ _ | .lineMac _ _ | .l1Line _ _ | .register _ _ _ | .tile _ _ _ | .granule _ _ | .emitBlock _ _ | .meshLink _ _ => true
  | .mscLine _ _ _ dirty | .hartCache _ _ dirty => dirty
  | _ => false

/-- ERROR_DETECTED (R405): a storage or link finds corruption and retries once; parity has no retry. A read from HBM4E finds a MAC that
does not match only under ATTR 10 (R370). A detection whose record has no
place yet does not complete (R337). -/
def execErrorDetected (site : ErrorSite) (retryOk : Bool) (finder : Option Agent) (s : State) : Outcome State Fault Refusal :=
  let at_ := s.siteOf site
  let parity := match site with
    | .parity _ _ _ => true
    | _ => false
  let noMac := match site with
    | .lineMac p l => (s.line p (l * 128)).attr != 2#2
    | _ => false
  if noMac then .next s
  else if retryOk && !parity then .next (s.corrected at_.1 at_.2.1 at_.2.2)
  else if holdsRecord site && !s.recordRoom at_.1 then .next s
  else .next (s.lasting site finder)

/-! ### Spares (R410) -/

/-- A slice's mark of a core leaves when neither the core nor one of its sub-partitions awaits a spare. -/
def State.settleMark (s : State) (core : Nat) : State :=
  let k := s.core core
  if k.marked || k.subs.vals.any fun x => x.marked then s
  else
    let slice := sliceOf core
    (s.modSlice slice fun x => { x with err := { x.err with waitCore := x.err.waitCore &&& ~~~(1#16 <<< (core % 16)) } }).settleSpareReq slice

/-- The parity errors of a unit of a core are counted no more: its storage is the spare's. -/
def State.forgetParity (s : State) (core : Nat) (p : Nat → Bool) : State :=
  s.modSlice (sliceOf core) fun x => { x with err := { x.err with
    parity := x.err.parity.keep fun k _ => k / 65536 / 64 != core % 16 || !p (k / 65536 % 64) } }

/-- A port's marked lane takes the spare, as its link trains again. -/
def State.swapLane (s : State) (n : Nat) : State :=
  if !(s.slice n).net.laneMarked || (s.slice n).err.spLane == 0 then s
  else s.modSlice n fun x =>
    { x with net := { x.net with spare := true, laneMarked := false }, err := { x.err with spLane := x.err.spLane - 1 } }

/-- SPARE_SWAP (R410): a marked sub-partition or core is replaced once its core holds no team; a port's marked lane at once. The spare's
storage holds nothing; the core's control registers stay under its number. -/
def execSpareSwap (unit : SpareUnit) (s : State) : Outcome State Fault Refusal :=
  match unit with
  | .subPartition c b =>
    if !((s.core c).sub b).marked || !(s.core c).teams.cells.isEmpty || (s.core c).spareUsed then .next s
    else
      let s := s.modCore c fun k =>
        { k.setSub b Sub.reset with spareUsed := true, parityOff := k.parityOff.keep fun u _ => u != subTlbUnit + b }
      .next ((s.forgetParity c fun u => u == subTlbUnit + b).settleMark c)
  | .core c =>
    let slice := sliceOf c
    if !(s.core c).marked || !(s.core c).teams.cells.isEmpty || (s.slice slice).err.spCore == 0 then .next s
    else
      let s := s.modCore c fun k =>
        { k with subs := .empty, scratch := .empty, granules := .empty, store := .empty, blocks := .empty, blockGen := .empty, l1 := .empty,
                 tlb := [], constCache := .empty, genCache := .empty, parityOff := .empty, copies := [], marked := false, spareUsed := false }
      let s := s.modSlice slice fun x => { x with err := { x.err with spCore := x.err.spCore - 1, waysOff := x.err.waysOff.erase c } }
      .next ((s.forgetParity c fun _ => true).settleMark c)
  | .lane n => .next (s.swapLane n)

end Sys2Proof.Machine
end

