-- ==== Sys2Proof/Machine/Registers.lean ====
section
/-!
DEFINITION. The register regions of a slice (R5, R223, R313, R314, R318, R331, R336, R359, R360, R363, R365, R381, R387, R395, R398,
R401, R413), written and read by harts of the owning partition, and the accesses of a hart (R235, R239, R254, R406).

A register region is seen as aligned doublewords. A write gives a doubleword's offset, the mask of the bits written and the value in its
place; a field outside the mask keeps what it holds.
-/

namespace Sys2Proof.Machine

open Host (Outcome)

/-- A 32-bit field in the low or the high half of a doubleword, after a masked write. -/
def lowWrite (old : Word) (mask value : DWord) : Word := (maskedWrite (old.setWidth 64) mask value).setWidth 32
def highWrite (old : Word) (mask value : DWord) : Word := lowWrite old (mask >>> 32) (value >>> 32)
/-- Two 32-bit registers as a doubleword. -/
def pairOf (lo hi : Word) : DWord := hi ++ lo
/-- The bits that a write of one sets or clears. -/
def ones (mask value : DWord) : DWord := mask &&& value

/-! ### The system region (R359) -/

/-- The mailbox block (R360). -/
def State.writeMailbox (s : State) (part o : Nat) (mask value : DWord) : State :=
  if o = 0 then (if mask &&& 0xFF#64 ≠ 0#64 then s.writeCode part (value &&& 0xFF#64).toNat else s)
  else if o = 8 then
    let c := ones mask value
    s.modMailbox part fun m => { m with done := m.done && !c.getLsbD 1, ovr := m.ovr && !c.getLsbD 2 }
  else if 0x10 ≤ o ∧ o < 0x50 then
    let i := (o - 0x10) / 8
    s.modMailbox part fun m => { m with args := m.args.set i (maskedWrite (m.args.get i 0#64) mask value) }
  else if o = 0x70 then s.modMailbox part fun m => { m with msiAddr := maskedWrite m.msiAddr mask value &&& ~~~3#64 }
  else if o = 0x78 then s.modMailbox part fun m => { m with msiData := lowWrite m.msiData mask value }
  else s

def Mailbox.read (m : Mailbox) (o : Nat) : DWord :=
  if o = 8 then BitVec.ofNat 64 (m.result * 2 ^ 32 + boolNat m.ovr * 4 + boolNat m.done * 2 + boolNat m.busy.isSome)
  else if 0x10 ≤ o ∧ o < 0x50 then m.args.get ((o - 0x10) / 8) 0#64
  else if 0x50 ≤ o ∧ o < 0x70 then m.outs.get ((o - 0x50) / 8) 0#64
  else if o = 0x70 then m.msiAddr
  else if o = 0x78 then m.msiData.setWidth 64
  else 0#64

/-- The firewall block (R363). -/
def Slice.writeFirewall (x : Slice) (o : Nat) (mask value : DWord) : Slice :=
  if o = 8 then { x with fwRead := lowWrite x.fwRead mask value }
  else if o = 0x10 then { x with fwMsiAddr := maskedWrite x.fwMsiAddr mask value &&& ~~~3#64 }
  else if o = 0x18 then { x with fwMsiData := lowWrite x.fwMsiData mask value }
  else x

/-- The second doubleword of a log entry: CAUSE, KIND, CORE, and RID for a device. -/
def FwEntry.word (e : FwEntry) : DWord :=
  BitVec.ofNat 64 (e.cause * 2 ^ 28 + e.kind * 2 ^ 24 + (if e.kind = 2 then e.source % 2 ^ 16 else e.source % 2 ^ 8 * 2 ^ 16))

def Slice.readFirewall (x : Slice) (o : Nat) : DWord :=
  if o = 0 then x.fwHead.setWidth 64
  else if o = 8 then x.fwRead.setWidth 64
  else if o = 0x10 then x.fwMsiAddr
  else if o = 0x18 then x.fwMsiData.setWidth 64
  else if 0x100 ≤ o ∧ o < 0x900 then
    match x.fwLog.find ((o - 0x100) / 32) with
    | none => 0#64
    | some e => match (o - 0x100) % 32 / 8 with
      | 0 => e.address
      | 1 => e.word
      | 2 => e.cyc
      | _ => 0#64
  else 0#64

/-- An entry of the region table (R365). -/
def Region.word (r : Region) : Word :=
  BitVec.ofNat 32 (2 ^ 31 + boolNat r.dual * 2 ^ 30 + r.slice * 2 ^ 26 + r.slot * 2 ^ 18 + (if r.dual then r.oslice * 2 ^ 14 + r.oslot * 2 ^ 6 else 0))
def Part.readRegion (p : Part) (r : Nat) : Word := ((p.regions.find r).map Region.word).getD 0#32

/-- A loan entry of the power table (R387). -/
def Loan.word (l : Loan) : DWord :=
  BitVec.ofNat 64 (2 ^ 63 + boolNat l.recalled * 2 ^ 62 + l.lender % 16 * 2 ^ 52 + l.borrower % 16 * 2 ^ 48 + l.rate)

/-- The memory register block (R223, R359, R387). -/
def Slice.writeMemBlock (x : Slice) (o : Nat) (mask value : DWord) : Slice :=
  if o = 0x40 then { x with prefdrop := lowWrite x.prefdrop mask value } else x
def Slice.readMemBlock (x : Slice) (xen : Bool) (o : Nat) : DWord :=
  if o = 0 then BitVec.ofNat 64 (boolNat xen)
  else if o = 0x40 then x.prefdrop.setWidth 64
  else if 0x400 ≤ o ∧ o < 0x480 then ((x.loans.find ((o - 0x400) / 8)).map Loan.word).getD 0#64
  else 0#64

/-- The launch register block (R313, R314). -/
def State.writeLaunch (s : State) (part o : Nat) (mask value : DWord) : State :=
  if o < 0x2000 then s.modLaunch part (o / 32) fun e => e.write (o % 32 / 8) mask value else s
def LaunchEntry.read (e : LaunchEntry) (dword : Nat) : DWord :=
  match dword with
  | 0 => e.word
  | 1 => e.desc
  | 2 => e.ring
  | _ => pairOf e.errcnt e.errlow
def Part.readLaunch (p : Part) (o : Nat) : DWord :=
  if o < 0x2000 then (p.launches.get (o / 32) .empty).read (o % 32 / 8)
  else if o < 0x2800 then let e := p.launches.get ((o - 0x2000) / 8) .empty; pairOf e.take e.put
  else 0#64

/-- The fault block (R331, R336): a narrower write of the answer register is ignored and counted. -/
def State.writeFault (s : State) (slice o : Nat) (mask value : DWord) : State :=
  let put (f : FaultBlock → FaultBlock) : State := s.modSlice slice fun x => { x with fault := f x.fault }
  let b := (s.slice slice).fault
  match o with
  | 0x00 => s.configureQueue slice (maskedWrite (b.qbase ||| BitVec.ofNat 64 b.log2n) mask value)
  | 0x10 => put fun f => { f with head := lowWrite f.head mask value }
  | 0x18 => put fun f => { f with msiAddr := maskedWrite f.msiAddr mask value &&& ~~~3#64 }
  | 0x20 => put fun f => { f with msiData := lowWrite f.msiData mask value }
  | 0x28 => if mask = ~~~0#64 then s.answerWrite slice value else put fun f => { f with stale := f.stale + 1#32 }
  | 0x30 => put fun f => { f with stale := lowWrite f.stale mask value }
  | 0x38 => put fun f => { f with deadline := lowWrite f.deadline mask value }
  | _ => s
def FaultBlock.read (b : FaultBlock) (o : Nat) : DWord :=
  match o with
  | 0x00 => b.qbase ||| BitVec.ofNat 64 b.log2n
  | 0x08 => b.tail.setWidth 64
  | 0x10 => b.head.setWidth 64
  | 0x18 => b.msiAddr
  | 0x20 => b.msiData.setWidth 64
  | 0x30 => b.stale.setWidth 64
  | 0x38 => b.deadline.setWidth 64
  | _ => 0#64

/-- The error block (R413). -/
def State.writeErr (s : State) (slice o : Nat) (mask value : DWord) : State :=
  let put (f : ErrBlock → ErrBlock) : State := s.modSlice slice fun x => { x with err := f x.err }
  match o with
  | 0x00 => s.setEsum slice ((s.slice slice).err.esum &&& ~~~((ones mask value).setWidth 8 &&& 0x3F#8))
  | 0x08 => put fun e => { e with ceHbm := lowWrite e.ceHbm mask value, ceMsc := highWrite e.ceMsc mask value }
  | 0x10 => put fun e => { e with ceCore := lowWrite e.ceCore mask value, ceLink := highWrite e.ceLink mask value }
  | _ => s
def ErrBlock.read (e : ErrBlock) (o : Nat) : DWord :=
  match o with
  | 0x00 => e.esum.setWidth 64
  | 0x08 => pairOf e.ceHbm e.ceMsc
  | 0x10 => pairOf e.ceCore e.ceLink
  | 0x18 => e.lastCe
  | 0x20 => BitVec.ofNat 64 (e.spCore * 2 ^ 14 + e.spHart * 2 ^ 13 + e.spPch * 2 ^ 10 + e.spLane * 2 ^ 9)
  | 0x28 => BitVec.ofNat 64 (boolNat e.waitPch * 2 ^ 20 + e.waitHart.toNat * 2 ^ 16 + e.waitCore.toNat)
  | _ =>
    if 0x100 ≤ o ∧ o < 0x240 then
      let b := (o - 0x100) / 4
      pairOf ((e.qmap.get b 0#12).setWidth 32) ((e.qmap.get (b + 1) 0#12).setWidth 32)
    else 0#64

/-! ### A core's control block (R318, R326, R381) -/

/-- A SYSVEC register as a word, and from one. -/
def SysVec.word (v : SysVec) : Word := BitVec.ofBool v.valid ++ 0#7 ++ v.target
def SysVec.ofWord (w : Word) : SysVec := ⟨w.getLsbD 31, w.extractLsb' 0 24⟩

/-- A WATCHCTL register as a doubleword, and a watch with it written. -/
def Watch.ctl (w : Watch) : DWord := BitVec.ofNat 64 (w.asid.toNat * 2 ^ 16 + w.kind.toNat * 2 ^ 12 + w.len.toNat)
def Watch.withCtl (w : Watch) (v : DWord) : Watch := { w with asid := v.extractLsb' 16 12, kind := v.extractLsb' 12 2, len := v.extractLsb' 0 5 }

/-- STATE of a context: 0 no team, 1 resident, 2 requested, 3 saving. -/
def Core.preemptState (k : Core) (c : Nat) : Nat :=
  match k.teams.find c with
  | none => 0
  | some t => if t.saving.isSome then 3 else if t.preq then 2 else 1

/-- A write of PREEMPT c (R318, R326): SAVE is kept, REQ raises or clears the request, and FORCE is set and begins the save. -/
def State.writePreempt (s : State) (core c : Nat) (mask value : DWord) : State :=
  let s := s.modCore core fun k => k.modPreempt c fun p => { p with save := maskedWrite p.save mask value &&& ~~~0xFFF#64 }
  let s := if mask.getLsbD 0 then (if value.getLsbD 0 then s.raisePreq core c else s.clearPreq core c) else s
  if (ones mask value).getLsbD 1 then s.forceSave core c else s

def State.writeControl (s : State) (core o : Nat) (mask value : DWord) : State :=
  if o < 0x400 then
    let put (k : Core) (n : Nat) (w : Word) : Core := { k with sysvec := k.sysvec.set n (SysVec.ofWord w) }
    let old (k : Core) (n : Nat) : Word := (k.sysvec.get n ⟨false, 0#24⟩).word
    s.modCore core fun k =>
      let k := put k (o / 4) (lowWrite (old k (o / 4)) mask value)
      put k (o / 4 + 1) (highWrite (old k (o / 4 + 1)) mask value)
  else if o < 0x440 then s.writePreempt core ((o - 0x400) / 8) mask value
  else if 0x500 ≤ o ∧ o < 0x540 then
    let i := (o - 0x500) / 16
    s.modCore core fun k =>
      let w := k.watches.get i ⟨0#64, 0#12, 0#2, 0#5⟩
      let w := if o % 16 = 0 then { w with base := maskedWrite w.base mask value } else w.withCtl (maskedWrite w.ctl mask value)
      { k with watches := k.watches.set i w }
  else if o = 0x610 ∧ mask.getLsbD 34 then s.modPower core fun p => { p with railReq := value.getLsbD 34 }
  else s

/-- A core's power registers (R381). -/
def Core.readPower (k : Core) (slice o : Nat) : DWord :=
  let p := k.power
  let w (n : Nat) : Word := BitVec.ofNat 32 n
  match o with
  | 0x600 => pairOf (w p.rate) (w (Config.nominal slice))
  | 0x608 => pairOf (BitVec.ofInt 32 p.allow) (w (Config.cap slice))
  | 0x610 => pairOf (w ((Config.stepLess1 slice + 1) * 2 ^ 16 + Config.th slice))
      (w (boolNat p.railReq * 4 + boolNat p.rail * 2 + boolNat p.switching.isSome))
  | 0x618 => pairOf (w (p.wlevel * 8 + boolNat p.failsafe * 4 + p.wphase % 4)) (w p.demand)
  | 0x660 => (w k.activeUnits).setWidth 64
  | _ =>
    if 0x620 ≤ o ∧ o < 0x640 then let c := (o - 0x620) / 4; pairOf (w (Config.weight slice c)) (w (Config.weight slice (c + 1)))
    else if 0x640 ≤ o ∧ o < 0x660 then
      let band (b : Nat) : Word := w (p.rampDown.get b 1 * 2 ^ 8 + p.rampUp.get b 2)
      pairOf (band ((o - 0x640) / 4)) (band ((o - 0x640) / 4 + 1))
    else 0#64

def Core.readControl (k : Core) (slice o : Nat) : DWord :=
  if o < 0x400 then
    let w (n : Nat) : Word := (k.sysvec.get n ⟨false, 0#24⟩).word
    pairOf (w (o / 4)) (w (o / 4 + 1))
  else if o < 0x440 then
    let c := (o - 0x400) / 8
    let p := k.preemptOf c
    let req := match k.teams.find c with
      | some t => t.preq
      | none => p.req
    p.save ||| BitVec.ofNat 64 (k.preemptState c * 16 + boolNat p.force * 2 + boolNat req)
  else if 0x500 ≤ o ∧ o < 0x540 then
    let w := k.watches.get ((o - 0x500) / 16) ⟨0#64, 0#12, 0#2, 0#5⟩
    if o % 16 = 0 then w.base else w.ctl
  else k.readPower slice o

/-- The system region of a slice: a write. -/
def State.writeSystem (s : State) (part slice off : Nat) (mask value : DWord) : State :=
  let o := off % 0x10000
  let put (f : Slice → Slice) : State := s.modSlice slice f
  match off / 0x10000 with
  | 0 => s.writeMailbox part o mask value
  | 1 => put fun x => x.writeFirewall o mask value
  | 3 => put fun x => x.writeMemBlock o mask value
  | 4 => s.writeLaunch part o mask value
  | 5 => s.writeFault slice o mask value
  | 6 => s.writeErr slice o mask value
  | b => if 0x10 ≤ b ∧ b < 0x20 then s.writeControl (16 * slice + (b - 0x10)) o mask value else s

/-- The system region of a slice: a read. -/
def State.readSystem (s : State) (p : Part) (slice off : Nat) : DWord :=
  let x := s.slice slice
  let o := off % 0x10000
  match off / 0x10000 with
  | 0 => p.mailbox.read o
  | 1 => x.readFirewall o
  | 2 => if o < 0x4000 then pairOf (p.readRegion (o / 4)) (p.readRegion (o / 4 + 1)) else 0#64
  | 3 => x.readMemBlock p.xen o
  | 4 => p.readLaunch o
  | 5 => x.fault.read o
  | 6 => x.err.read o
  | b => if 0x10 ≤ b ∧ b < 0x20 then (s.core (16 * slice + (b - 0x10))).readControl slice o else 0#64

/-! ### The interrupt region (R395) -/

/-- Bytes of a word in the other order. -/
def swapWord (w : Word) : Word := BitVec.ofNat 32 (beNat (leBytes 4 w.toNat))

/-- The mask of the wired sources that exist. -/
def wiredMask : Word := 0xFE#32

/-- The sources of a mask that may be made pending by software: not an inactive one, and one that goes by the level only while its
rectified input is high. -/
def Aplic.settable (a : Aplic) (w : Word) : BitVec 8 :=
  (List.range 8).foldl (fun m i =>
    if w.getLsbD i && a.mode i != 0 && (decide (a.mode i < 6) || a.input i) then m ||| (1#8 <<< i) else m) 0#8

/-- The sources of a mask that are not inactive. -/
def Aplic.active (a : Aplic) (w : Word) : Word :=
  (List.range 8).foldl (fun m i => if w.getLsbD i && a.mode i != 0 then m ||| (1#32 <<< i) else m) 0#32

/-- A source's configuration written: an inactive source is neither pending nor enabled, and one whose rectified input rises by the write
becomes pending. No source is delegated, and the reserved modes are inactive. -/
def Aplic.configure (a : Aplic) (src : Nat) (w : Word) : Aplic :=
  let m := w &&& 7#32
  let m := if m = 2#32 ∨ m = 3#32 then 0#32 else m
  let b := { a with regs := a.regs.set (4 * src) m }
  let bit : BitVec 8 := 1#8 <<< src
  if m = 0#32 then { b with pending := b.pending &&& ~~~bit, regs := b.regs.set 0x1E00 (b.reg 0x1E00 &&& ~~~(1#32 <<< src)) }
  else if b.input src && !a.input src then { b with pending := b.pending ||| bit }
  else b

/-- One 32-bit register of an APLIC written; what it makes pending and enabled is sent on (the AIA's layout, PRESUMED:
notes/assumptions). The registers of MSI addresses are locked at the map of R395. -/
def Aplic.write (a : Aplic) (o : Nat) (w : Word) : Aplic :=
  let ie := a.reg 0x1E00
  let bit : Word := if w.toNat < 8 then (1#32 <<< w.toNat) &&& wiredMask else 0#32
  let setReg (o : Nat) (v : Word) : Aplic := { a with regs := a.regs.set o v }
  if o = 0 then setReg 0 (w &&& 0x100#32)
  else if o < 0x20 then a.configure (o / 4) w
  else if o = 0x1C00 then { a with pending := a.pending ||| a.settable (w &&& wiredMask) }
  else if o = 0x1CDC ∨ o = 0x2000 then { a with pending := a.pending ||| a.settable bit }
  else if o = 0x1D00 then { a with pending := a.pending &&& ~~~(w.setWidth 8) }
  else if o = 0x1DDC then { a with pending := a.pending &&& ~~~(bit.setWidth 8) }
  else if o = 0x1E00 then setReg o (ie ||| a.active (w &&& wiredMask))
  else if o = 0x1EDC then setReg 0x1E00 (ie ||| a.active bit)
  else if o = 0x1F00 then setReg 0x1E00 (ie &&& ~~~w)
  else if o = 0x1FDC then setReg 0x1E00 (ie &&& ~~~bit)
  else if 0x3004 ≤ o ∧ o < 0x3020 then setReg o (w &&& 0xFFFC07FF#32)
  else if o = 0x3000 then setReg o (w &&& 0xFFFC07FF#32)
  else a

/-- The rectified inputs of the sources. -/
def Aplic.inputs (a : Aplic) : Word := (List.range 8).foldl (fun m i => if a.input i then m ||| (1#32 <<< i) else m) 0#32

def Aplic.read (a : Aplic) (o : Nat) : Word :=
  if o = 0 then a.reg 0 ||| 0x80000004#32
  else if o < 0x20 ∨ (0x3000 ≤ o ∧ o < 0x3020) then a.reg o
  else if o = 0x1BC4 then 0x80042FE0#32
  else if o = 0x1C00 then a.pending.setWidth 32
  else if o = 0x1D00 then a.inputs
  else if o = 0x1E00 then a.reg 0x1E00
  else 0#32

/-- A write of an APLIC: genmsi sends an MSI of its own at once; then what is pending and enabled is sent. -/
def State.writeAplic (s : State) (slice o : Nat) (w : Word) : State :=
  let s := s.modSlice slice fun x => { x with aplic := x.aplic.write o w }
  let s := if o = 0x3000 then s.aplicMsi slice (w.extractLsb' 18 14).toNat (w.extractLsb' 0 11) else s
  [1, 2, 3, 4, 5, 6, 7].foldl (fun s i => s.forwardWire slice i) s

/-- The interrupt region: a write. An interrupt file takes 32-bit writes of an identity in its first word, or byte-swapped in the
second. -/
def State.writeInterrupt (s : State) (slice off : Nat) (mask value : DWord) : State :=
  let base := 0x00FE000000000000 + 0x01000000 * slice
  let low := mask.setWidth 32 == 0xFFFFFFFF#32
  let high := (mask >>> 32).setWidth 32 == 0xFFFFFFFF#32
  let lo : Word := value.setWidth 32
  let hi : Word := (value >>> 32).setWidth 32
  if off % 0x1000 = 0 ∧ (imsicTarget (base + off)).isSome then
    match imsicTarget (base + off) with
    | some (n, h, f) =>
      let s := if low then s.setPending n h f lo.toNat else s
      if high then s.setPending n h f (swapWord hi).toNat else s
    | none => s
  else if 0x200000 ≤ off ∧ off < 0x204000 then
    let s := if low then s.writeAplic slice (off - 0x200000) lo else s
    if high then s.writeAplic slice (off - 0x200000 + 4) hi else s
  else if 0x300000 ≤ off ∧ off < 0x300020 then
    s.modHart ⟨slice, (off - 0x300000) / 8⟩ fun h =>
      { h with mtimecmp := maskedWrite h.mtimecmp mask value }.compareTimers (s.slice slice).mtime
  else if 0x310000 ≤ off ∧ off < 0x310020 then
    let r : HartRef := ⟨slice, (off - 0x310000) / 8⟩
    s.startHart r (maskedWrite (s.hartOf r).start mask value)
  else s

/-- The interrupt region: a read. GO reads 1 once the hart has left reset. -/
def State.readInterrupt (s : State) (slice off : Nat) : DWord :=
  if 0x200000 ≤ off ∧ off < 0x204000 then
    let a := (s.slice slice).aplic
    pairOf (a.read (off - 0x200000)) (a.read (off - 0x200000 + 4))
  else if 0x300000 ≤ off ∧ off < 0x300020 then (s.hartOf ⟨slice, (off - 0x300000) / 8⟩).mtimecmp
  else if off = 0x307FF8 then (s.slice slice).mtime
  else if 0x310000 ≤ off ∧ off < 0x310020 then
    let h := s.hartOf ⟨slice, (off - 0x310000) / 8⟩
    (h.start &&& ~~~3#64) ||| (if h.run = .held then 0#64 else 1#64)
  else 0#64

/-! ### The I/O region (R398-R401) -/

/-- A 32-bit register of a root port's configuration space written: the command register's bus master bit, the bond register, and the
rest as it is. -/
def State.writeConfig (s : State) (slice o : Nat) (w : Word) : State :=
  if o = 0x40C then
    match execBondRequest slice w s with
    | .next s => s
    | _ => s
  else
    let s := s.modPort slice fun p => { p with ecam := p.ecam.set o w }
    if o = 4 then s.modPort slice fun p => { p with busMaster := w.getLsbD 2 } else s

/-- The dwords of a root port's configuration space that software does not write (R398, R399): its identity; a PCI bridge of a type-1
header; a PCI Express capability at 0x40 of a root port with payloads of 512 bytes and a link of four lanes at up to 128 GT/s; and the
DVSEC of the bond at 0x400, to which the first extended capability leads. The places are the PCI Express specification's (PRESUMED:
notes/assumptions); the identities are not published and are free. -/
def configFixed (slice o : Nat) : Option Word :=
  match o with
  | 0x00 => some (Config.pcieIdentity slice 0)
  | 0x08 => some 0x06040000#32
  | 0x34 => some 0x40#32
  | 0x40 => some 0x00420010#32
  | 0x44 => some 0x00008022#32
  | 0x4C => some 0x00000047#32
  | 0x100 => some 0x40000000#32
  | 0x400 => some 0x00010023#32
  | 0x404 => some (0x01000000#32 ||| (Config.pcieIdentity slice 1 &&& 0xFFFF#32))
  | 0x408 => some (Config.pcieIdentity slice 2 &&& 0xFFFF#32)
  | _ => none

/-- A root port's configuration space read: all ones while it is the upper half of a bond. The status register says that there is a list
of capabilities; the link's status says whether it is up or trains. -/
def RootPort.readConfig (p : RootPort) (slice o : Nat) : Word :=
  if p.upper slice then 0xFFFFFFFF#32
  else if o = 0x40C then BitVec.ofNat 32 (boolNat p.refused * 8 + boolNat p.dir * 4 + boolNat p.partner.isSome * 2 + boolNat p.bond)
  else match configFixed slice o with
    | some w => w
    | none =>
      let w := p.ecam.get o 0#32
      if o = 0x04 then (w &&& 0xFFFF#32) ||| 0x00100000#32
      else if o = 0x0C then (w &&& 0xFF00FFFF#32) ||| 0x00010000#32
      else if o = 0x50 then (w &&& 0xFFFF#32) ||| (BitVec.ofNat 32 (boolNat p.linkUp * 0x2000 + boolNat p.training * 0x0800) <<< 16)
      else w

def Exposure.empty : Exposure := ⟨0#64, 0#64, 0#64, 0#64⟩
def Peer.empty : Peer := ⟨0#128, 0#64, 0#64, 0#32, 0#32, 0#32⟩

def Exposure.write (e : Exposure) (dword : Nat) (mask value : DWord) : Exposure :=
  match dword with
  | 0 => { e with key := maskedWrite e.key mask value }
  | 1 => { e with vbase := maskedWrite e.vbase mask value &&& ~~~0xFFF#64 }
  | 2 => { e with len := maskedWrite e.len mask value &&& 0xFFFFFFFFFFFFF0F3#64 }
  | _ => { e with root := maskedWrite e.root mask value }
def Exposure.read (e : Exposure) (dword : Nat) : DWord :=
  match dword with
  | 0 => e.key
  | 1 => e.vbase
  | 2 => e.len
  | _ => e.root

def Peer.write (p : Peer) (dword : Nat) (mask value : DWord) : Peer :=
  match dword with
  | 0 => { p with endpt := p.endpt.extractLsb' 64 64 ++ maskedWrite (p.endpt.extractLsb' 0 64) mask value }
  | 1 => { p with endpt := maskedWrite (p.endpt.extractLsb' 64 64) mask value ++ p.endpt.extractLsb' 0 64 }
  | 2 => { p with ring := maskedWrite p.ring mask value &&& 0xFFFFFFFFFFFFF01F#64 }
  | 3 => { p with msi := maskedWrite p.msi mask value &&& ~~~3#64 }
  | 4 => { p with msiData := lowWrite p.msiData mask value }
  | 5 => { p with rhead := lowWrite p.rhead mask value }
  | _ => p

/-- The network block: a write (R401). Exposures and peer entries are written in every block of the partition. -/
def State.writeNet (s : State) (part slice o : Nat) (mask value : DWord) : State :=
  let put (f : Net → Net) : State := s.modNet slice f
  match o with
  | 0x000 => put fun n => { n with mac := (maskedWrite (n.mac.setWidth 64) mask value).setWidth 48 }
  | 0x010 => put fun n => { n with txRing := maskedWrite n.txRing mask value &&& 0xFFFFFFFFFFFFF01F#64 }
  | 0x018 => put fun n => { n with txTail := lowWrite n.txTail mask value }
  | 0x020 => put fun n => { n with rxRing := maskedWrite n.rxRing mask value &&& 0xFFFFFFFFFFFFF01F#64 }
  | 0x028 => put fun n => { n with rxTail := lowWrite n.rxTail mask value }
  | 0x030 => put fun n => { n with msiAddr := maskedWrite n.msiAddr mask value &&& ~~~3#64 }
  | 0x038 => put fun n => { n with msiData := lowWrite n.msiData mask value }
  | 0x040 =>
    put fun n =>
      let v := maskedWrite (BitVec.ofNat 64 (n.rslice.toNat * 256 + n.rpeer.toNat)) mask value
      { n with rslice := v.extractLsb' 8 4, rpeer := v.extractLsb' 0 4 }
  | 0x048 => put fun n => { n with answers := n.answers ++ [(n.rslice.toNat, n.rpeer.toNat, value &&& mask)] }
  | _ =>
    if 0x100 ≤ o ∧ o < 0x300 then
      let i := (o - 0x100) / 32
      s.modNets part fun n => { n with exposures := n.exposures.set i ((n.exposures.get i .empty).write (o % 32 / 8) mask value) }
    else if 0x400 ≤ o ∧ o < 0x800 then
      let i := (o - 0x400) / 64
      s.modNets part fun n => { n with peers := n.peers.set i ((n.peers.get i .empty).write (o % 64 / 8) mask value) }
    else s

/-- The network block: a read. -/
def Net.read (n : Net) (o : Nat) : DWord :=
  match o with
  | 0x000 => n.mac.setWidth 64
  | 0x008 => BitVec.ofNat 64 (boolNat n.spare * 2 + boolNat n.up)
  | 0x010 => n.txRing
  | 0x018 => pairOf n.txTail n.txHead
  | 0x020 => n.rxRing
  | 0x028 => pairOf n.rxTail n.rxHead
  | 0x030 => n.msiAddr
  | 0x038 => n.msiData.setWidth 64
  | 0x040 => BitVec.ofNat 64 (n.rslice.toNat * 256 + n.rpeer.toNat)
  | _ =>
    if 0x100 ≤ o ∧ o < 0x300 then (n.exposures.get ((o - 0x100) / 32) .empty).read (o % 32 / 8)
    else if 0x400 ≤ o ∧ o < 0x800 then
      let i := (o - 0x400) / 64
      let p := n.peers.get i .empty
      let c := n.viewPeers.get i .empty
      match o % 64 / 8 with
      | 0 => p.endpt.extractLsb' 0 64
      | 1 => p.endpt.extractLsb' 64 64
      | 2 => p.ring
      | 3 => p.msi
      | 4 => pairOf p.msiData c.rtail
      | 5 => p.rhead.setWidth 64
      | _ => 0#64
    else 0#64

/-- The I/O region: a write. -/
def State.writeIo (s : State) (part slice off : Nat) (mask value : DWord) : State :=
  if off < 0x1000 then
    let old (o : Nat) : Word := (s.slice slice).port.readConfig slice o
    let s := if mask.setWidth 32 = 0#32 then s else s.writeConfig slice off (lowWrite (old off) mask value)
    if (mask >>> 32).setWidth 32 = 0#32 then s else s.writeConfig slice (off + 4) (highWrite (old (off + 4)) mask value)
  else if 0x1000000 ≤ off ∧ off < 0x1001000 then
    let o := off - 0x1000000
    let s := s.modSlice slice fun x =>
      { x with iommu := (x.iommu.write o (mask.setWidth 32) (value.setWidth 32)).write (o + 4) ((mask >>> 32).setWidth 32) ((value >>> 32).setWidth 32) }
    s.iommuCommands slice part (2 ^ ((s.slice slice).iommu.reg64 0x18 % 32 + 1))
  else if 0x1800000 ≤ off then s.writeNet part slice (off - 0x1800000) mask value
  else s

/-- The I/O region: a read. Bus 0 holds the root port alone, and all ones elsewhere. What stands behind the port is not given: a value is
free there. -/
def State.readIo (s : State) (slice off : Nat) : DWord × State :=
  let x := s.slice slice
  if off < 0x1000 then (pairOf (x.port.readConfig slice off) (x.port.readConfig slice (off + 4)), s)
  else if off < 0x100000 then (0xFFFFFFFFFFFFFFFF#64, s)
  else if off < 0x1000000 then s.freeDWord
  else if off = 0x1000000 then (BitVec.ofNat 64 iommuCapabilities, s)
  else if off < 0x1001000 then (pairOf (x.iommu.reg32 (off - 0x1000000)) (x.iommu.reg32 (off - 0x1000000 + 4)), s)
  else if 0x1800000 ≤ off then (x.net.read (off - 0x1800000), s)
  else (0#64, s)

/-! ### Register accesses of a hart -/

/-- A write of a doubleword of a slice's registers at a physical address. -/
def State.writeRegion (s : State) (part slice pa : Nat) (mask value : DWord) : State :=
  if 0x00FF000000000000 ≤ pa then s.writeSystem part slice (pa % 0x01000000) mask value
  else if 0x00FE000000000000 ≤ pa then s.writeInterrupt slice (pa % 0x01000000) mask value
  else if 0x00FD000000000000 ≤ pa then s.writeIo part slice (pa % 0x02000000) mask value
  else s

/-- A read of a doubleword of a slice's registers; a device's own registers, behind the root port, hold values that are free. -/
def State.readRegion (s : State) (p : Part) (slice pa : Nat) : DWord × State :=
  if 0x00FF000000000000 ≤ pa then (s.readSystem p slice (pa % 0x01000000), s)
  else if 0x00FE000000000000 ≤ pa then (s.readInterrupt slice (pa % 0x01000000), s)
  else if 0x00FD000000000000 ≤ pa then s.readIo slice (pa % 0x02000000)
  else s.freeDWord

/-- A hart's write of some bytes of a register: in its own partition it is written, elsewhere it is a violation (R363; an interrupt file
of another partition is an MSI target outside it). -/
def State.storeRegister (s : State) (r : HartRef) (part slice pa size : Nat) (value : DWord) : Except State State :=
  if (s.slice slice).part = some part then .ok (s.writeRegion part slice (pa / 8 * 8) (byteMask pa size) (byteValue pa value))
  else .error (s.logViolation r.slice 0 ((s.hartViolation part .store pa).getD 1) r.hart (BitVec.ofNat 64 pa))

/-- REGISTER_WRITE (R5): a hart of the owning partition writes an aligned register of a slice; refused elsewhere, it takes a store access
fault. -/
def execRegisterWrite (h : HartRef) (addr size : Nat) (value : DWord) (s : State) : Outcome State Fault Refusal :=
  match (s.slice h.slice).part, systemSlice addr with
  | some part, some n =>
    if size = 0 ∨ 8 < addr % 8 + size then .next (s.hartTrap h 6 (BitVec.ofNat 64 addr))
    else match s.storeRegister h part n addr size value with
      | .ok s => .next s
      | .error s => .next (s.hartTrap h 7 (BitVec.ofNat 64 addr))
  | _, _ => .next s

/-! ### A hart's accesses to memory (R235, R239, R253, R254, R406) -/

/-- The pieces of a hart's access, page by page: address and length. -/
def hartPieces (va : DWord) (n : Nat) : List (DWord × Nat) :=
  let n1 := min n (4096 - va.toNat % 4096)
  if n1 = n then [(va, n)] else [(va, n1), (va + BitVec.ofNat 64 n1, n - n1)]

/-- Where a hart's access goes: physical pieces in memory, a register, an exception, or a wait for its record's place. -/
inductive HartPlace where
  | memory (l : List (Nat × Nat))
  | register (slice pa : Nat)
  | trap (s : State)
  | wait
  deriving DecidableEq, Repr

/-- The pieces translated and checked in order. An exception names the piece's address, or the address that is shown for it: that of a
cache-block operation is the one its register gives. -/
def State.hartPlaces (s : State) (r : HartRef) (part : Nat) (k : HartKind) (touch : HartTouch) (shown : Option DWord) :
    List (DWord × Nat) → List (Nat × Nat) → HartPlace
  | [], acc => .memory acc
  | p :: rest, acc => match s.hartTranslate part r k p.1 with
    | .error c => .trap (s.hartErr r part k c (shown.getD p.1))
    | .ok (pa, e) =>
      if acc.isEmpty && (systemSlice pa).any fun n => (s.slice n).part == some part then
        (if !(s.hartOf r).pmpOk ((s.hartOf r).accessMode k).1 k pa p.2 then .trap (s.hartFault r k k.accessFault (shown.getD p.1))
         else .register ((systemSlice pa).getD 0) pa)
      else match s.hartCheck r part k e pa p.2 touch with
        | .trap c s => .trap (s.hartFault r k c (shown.getD p.1))
        | .wait => .wait
        | .ok =>
          if (pa + p.2 - 1) / 128 = pa / 128 then s.hartPlaces r part k touch shown rest (acc ++ [(pa, p.2)])
          else match s.hartCheck r part k e ((pa + p.2 - 1) / 128 * 128) 1 touch with
            | .trap c s => .trap (s.hartFault r k c (shown.getD p.1))
            | .wait => .wait
            | .ok => s.hartPlaces r part k touch shown rest (acc ++ [(pa, p.2)])

/-- The bytes of pieces of memory. -/
def State.readAll (s : State) (part : Nat) (l : List (Nat × Nat)) : List Byte := l.flatMap fun p => s.readMem part p.1 p.2

/-- The launch words that pieces touch, in order, each once. -/
def State.hartLaunches (s : State) (part : Nat) (l : List (Nat × Nat)) : List (Nat × Nat) :=
  (l.flatMap fun p => s.partLaunches part p.1 p.2).eraseDups

/-- A hart's store or exchange at memory: one that touches a launch word queues a launch when it is of a form that qualifies and writes
all 8 bytes, and is refused with a store access fault when it is not, which every word that it touches counts (R254), or when the word's
ring is full (R314). write performs the bytes of any other. -/
def State.hartStore (s : State) (r : HartRef) (part : Nat) (kind : HartKind) (va : DWord) (l : List (Nat × Nat)) (bs : List Byte) (qualifies : Bool)
    (write : State → State) (k : State → State) : State :=
  match s.hartLaunches part l with
  | [] => k (write s)
  | (i, w) :: rest =>
    if qualifies && l == [(w, 8)] then
      let q := (s.hartWrite part ((s.hartOf r).owner kind) l bs).queueLaunch part i (BitVec.ofNat 64 (leNat bs)) w
      if q.2 then k q.1 else q.1.hartFault r kind 7 va
    else
      let pa := (l.head?.map (·.1)).getD 0
      (((i, w) :: rest).foldl (fun s p => s.refuseLaunch part p.1 pa) s).hartFault r kind 7 va

/-- As hartStore, its bytes performing at once. -/
def State.hartStoreNow (s : State) (r : HartRef) (part : Nat) (kind : HartKind) (va : DWord) (l : List (Nat × Nat)) (bs : List Byte)
    (qualifies : Bool) (k : State → State) : State :=
  s.hartStore r part kind va l bs qualifies (fun s => s.hartWrite part ((s.hartOf r).owner kind) l bs) k

/-- A value loaded into a register of a hart, extended from its size. -/
def extended (n size : Nat) (signed : Bool) : DWord :=
  if signed && decide (2 ^ (8 * size - 1) ≤ n % 2 ^ (8 * size)) then BitVec.ofNat 64 (n % 2 ^ (8 * size) + 2 ^ 64 - 2 ^ (8 * size))
  else BitVec.ofNat 64 (n % 2 ^ (8 * size))

/-- The result of an AMO on values of a size, by its funct5. -/
def amoValue (op size : Nat) (old new : DWord) : DWord :=
  let a := BitVec.ofNat 64 (old.toNat % 2 ^ (8 * size))
  let b := BitVec.ofNat 64 (new.toNat % 2 ^ (8 * size))
  let sa := (extended a.toNat size true).toInt
  let sb := (extended b.toNat size true).toInt
  match op with
  | 0 => a + b
  | 1 => b
  | 4 => a ^^^ b
  | 8 => a ||| b
  | 12 => a &&& b
  | 16 => if sa ≤ sb then a else b
  | 20 => if sb ≤ sa then a else b
  | 24 => if a.toNat ≤ b.toNat then a else b
  | _ => if b.toNat ≤ a.toNat then a else b

/-- A register of a hart takes a value. -/
def State.hartSet (s : State) (r : HartRef) (rd : BitVec 5) (v : DWord) : State := s.modHart r fun h => h.setReg rd v

/-- An access of a hart at its place. Registers take loads and stores within a doubleword; an atomic or a cache-block operation there
is an access fault. Where the access meets a store of the hart that has not performed, those stores perform first, and the
instruction is for its next turn (R262). -/
def State.hartAt (s : State) (r : HartRef) (part : Nat) (k : HartKind) (touch : HartTouch) (va : DWord) (n : Nat) (aligned : Bool) (shown : Option DWord)
    (mem : List (Nat × Nat) → State) (reg : Nat → Nat → State) : State :=
  if aligned && va.toNat % n ≠ 0 then s.hartFault r k k.misaligned va
  else match s.hartPlaces r part k touch shown (hartPieces va n) [] with
    | .trap s => s
    | .wait => s
    | .register slice pa => if 8 < pa % 8 + n then s.hartFault r k k.accessFault (shown.getD va) else reg slice pa
    | .memory l => if s.hartMeets r part l then s.hartDrain r else mem l

/-- A hart's read-modify-write of memory: the old value goes to rd. -/
def State.hartAtomic (s : State) (r : HartRef) (part : Nat) (rd : BitVec 5) (va : DWord) (size : Nat) (l : List (Nat × Nat))
    (qualifies : Bool) (f : DWord → Option DWord) (k : State → State) : State :=
  let old := BitVec.ofNat 64 (leNat (s.readAll part l))
  match f old with
  | none => k (s.hartSet r rd (extended old.toNat size true))
  | some v => s.hartStoreNow r part .store va l (leBytes size v.toNat) qualifies fun s => k (s.hartSet r rd (extended old.toNat size true))

/-- A load of a hart: its value goes on to what the load is for. -/
def State.hartRead (s : State) (r : HartRef) (part : Nat) (k : HartKind) (va : DWord) (n : Nat) (f : DWord → State → State) : State :=
  s.hartAt r part k .fetch va n false none
    (fun l => f (BitVec.ofNat 64 (leNat (s.readAll part l))) s)
    (fun slice pa =>
      let v := s.readRegion ((s.part? part).getD Part.single) slice (pa / 8 * 8)
      f (BitVec.ofNat 64 (v.1.toNat / 2 ^ (8 * (pa % 8)) % 2 ^ (8 * n))) v.2)

/-- A store of a hart, and what follows it; sd says that it is an sd, the one store that may queue a launch (R254). -/
def State.hartPut (s : State) (r : HartRef) (part : Nat) (k : HartKind) (va : DWord) (n : Nat) (value : DWord) (sd : Bool) (f : State → State) :
    State :=
  s.hartAt r part k .fetch va n false none
    (fun l => s.hartStore r part k va l (leBytes n value.toNat) sd
      (fun s => s.hartStored r part ((s.hartOf r).owner k) l (leBytes n value.toNat)) f)
    (fun slice pa => f (s.writeRegion part slice (pa / 8 * 8) (byteMask pa n) (byteValue pa value)))

/-- An access of a hart of a partition at the home bank, or at the registers of a slice (R235), and what follows it unless it ends in an
exception or waits. -/
def State.hartDo (s : State) (h : HartRef) (part : Nat) (acc : HartAcc) (f : State → State) : State :=
  let noReg (k : HartKind) (va : DWord) (_ _ : Nat) : State := s.hartFault h k k.accessFault va
  match acc with
  | .load rd va n signed => s.hartRead h part .load va n fun v s => f (s.hartSet h rd (extended v.toNat n signed))
  | .store va n value => s.hartPut h part .store va n value (n == 8) f
  | .amo rd op va n value =>
    s.hartAt h part .store .fetch va n true none
      (fun l => s.hartAtomic h part rd va n l (op == 1 && n == 8) (fun old => some (amoValue op n old value)) f) (noReg .store va)
  | .amocas rd va n expected value =>
    s.hartAt h part .store .fetch va n true none
      (fun l => s.hartAtomic h part rd va n l false
        (fun old => if old.toNat = expected.toNat % 2 ^ (8 * n) then some value else none) f) (noReg .store va)
  | .loadReserved rd va n =>
    s.hartAt h part .load .fetch va n true none
      (fun l =>
        let pa := (l.head?.map (·.1)).getD 0
        f ((s.hartSet h rd (extended (leNat (s.readAll part l)) n true)).modHart h fun x => { x with resv := some (lineKey part pa, pa) }))
      (noReg .load va)
  | .storeConditional rd va n value =>
    s.hartAt h part .store .fetch va n true none
      (fun l =>
        let pa := (l.head?.map (·.1)).getD 0
        let held := (s.hartOf h).resv == some (lineKey part pa, pa)
        let s := s.modHart h fun x => { x with resv := none }
        if held then s.hartStoreNow h part .store va l (leBytes n value.toNat) false fun s => f (s.hartSet h rd 0#64) else f (s.hartSet h rd 1#64))
      (noReg .store va)
  | .cboZero va =>
    s.hartAt h part .store .line (va &&& ~~~127#64) 128 false (some va)
      (fun l => s.hartStoreNow h part .store va l (List.replicate 128 0#8) false f) (noReg .store va)
  | .cboClean va => s.hartAt h part .cbo .nothing (va &&& ~~~127#64) 128 false (some va) (fun _ => f s) (noReg .cbo va)
  | .cboInval va => s.hartAt h part .cbo .nothing (va &&& ~~~127#64) 128 false (some va) (fun _ => f s) (noReg .cbo va)

/-- HART_ACCESS (R235): the access of a running hart performs. -/
def execHartAccess (h : HartRef) (acc : HartAcc) (s : State) : Outcome State Fault Refusal :=
  match (s.slice h.slice).part with
  | none => .next s
  | some part => .next (if (s.hartOf h).run = .running then s.hartDo h part acc id else s)

end Sys2Proof.Machine
end

