-- ==== Sys2Proof/Machine/Dispatch.lean ====
section
/-! DEFINITION. The dispatch: one arm per row of the table of operations and events. -/

namespace Sys2Proof.Machine

def exec (i : Instr) (s : State) : Host.Outcome State Fault Refusal :=
  match i with
  | .galu f => Sys2Proof.Machine.execGalu f s
  | .gmovi f => Sys2Proof.Machine.execGmovi f s
  | .gld f => Sys2Proof.Machine.execGld f s
  | .gst f => Sys2Proof.Machine.execGst f s
  | .gbr f => Sys2Proof.Machine.execGbr f s
  | .gjmp f => Sys2Proof.Machine.execGjmp f s
  | .gjmpReg f => Sys2Proof.Machine.execGjmpReg f s
  | .gcall f => Sys2Proof.Machine.execGcall f s
  | .gcallReg f => Sys2Proof.Machine.execGcallReg f s
  | .gret f => Sys2Proof.Machine.execGret f s
  | .gemit f => Sys2Proof.Machine.execGemit f s
  | .gemitt f => Sys2Proof.Machine.execGemitt f s
  | .gemitb f => Sys2Proof.Machine.execGemitb f s
  | .gblkopen f => Sys2Proof.Machine.execGblkopen f s
  | .gblkseal f => Sys2Proof.Machine.execGblkseal f s
  | .gblkfind f => Sys2Proof.Machine.execGblkfind f s
  | .gblkfree f => Sys2Proof.Machine.execGblkfree f s
  | .gblkload f => Sys2Proof.Machine.execGblkload f s
  | .gstart f => Sys2Proof.Machine.execGstart f s
  | .gentry f => Sys2Proof.Machine.execGentry f s
  | .gwaitb f => Sys2Proof.Machine.execGwaitb f s
  | .gyield f => Sys2Proof.Machine.execGyield f s
  | .gexit f => Sys2Proof.Machine.execGexit f s
  | .gacq f => Sys2Proof.Machine.execGacq f s
  | .grel f => Sys2Proof.Machine.execGrel f s
  | .grdsr f => Sys2Proof.Machine.execGrdsr f s
  | .gatom f => Sys2Proof.Machine.execGatom f s
  | .gfence f => Sys2Proof.Machine.execGfence f s
  | .nop f => Sys2Proof.Machine.execNop f s
  | .bra f => Sys2Proof.Machine.execBra f s
  | .brc f => Sys2Proof.Machine.execBrc f s
  | .brx f => Sys2Proof.Machine.execBrx f s
  | .call f => Sys2Proof.Machine.execCall f s
  | .callReg f => Sys2Proof.Machine.execCallReg f s
  | .ret f => Sys2Proof.Machine.execRet f s
  | .loop f => Sys2Proof.Machine.execLoop f s
  | .mask f => Sys2Proof.Machine.execMask f s
  | .spawn f => Sys2Proof.Machine.execSpawn f s
  | .exit f => Sys2Proof.Machine.execExit f s
  | .yield f => Sys2Proof.Machine.execYield f s
  | .fbar f => Sys2Proof.Machine.execFbar f s
  | .waitc f => Sys2Proof.Machine.execWaitc f s
  | .waitcReg f => Sys2Proof.Machine.execWaitcReg f s
  | .iadd f => Sys2Proof.Machine.execIadd f s
  | .isub f => Sys2Proof.Machine.execIsub f s
  | .imul f => Sys2Proof.Machine.execImul f s
  | .imulh f => Sys2Proof.Machine.execImulh f s
  | .imad f => Sys2Proof.Machine.execImad f s
  | .imulw f => Sys2Proof.Machine.execImulw f s
  | .idiv f => Sys2Proof.Machine.execIdiv f s
  | .imin f => Sys2Proof.Machine.execImin f s
  | .imax f => Sys2Proof.Machine.execImax f s
  | .iabs f => Sys2Proof.Machine.execIabs f s
  | .and f => Sys2Proof.Machine.execAnd f s
  | .or f => Sys2Proof.Machine.execOr f s
  | .xor f => Sys2Proof.Machine.execXor f s
  | .andn f => Sys2Proof.Machine.execAndn f s
  | .shl f => Sys2Proof.Machine.execShl f s
  | .shr f => Sys2Proof.Machine.execShr f s
  | .sra f => Sys2Proof.Machine.execSra f s
  | .rot f => Sys2Proof.Machine.execRot f s
  | .shf f => Sys2Proof.Machine.execShf f s
  | .bfx f => Sys2Proof.Machine.execBfx f s
  | .bfi f => Sys2Proof.Machine.execBfi f s
  | .popc f => Sys2Proof.Machine.execPopc f s
  | .clz f => Sys2Proof.Machine.execClz f s
  | .ctz f => Sys2Proof.Machine.execCtz f s
  | .brev f => Sys2Proof.Machine.execBrev f s
  | .icmp f => Sys2Proof.Machine.execIcmp f s
  | .sel f => Sys2Proof.Machine.execSel f s
  | .mov f => Sys2Proof.Machine.execMov f s
  | .iadd64 f => Sys2Proof.Machine.execIadd64 f s
  | .isub64 f => Sys2Proof.Machine.execIsub64 f s
  | .lea f => Sys2Proof.Machine.execLea f s
  | .isad f => Sys2Proof.Machine.execIsad f s
  | .fadd f => Sys2Proof.Machine.execFadd f s
  | .fsub f => Sys2Proof.Machine.execFsub f s
  | .fmul f => Sys2Proof.Machine.execFmul f s
  | .ffma f => Sys2Proof.Machine.execFfma f s
  | .fmin f => Sys2Proof.Machine.execFmin f s
  | .fmax f => Sys2Proof.Machine.execFmax f s
  | .fcmp f => Sys2Proof.Machine.execFcmp f s
  | .frnd f => Sys2Proof.Machine.execFrnd f s
  | .fclass f => Sys2Proof.Machine.execFclass f s
  | .fscale f => Sys2Proof.Machine.execFscale f s
  | .fdot2 f => Sys2Proof.Machine.execFdot2 f s
  | .fdot4 f => Sys2Proof.Machine.execFdot4 f s
  | .hadd2 f => Sys2Proof.Machine.execHadd2 f s
  | .hmul2 f => Sys2Proof.Machine.execHmul2 f s
  | .hfma2 f => Sys2Proof.Machine.execHfma2 f s
  | .hmnx2 f => Sys2Proof.Machine.execHmnx2 f s
  | .hcmp2 f => Sys2Proof.Machine.execHcmp2 f s
  | .rcp f => Sys2Proof.Machine.execRcp f s
  | .rsq f => Sys2Proof.Machine.execRsq f s
  | .sqrt f => Sys2Proof.Machine.execSqrt f s
  | .exp2 f => Sys2Proof.Machine.execExp2 f s
  | .log2 f => Sys2Proof.Machine.execLog2 f s
  | .sin f => Sys2Proof.Machine.execSin f s
  | .cos f => Sys2Proof.Machine.execCos f s
  | .tanh f => Sys2Proof.Machine.execTanh f s
  | .fdiv f => Sys2Proof.Machine.execFdiv f s
  | .cvt f => Sys2Proof.Machine.execCvt f s
  | .cvtq f => Sys2Proof.Machine.execCvtq f s
  | .cvtd f => Sys2Proof.Machine.execCvtd f s
  | .pack6 f => Sys2Proof.Machine.execPack6 f s
  | .unpk6 f => Sys2Proof.Machine.execUnpk6 f s
  | .prmt f => Sys2Proof.Machine.execPrmt f s
  | .tag f => Sys2Proof.Machine.execTag f s
  | .bscale f => Sys2Proof.Machine.execBscale f s
  | .shfl f => Sys2Proof.Machine.execShfl f s
  | .vote f => Sys2Proof.Machine.execVote f s
  | .matchLanes f => Sys2Proof.Machine.execMatchLanes f s
  | .red f => Sys2Proof.Machine.execRed f s
  | .redmi f => Sys2Proof.Machine.execRedmi f s
  | .scan f => Sys2Proof.Machine.execScan f s
  | .bcst f => Sys2Proof.Machine.execBcst f s
  | .ld f => Sys2Proof.Machine.execLd f s
  | .st f => Sys2Proof.Machine.execSt f s
  | .lds f => Sys2Proof.Machine.execLds f s
  | .sts f => Sys2Proof.Machine.execSts f s
  | .ldr f => Sys2Proof.Machine.execLdr f s
  | .str f => Sys2Proof.Machine.execStr f s
  | .ldc f => Sys2Proof.Machine.execLdc f s
  | .atom f => Sys2Proof.Machine.execAtom f s
  | .atoms f => Sys2Proof.Machine.execAtoms f s
  | .pref f => Sys2Proof.Machine.execPref f s
  | .cinv f => Sys2Proof.Machine.execCinv f s
  | .cwb f => Sys2Proof.Machine.execCwb f s
  | .acq f => Sys2Proof.Machine.execAcq f s
  | .rel f => Sys2Proof.Machine.execRel f s
  | .mbind f => Sys2Proof.Machine.execMbind f s
  | .munbind f => Sys2Proof.Machine.execMunbind f s
  | .fence f => Sys2Proof.Machine.execFence f s
  | .bar f => Sys2Proof.Machine.execBar f s
  | .cbar f => Sys2Proof.Machine.execCbar f s
  | .await f => Sys2Proof.Machine.execAwait f s
  | .awake f => Sys2Proof.Machine.execAwake f s
  | .cpy f => Sys2Proof.Machine.execCpy f s
  | .cpyg f => Sys2Proof.Machine.execCpyg f s
  | .cpym f => Sys2Proof.Machine.execCpym f s
  | .cpyn f => Sys2Proof.Machine.execCpyn f s
  | .cpyf f => Sys2Proof.Machine.execCpyf f s
  | .mapres f => Sys2Proof.Machine.execMapres f s
  | .mapset f => Sys2Proof.Machine.execMapset f s
  | .mapget f => Sys2Proof.Machine.execMapget f s
  | .maprel f => Sys2Proof.Machine.execMaprel f s
  | .mma f => Sys2Proof.Machine.execMma f s
  | .mmas f => Sys2Proof.Machine.execMmas f s
  | .mmag f => Sys2Proof.Machine.execMmag f s
  | .accz f => Sys2Proof.Machine.execAccz f s
  | .accld f => Sys2Proof.Machine.execAccld f s
  | .accst f => Sys2Proof.Machine.execAccst f s
  | .accq f => Sys2Proof.Machine.execAccq f s
  | .accadd f => Sys2Proof.Machine.execAccadd f s
  | .sysc f => Sys2Proof.Machine.execSysc f s
  | .rets f => Sys2Proof.Machine.execRets f s
  | .trap f => Sys2Proof.Machine.execTrap f s
  | .trapReg f => Sys2Proof.Machine.execTrapReg f s
  | .brk f => Sys2Proof.Machine.execBrk f s
  | .brkReg f => Sys2Proof.Machine.execBrkReg f s
  | .rdsr f => Sys2Proof.Machine.execRdsr f s
  | .wrsr f => Sys2Proof.Machine.execWrsr f s
  | .intr f => Sys2Proof.Machine.execIntr f s
  | .psave f => Sys2Proof.Machine.execPsave f s
  | .ctxsave f => Sys2Proof.Machine.execCtxsave f s
  | .ctxload f => Sys2Proof.Machine.execCtxload f s
  | .tlbinv f => Sys2Proof.Machine.execTlbinv f s
  | .pair p => Sys2Proof.Machine.execPair p s
  | .dwAwait rd rs1 rs2 => Sys2Proof.Machine.execDwAwait rd rs1 rs2 s
  | .dwAwake rd rs1 => Sys2Proof.Machine.execDwAwake rd rs1 s
  | .dwAwakeAll rd rs1 => Sys2Proof.Machine.execDwAwakeAll rd rs1 s
  | .packageBoot kernels => Sys2Proof.Machine.execPackageBoot kernels s
  | .loaderRetry part image => Sys2Proof.Machine.execLoaderRetry part image s
  | .bootWatchdogExpiry part => Sys2Proof.Machine.execBootWatchdogExpiry part s
  | .rootProvision root index => Sys2Proof.Machine.execRootProvision root index s
  | .ident slice => Sys2Proof.Machine.execIdent slice s
  | .bootok slice => Sys2Proof.Machine.execBootok slice s
  | .ptext slice => Sys2Proof.Machine.execPtext slice s
  | .wbind slice => Sys2Proof.Machine.execWbind slice s
  | .assign slice => Sys2Proof.Machine.execAssign slice s
  | .rdrop slice => Sys2Proof.Machine.execRdrop slice s
  | .radd slice => Sys2Proof.Machine.execRadd slice s
  | .join slice => Sys2Proof.Machine.execJoin slice s
  | .leavebegin slice => Sys2Proof.Machine.execLeavebegin slice s
  | .leave slice => Sys2Proof.Machine.execLeave slice s
  | .attest slice => Sys2Proof.Machine.execAttest slice s
  | .attkey slice => Sys2Proof.Machine.execAttkey slice s
  | .recover slice => Sys2Proof.Machine.execRecover slice s
  | .mailboxOverrun slice code => Sys2Proof.Machine.execMailboxOverrun slice code s
  | .launchTableWrite part index offset size value => Sys2Proof.Machine.execLaunchTableWrite part index offset size value s
  | .launchTableTakeEffect core index => Sys2Proof.Machine.execLaunchTableTakeEffect core index s
  | .spillRefill part index => Sys2Proof.Machine.execSpillRefill part index s
  | .launchDequeue part index => Sys2Proof.Machine.execLaunchDequeue part index s
  | .teamPlace part index core => Sys2Proof.Machine.execTeamPlace part index core s
  | .blockReclaim core block => Sys2Proof.Machine.execBlockReclaim core block s
  | .emitDrain core => Sys2Proof.Machine.execEmitDrain core s
  | .blockOpenGrant c => Sys2Proof.Machine.execBlockOpenGrant c s
  | .blockOpenTimeout c => Sys2Proof.Machine.execBlockOpenTimeout c s
  | .gwaitbWake c => Sys2Proof.Machine.execGwaitbWake c s
  | .gwaitbTimeout c => Sys2Proof.Machine.execGwaitbTimeout c s
  | .gyieldEnd c => Sys2Proof.Machine.execGyieldEnd c s
  | .resultLand g => Sys2Proof.Machine.execResultLand g s
  | .memoryAccessComplete g id lead => Sys2Proof.Machine.execMemoryAccessComplete g id lead s
  | .walkReturn slice walk => Sys2Proof.Machine.execWalkReturn slice walk s
  | .accessFaultDetect g id => Sys2Proof.Machine.execAccessFaultDetect g id s
  | .sfuAccept core sub => Sys2Proof.Machine.execSfuAccept core sub s
  | .sfuComplete core sub id => Sys2Proof.Machine.execSfuComplete core sub id s
  | .spawnComplete g id => Sys2Proof.Machine.execSpawnComplete g id s
  | .cellGrant part cell => Sys2Proof.Machine.execCellGrant part cell s
  | .copySegmentIssue core => Sys2Proof.Machine.execCopySegmentIssue core s
  | .copyComplete core id => Sys2Proof.Machine.execCopyComplete core id s
  | .adeserSegmentRx slice seg => Sys2Proof.Machine.execAdeserSegmentRx slice seg s
  | .adeserAck core id segment data refused => Sys2Proof.Machine.execAdeserAck core id segment data refused s
  | .adeserResendTimeout core id segment => Sys2Proof.Machine.execAdeserResendTimeout core id segment s
  | .matrixOpStart core sub => Sys2Proof.Machine.execMatrixOpStart core sub s
  | .matrixOccupancyEnd core sub => Sys2Proof.Machine.execMatrixOccupancyEnd core sub s
  | .matrixOpComplete core sub id => Sys2Proof.Machine.execMatrixOpComplete core sub id s
  | .limiterWindow core => Sys2Proof.Machine.execLimiterWindow core s
  | .l1SpontaneousWriteback core line drop => Sys2Proof.Machine.execL1SpontaneousWriteback core line drop s
  | .preemptRequest c => Sys2Proof.Machine.execPreemptRequest c s
  | .preemptCancel c => Sys2Proof.Machine.execPreemptCancel c s
  | .force c => Sys2Proof.Machine.execForce c s
  | .deadlineExpiry c => Sys2Proof.Machine.execDeadlineExpiry c s
  | .parkedSave c => Sys2Proof.Machine.execParkedSave c s
  | .forcedSave c => Sys2Proof.Machine.execForcedSave c s
  | .saveComplete c => Sys2Proof.Machine.execSaveComplete c s
  | .resume slice a => Sys2Proof.Machine.execResume slice a s
  | .abortGroup slice a => Sys2Proof.Machine.execAbortGroup slice a s
  | .killTeam slice a => Sys2Proof.Machine.execKillTeam slice a s
  | .faultQueueConfig slice value => Sys2Proof.Machine.execFaultQueueConfig slice value s
  | .faultRecordDrain slice => Sys2Proof.Machine.execFaultRecordDrain slice s
  | .remoteAnswer slice value => Sys2Proof.Machine.execRemoteAnswer slice value s
  | .remoteFaultRecordRx slice sender record => Sys2Proof.Machine.execRemoteFaultRecordRx slice sender record s
  | .hartStart h value => Sys2Proof.Machine.execHartStart h value s
  | .railSwitchRequest core low => Sys2Proof.Machine.execRailSwitchRequest core low s
  | .railChangeover core => Sys2Proof.Machine.execRailChangeover core s
  | .railSwitchEnd core => Sys2Proof.Machine.execRailSwitchEnd core s
  | .grantIntervalEnd => Sys2Proof.Machine.execGrantIntervalEnd s
  | .grantTake slice => Sys2Proof.Machine.execGrantTake slice s
  | .failsafeTimeout core => Sys2Proof.Machine.execFailsafeTimeout core s
  | .allowanceUpdate core => Sys2Proof.Machine.execAllowanceUpdate core s
  | .loanMake slice lender => Sys2Proof.Machine.execLoanMake slice lender s
  | .loanRecallStart slice loan => Sys2Proof.Machine.execLoanRecallStart slice loan s
  | .loanRecallComplete slice loan => Sys2Proof.Machine.execLoanRecallComplete slice loan s
  | .errorDetected site retryOk finder => Sys2Proof.Machine.execErrorDetected site retryOk finder s
  | .spareSwap unit => Sys2Proof.Machine.execSpareSwap unit s
  | .txPost slice tail => Sys2Proof.Machine.execTxPost slice tail s
  | .rxPost slice tail => Sys2Proof.Machine.execRxPost slice tail s
  | .frameTxDone slice err => Sys2Proof.Machine.execFrameTxDone slice err s
  | .ethernetFrameRx slice frame => Sys2Proof.Machine.execEthernetFrameRx slice frame s
  | .ethernetLinkChange slice up => Sys2Proof.Machine.execEthernetLinkChange slice up s
  | .exposureTakeEffect slice => Sys2Proof.Machine.execExposureTakeEffect slice s
  | .bondRequest slice value => Sys2Proof.Machine.execBondRequest slice value s
  | .pcieLinkTraining slice up => Sys2Proof.Machine.execPcieLinkTraining slice up s
  | .deviceWrite slice rid pasid addr data => Sys2Proof.Machine.execDeviceWrite slice rid pasid addr data s
  | .deviceRead slice rid pasid addr len => Sys2Proof.Machine.execDeviceRead slice rid pasid addr len s
  | .deviceMsi slice rid addr data => Sys2Proof.Machine.execDeviceMsi slice rid addr data s
  | .timerCompare h => Sys2Proof.Machine.execTimerCompare h s
  | .hartAwaitInterruptWake h => Sys2Proof.Machine.execHartAwaitInterruptWake h s
  | .registerWrite h addr size value => Sys2Proof.Machine.execRegisterWrite h addr size value s
  | .hartAccess h acc => Sys2Proof.Machine.execHartAccess h acc s
  | .powerLoss bits => Sys2Proof.Machine.execPowerLoss bits s
  | .intxMessage slice pin asserted => Sys2Proof.Machine.execIntxMessage slice pin asserted s
  | .ranswerArrival slice value => Sys2Proof.Machine.execRanswerArrival slice value s
  | .mailboxDone part => Sys2Proof.Machine.execMailboxDone part s
  | .systemOpComplete g id => Sys2Proof.Machine.execSystemOpComplete g id s

end Sys2Proof.Machine
end

