-- ==== Sys2Proof/Machine/HartCsr.lean ====
section
/-!
DEFINITION. The control and status registers of a hart, as R393 names its profile and the RISC-V privileged architecture with AIA gives
them (PRESUMED: notes/assumptions): their views, what a write keeps, who may reach which, and the interrupt files behind mireg, sireg
and the top registers (R395). The time CSR is mtime (R396).
-/

namespace Sys2Proof.Machine

/-! ### What the registers hold -/

/-- A register written where a mask lets it be. -/
def Hart.putCsr (h : Hart) (n : Nat) (mask v : DWord) : Hart := h.setCsr n (maskedWrite (h.csrOf n) mask v)

/-- The bits of sstatus and vsstatus that are written: SIE, SPIE, SPP, VS, FS, SUM and MXR. -/
def sstatusMask : DWord := 0xC6722#64
/-- The bits of mstatus that are written: those, and MIE, MPIE, MPP, MPRV, TVM, TW, TSR, GVA and MPV. -/
def mstatusMask : DWord := 0xC0007E7FAA#64

/-- A status register as it reads under a mask: SD says that FS or VS is dirty, and the widths are 64 bits. -/
def statusRead (w mask : DWord) : DWord :=
  let dirty := fieldOf w 13 2 = 3 ∨ fieldOf w 9 2 = 3
  (w &&& mask) ||| (if mask = mstatusMask then 0xA00000000#64 else 0x200000000#64) ||| (if dirty then 1#64 <<< 63 else 0#64)

/-- A mode field of an address translation register: Bare, Sv39, Sv48 or Sv57. -/
def atpMode (v : DWord) : Bool := let m := fieldOf v 60 4; m == 0 || m == 8 || m == 9 || m == 10

/-- The interrupt file that a virtual supervisor's registers reach: that of hstatus.VGEIN. -/
def Hart.guestFile (h : Hart) : Option Nat := let g := fieldOf (h.csrOf 0x600) 12 6; if 1 ≤ g ∧ g ≤ 7 then some (1 + g) else none

/-- The value of a top register of an interrupt file. -/
def ImsicFile.topei (f : ImsicFile) : DWord := BitVec.ofNat 64 (f.top * 2 ^ 16 + f.top)

/-- A file with its first identity taken (a write of its top register). -/
def ImsicFile.claim (f : ImsicFile) : ImsicFile := { f with pending := f.pending.filter (· ≠ f.top) }

/-- 64 bits of a set of identities from a number on. -/
def idBits (l : List Nat) (base : Nat) : DWord := BitVec.ofNat 64 ((l.filter fun i => decide (base ≤ i ∧ i < base + 64)).map fun i => 2 ^ (i - base)).sum

/-- A set of identities with 64 of them replaced, as far as the file has them (R395: 1 to 2,047). -/
def setIdBits (l : List Nat) (base : Nat) (v : DWord) : List Nat :=
  l.filter (fun i => decide (i < base ∨ base + 64 ≤ i))
    ++ ((List.range 64).filter fun i => v.getLsbD i && decide (0 < base + i ∧ base + i ≤ 2047)).map (base + ·)

/-- A register of an interrupt file under its selector; none where there is none. -/
def ImsicFile.read (f : ImsicFile) (sel : Nat) : Option DWord :=
  if sel = 0x70 then some f.delivery
  else if sel = 0x72 then some f.threshold
  else if 0x80 ≤ sel ∧ sel < 0xC0 ∧ sel % 2 = 0 then some (idBits f.pending (32 * (sel - 0x80)))
  else if 0xC0 ≤ sel ∧ sel < 0x100 ∧ sel % 2 = 0 then some (idBits f.enabled (32 * (sel - 0xC0)))
  else none

def ImsicFile.write (f : ImsicFile) (sel : Nat) (v : DWord) : ImsicFile :=
  if sel = 0x70 then { f with delivery := v &&& 1#64 }
  else if sel = 0x72 then { f with threshold := v &&& 2047#64 }
  else if sel < 0xC0 then { f with pending := setIdBits f.pending (32 * (sel - 0x80)) v }
  else { f with enabled := setIdBits f.enabled (32 * (sel - 0xC0)) v }

def Hart.setFile (h : Hart) (n : Nat) (f : ImsicFile) : Hart := { h with files := h.files.set n f }

/-- A register behind a selector and the file it reaches: the priorities of major interrupts read zero. -/
def Hart.readIndirect (h : Hart) (sel : Nat) (file : Option Nat) : Option DWord :=
  if 0x30 ≤ sel ∧ sel < 0x40 then (if sel % 2 = 0 then some 0#64 else none) else file.bind fun f => (h.fileOf f).read sel

/-- A top register of the major interrupts: with the priorities all zero, 1 beside the cause. -/
def topi (c : Option Nat) : DWord := BitVec.ofNat 64 ((c.map fun i => i * 2 ^ 16 + 1).getD 0)

/-- vstopi: the priority shows when hvictl.IPRIOM asks for it. -/
def Hart.vstopi (h : Hart) : DWord :=
  match h.virtualTop with
  | none => 0#64
  | some (i, p) =>
    BitVec.ofNat 64 (i * 2 ^ 16 + if !(h.csrOf 0x609).getLsbD 8 then 1 else min 255 p)

/-- pmpcfg as it is written: a locked entry stays, and W without R is not kept. -/
def Hart.pmpcfg (h : Hart) (n : Nat) (v : DWord) : DWord :=
  (List.range 8).foldl (fun w i =>
    let old := fieldOf (h.csrOf n) (8 * i) 8
    let new := fieldOf v (8 * i) 8
    let new := (if new % 4 = 2 then new - 2 else new) % 32 + new / 128 * 128
    setField w (8 * i) 8 (if old / 128 = 1 then old else new)) 0#64

/-- Whether an entry's address register is locked: by itself, or by a locked range above it. -/
def Hart.pmpLocked (h : Hart) (i : Nat) : Bool :=
  let cfg (j : Nat) : Nat := if j < 16 then fieldOf (h.csrOf (0x3A0 + 2 * (j / 8))) (8 * (j % 8)) 8 else 0
  cfg i / 128 == 1 || (cfg (i + 1) / 128 == 1 && cfg (i + 1) / 8 % 4 == 1)

/-- An environment configuration register as it is written: CBIE 2 and PMM 1 and 3 are not kept. -/
def envWrite (old mask v : DWord) : DWord :=
  let w := maskedWrite old mask v
  let w := if fieldOf w 4 2 = 2 then setField w 4 2 (fieldOf old 4 2) else w
  if fieldOf w 32 2 % 2 = 1 then setField w 32 2 (fieldOf old 32 2) else w

/-- henvcfg as it reads: what menvcfg does not grant is zero. -/
def Hart.henvcfg (h : Hart) : DWord := h.csrOf 0x60A &&& (h.csrOf 0x30A ||| ~~~0xC000000000000000#64)

/-! ### Reading -/

/-- A register of a hart as it reads under its own number, with mtime of its slice; none where the hart has none. The counters of clock
cycles are not here, since their values are timing. -/
def Hart.readCsr (h : Hart) (mtime : DWord) (n : Nat) : Option DWord :=
  let st := h.csrOf 0x300
  match n with
  | 0x001 => some (h.csrOf 0x003 &&& 0x1F#64)
  | 0x002 => some (h.csrOf 0x003 >>> 5)
  | 0x003 | 0x008 | 0x00F | 0xC20 | 0xC21 => some (h.csrOf n)
  | 0x009 => some (h.csrOf 0x00F &&& 1#64)
  | 0x00A => some (h.csrOf 0x00F >>> 1)
  | 0xC22 => some 32#64
  | 0xC01 => some (if h.virt then mtime + h.csrOf 0x605 else mtime)
  | 0xC02 | 0xB02 => some h.instret
  | 0x100 => some (statusRead st sstatusMask)
  | 0x104 => some (h.csrOf 0x304 &&& h.mideleg &&& 0x2222#64)
  | 0x144 => some (h.mip &&& h.mideleg &&& 0x2222#64)
  | 0x105 | 0x106 | 0x10A | 0x140 | 0x141 | 0x142 | 0x143 | 0x14D | 0x150 | 0x180 => some (h.csrOf n)
  | 0x10C | 0x10D | 0x10E | 0x10F => some 0#64
  | 0x151 => h.readIndirect (h.csrOf 0x150).toNat (some 1)
  | 0x15C => some (h.fileOf 1).topei
  | 0xDB0 => some (topi (firstIrq (h.mip &&& h.csrOf 0x304 &&& h.mideleg &&& ~~~(h.csrOf 0x603 ||| 0x444#64))))
  | 0xDA0 => some 0#64
  | 0x200 => some (statusRead (h.csrOf 0x200) sstatusMask)
  | 0x204 => some (h.virtualBits (h.csrOf 0x304))
  | 0x244 => some (h.virtualBits h.mip)
  | 0x205 | 0x240 | 0x241 | 0x242 | 0x243 | 0x24D | 0x250 | 0x280 => some (h.csrOf n)
  | 0x251 => if fieldOf (h.csrOf 0x250) 4 60 = 3 then none else h.readIndirect (h.csrOf 0x250).toNat h.guestFile
  | 0x25C => h.guestFile.map fun f => (h.fileOf f).topei
  | 0xEB0 => some h.vstopi
  | 0x600 => some (h.csrOf 0x600 ||| 0x200000000#64)
  | 0x602 | 0x603 | 0x605 | 0x606 | 0x607 | 0x609 | 0x60C | 0x643 | 0x64A | 0x680 => some (h.csrOf n)
  | 0x604 => some (h.csrOf 0x304 &&& 0x1444#64)
  | 0x644 => some (h.mip &&& 0x1444#64)
  | 0x645 => some ((h.csrOf 0x645 &&& 0x440#64) ||| (h.csrOf 0x344 &&& 4#64))
  | 0x608 | 0x646 | 0x647 | 0x60D | 0x60E | 0x60F => some 0#64
  | 0x60A => some h.henvcfg
  | 0xE12 => some h.hgeip
  | 0x300 => some (statusRead st mstatusMask)
  | 0x301 => some 0x80000000003411AF#64
  | 0x303 => some h.mideleg
  | 0x302 | 0x304 | 0x305 | 0x306 | 0x30A | 0x320 | 0x340 | 0x341 | 0x342 | 0x343 | 0x34A | 0x34B | 0x350 | 0xF14 => some (h.csrOf n)
  | 0x308 => some 0#64
  | 0x309 => some (h.csrOf 0x344 &&& 0x222#64)
  | 0x344 => some h.mip
  | 0x351 => h.readIndirect (h.csrOf 0x350).toNat (some 0)
  | 0x35C => some (h.fileOf 0).topei
  | 0xFB0 => some (topi (firstIrq (h.mip &&& h.csrOf 0x304 &&& ~~~h.mideleg)))
  | 0xF11 => some (Config.hartIdentity 0 &&& 0xFFFFFFFF#64)
  | 0xF12 => some (Config.hartIdentity 1)
  | 0xF13 => some (Config.hartIdentity 2)
  | 0xF15 => some (Config.hartIdentity 3)
  | _ =>
    if (0xC03 ≤ n ∧ n < 0xC20) ∨ (0xB03 ≤ n ∧ n < 0xB20) ∨ (0x323 ≤ n ∧ n < 0x340) then some 0#64
    else if 0x3A0 ≤ n ∧ n < 0x3B0 ∧ n % 2 = 0 then some (if n ≤ 0x3A2 then h.csrOf n else 0#64)
    else if 0x3B0 ≤ n ∧ n < 0x3F0 then some (if n < 0x3C0 then h.csrOf n else 0#64)
    else none

/-! ### Writing -/

/-- The floating-point or vector state is dirty: FS or VS of mstatus, and of vsstatus in a virtual mode. -/
def Hart.dirty (h : Hart) (lo : Nat) : Hart :=
  let h := h.setCsr 0x300 (setField (h.csrOf 0x300) lo 2 3)
  if h.virt then h.setCsr 0x200 (setField (h.csrOf 0x200) lo 2 3) else h

/-- A register of a hart written under its own number; what the register does not keep of the value has no effect. -/
def Hart.writeCsr (h : Hart) (n : Nat) (v : DWord) : Hart :=
  match n with
  | 0x001 => (h.putCsr 0x003 0x1F#64 v).dirty 13
  | 0x002 => (h.putCsr 0x003 0xE0#64 (v <<< 5)).dirty 13
  | 0x003 => (h.putCsr 0x003 0xFF#64 v).dirty 13
  | 0x008 => (h.putCsr 0x008 0xFF#64 v).dirty 9
  | 0x009 => (h.putCsr 0x00F 1#64 v).dirty 9
  | 0x00A => (h.putCsr 0x00F 6#64 (v <<< 1)).dirty 9
  | 0x00F => (h.putCsr 0x00F 7#64 v).dirty 9
  | 0xB02 => { h with instret := v }
  | 0x100 => h.putCsr 0x300 sstatusMask v
  | 0x200 => h.putCsr 0x200 sstatusMask v
  | 0x300 => h.putCsr 0x300 (if fieldOf v 11 2 = 2 then mstatusMask &&& ~~~0x1800#64 else mstatusMask) v
  | 0x104 => h.putCsr 0x304 (h.mideleg &&& 0x2222#64) v
  | 0x204 => h.putCsr 0x304 (h.mideleg &&& h.csrOf 0x603) (((v &&& 0x222#64) <<< 1) ||| (v &&& 0x2000#64))
  | 0x604 => h.putCsr 0x304 0x1444#64 v
  | 0x304 => h.putCsr 0x304 0x3EEE#64 v
  | 0x144 => h.putCsr 0x344 (h.mideleg &&& 0x2002#64) v
  | 0x244 => h.putCsr 0x344 (h.mideleg &&& h.csrOf 0x603 &&& 0x2004#64) (((v &&& 2#64) <<< 1) ||| (v &&& 0x2000#64))
  | 0x644 => h.putCsr 0x344 4#64 v
  | 0x645 => (h.putCsr 0x645 0x440#64 v).putCsr 0x344 4#64 v
  | 0x309 => h.putCsr 0x344 (if (h.csrOf 0x30A).getLsbD 63 then 0x202#64 else 0x222#64) v
  | 0x344 => h.putCsr 0x344 (if (h.csrOf 0x30A).getLsbD 63 then 0x2206#64 else 0x2226#64) v
  | 0x302 => h.putCsr n 0xF0B7FE#64 v
  | 0x602 => h.putCsr n 0xB1FE#64 v
  | 0x303 => h.putCsr n 0x2222#64 v
  | 0x603 => h.putCsr n 0x2444#64 v
  | 0x105 | 0x205 | 0x305 => h.putCsr n (~~~2#64) v
  | 0x141 | 0x241 | 0x341 => h.putCsr n (~~~1#64) v
  | 0x106 | 0x306 | 0x606 => h.putCsr n 0xFFFFFFFF#64 v
  | 0x320 => h.putCsr n 0xFFFFFFFD#64 v
  | 0x10A => h.setCsr n (envWrite (h.csrOf n) 0x3000000F1#64 v)
  | 0x30A | 0x60A => h.setCsr n (envWrite (h.csrOf n) 0xC0000003000000F1#64 v)
  | 0x60C => h.putCsr n 0xDC00000000000000#64 v
  | 0x140 | 0x142 | 0x143 | 0x14D | 0x240 | 0x242 | 0x243 | 0x24D | 0x340 | 0x342 | 0x343 | 0x34A | 0x34B | 0x605 | 0x643 | 0x64A => h.setCsr n v
  | 0x150 | 0x250 | 0x350 => h.putCsr n 0xFFF#64 v
  | 0x151 => h.setFile 1 ((h.fileOf 1).write (h.csrOf 0x150).toNat v)
  | 0x351 => h.setFile 0 ((h.fileOf 0).write (h.csrOf 0x350).toNat v)
  | 0x251 => h.guestFile.elim h fun f => h.setFile f ((h.fileOf f).write (h.csrOf 0x250).toNat v)
  | 0x15C => h.setFile 1 (h.fileOf 1).claim
  | 0x35C => h.setFile 0 (h.fileOf 0).claim
  | 0x25C => h.guestFile.elim h fun f => h.setFile f (h.fileOf f).claim
  | 0x180 | 0x280 => if atpMode v then h.putCsr n 0xF0FFFFFFFFFFFFFF#64 v else h
  | 0x680 => if atpMode v then h.putCsr n 0xF3FFFFFFFFFFFFFC#64 v else h
  | 0x600 => h.putCsr n (if 7 < fieldOf v 12 6 then 0x30000007003C0#64 else 0x300000073F3C0#64) v
  | 0x607 => h.putCsr n 0xFE#64 v
  | 0x609 => h.putCsr n 0x4FFF03FF#64 v
  | _ =>
    if n = 0x3A0 ∨ n = 0x3A2 then h.setCsr n (h.pmpcfg n v)
    else if 0x3B0 ≤ n ∧ n < 0x3C0 ∧ !h.pmpLocked (n - 0x3B0) then h.putCsr n 0x3FFFFFFFFFFFFF#64 v
    else h

/-! ### Who may reach which -/

/-- The virtual supervisor's register that stands for a supervisor's in a virtual mode. -/
def virtualCsr (n : Nat) : Nat :=
  if [0x100, 0x104, 0x105, 0x140, 0x141, 0x142, 0x143, 0x144, 0x14D, 0x150, 0x151, 0x15C, 0x180, 0xDB0].contains n then n + 0x100 else n

/-- The bit of hstateen0 that a supervisor's register needs in a virtual mode. -/
def stateenBit (n : Nat) : Option Nat :=
  if n = 0x10C then some 63
  else if n = 0x10A then some 62
  else if n = 0x150 ∨ n = 0x151 then some 60
  else if n = 0xDB0 then some 59
  else if n = 0x15C then some 58
  else none

/-- What stands against an access of a hart to a register: 2 or 22, the illegal-instruction or the virtual-instruction exception. -/
def Hart.csrDenied (h : Hart) (mtime : DWord) (n : Nat) (write : Bool) : Option Nat :=
  let lvl := n / 256 % 4
  let st := h.csrOf 0x300
  let hst := h.csrOf 0x600
  let off (lo : Nat) : Bool := fieldOf st lo 2 == 0 || (h.virt && fieldOf (h.csrOf 0x200) lo 2 == 0)
  let tm (n : Nat) : Bool := (h.csrOf n).getLsbD 1
  let exists_ := (h.readCsr mtime n).isSome || n == 0xC00 || n == 0xB00 || n == 0x151 || n == 0x251 || n == 0x351 || n == 0x25C
  if !exists_ || (write && n / 1024 == 3) then some 2
  else if 1 ≤ n ∧ n ≤ 3 ∧ off 13 then some 2
  else if (8 ≤ n ∧ n ≤ 15 ∨ 0xC20 ≤ n ∧ n ≤ 0xC22) ∧ off 9 then some 2
  else if 0xC00 ≤ n ∧ n < 0xC20 then
    let bit (c : Nat) : Bool := (h.csrOf c).getLsbD (n - 0xC00)
    if h.priv < 3 ∧ !bit 0x306 then some 2
    else if h.virt ∧ !bit 0x606 then some 22
    else if h.priv = 0 ∧ !bit 0x106 then some (if h.virt then 22 else 2)
    else none
  else if lvl = 0 then none
  else if lvl = 3 then (if h.priv = 3 then none else some 2)
  else if h.virt then
    if lvl = 2 ∨ h.priv = 0 then some 22
    else if (n = 0x104 ∨ n = 0x144) ∧ (h.csrOf 0x609).getLsbD 30 then some 22
    else if n = 0x180 ∧ hst.getLsbD 20 then some 22
    else if n = 0x14D then
      if !tm 0x306 || !(h.csrOf 0x30A).getLsbD 63 then some 2
      else if !tm 0x606 || !h.henvcfg.getLsbD 63 then some 22
      else none
    else if (stateenBit n).any fun b => !(h.csrOf 0x60C).getLsbD b then some 22
    else if (n = 0x151 ∨ n = 0x15C) ∧ (h.readCsr mtime (virtualCsr n)).isNone then some 22
    else none
  else if h.priv = 0 then some 2
  else if h.priv = 3 then (if (h.readCsr mtime n).isNone && n != 0xB00 then some 2 else none)
  else if (n = 0x180 ∨ n = 0x680) ∧ st.getLsbD 20 then some 2
  else if (n = 0x14D ∨ n = 0x24D) ∧ (!tm 0x306 || !(h.csrOf 0x30A).getLsbD 63) then some 2
  else if (h.readCsr mtime n).isNone then some 2
  else none

/-- The number under which an access goes. -/
def Hart.csrNumber (h : Hart) (n : Nat) : Nat := if h.virt ∧ h.priv = 1 then virtualCsr n else n

/-- The value that a set or clear of bits goes on from: without the files' signals in mip. -/
def Hart.csrBase (h : Hart) (n : Nat) (v : DWord) : DWord := if n = 0x344 then (v &&& ~~~0x200#64) ||| (h.csrOf 0x344 &&& 0x200#64) else v

end Sys2Proof.Machine
end

