-- ==== Sys2Proof/Machine/HartInteger.lean ====
section
/-!
DEFINITION. The scalar integer instructions of a hart's profile (R393: RVA23 with the hypervisor extension), as the RISC-V architecture
gives them (PRESUMED: notes/assumptions): arithmetic with M, Zba, Zbb, Zbs and Zicond, control transfer, loads and stores, atomics,
cache-block operations, the CSR instructions, and the privileged ones.
-/

namespace Sys2Proof.Machine

/-! ### Fields of a word -/

def rvRd (w : Word) : BitVec 5 := w.extractLsb' 7 5
def rvRs1 (w : Word) : BitVec 5 := w.extractLsb' 15 5
def rvRs2 (w : Word) : BitVec 5 := w.extractLsb' 20 5
def rvF3 (w : Word) : Nat := (w.extractLsb' 12 3).toNat
def rvF7 (w : Word) : Nat := (w.extractLsb' 25 7).toNat
def rvImmI (w : Word) : DWord := (w.extractLsb' 20 12).signExtend 64
def rvImmS (w : Word) : DWord := (w.extractLsb' 25 7 ++ w.extractLsb' 7 5).signExtend 64
def rvImmB (w : Word) : DWord :=
  (w.extractLsb' 31 1 ++ w.extractLsb' 7 1 ++ w.extractLsb' 25 6 ++ w.extractLsb' 8 4 ++ 0#1).signExtend 64
def rvImmU (w : Word) : DWord := (w.extractLsb' 12 20 ++ 0#12).signExtend 64
def rvImmJ (w : Word) : DWord :=
  (w.extractLsb' 31 1 ++ w.extractLsb' 12 8 ++ w.extractLsb' 20 1 ++ w.extractLsb' 21 10 ++ 0#1).signExtend 64

/-! ### Arithmetic -/

/-- The low 32 bits, sign extended. -/
def sext32 (a : DWord) : DWord := (a.extractLsb' 0 32).signExtend 64
def zext32 (a : DWord) : DWord := (a.extractLsb' 0 32).setWidth 64

/-- The quotient and the remainder of a width, as M gives them: a zero divisor gives all ones and the dividend, and the most negative
dividend by -1 gives itself and 0. -/
def rvDiv (w : Nat) (signed : Bool) (a b : Nat) : Nat × Nat :=
  let x := if signed then toInt w true a else (a : Int)
  let y := if signed then toInt w true b else (b : Int)
  if y = 0 then (2 ^ w - 1, a) else ((x.tdiv y % 2 ^ w).toNat, (x.tmod y % 2 ^ w).toNat)

/-- Operations of Zbb on one register of a width. -/
def countLead (w a : Nat) : Nat := if a = 0 then w else w - 1 - Nat.log2 a
def countTrail (w a : Nat) : Nat := ((List.range w).find? fun i => a.testBit i).getD w
def countOnes (w a : Nat) : Nat := ((List.range w).filter fun i => a.testBit i).length
/-- A register with each byte replaced. -/
def mapBytes (a : DWord) (f : Nat → Nat) : DWord :=
  BitVec.ofNat 64 ((List.range 8).map fun i => f (a.toNat / 2 ^ (8 * i) % 256) * 2 ^ (8 * i)).sum
def reverseBytes (n a : Nat) : Nat := ((List.range n).map fun i => a / 2 ^ (8 * i) % 256 * 2 ^ (8 * (n - 1 - i))).sum

/-- The products of M: the high half under each pair of signs. -/
def mulHigh (sa sb : Bool) (a b : DWord) : DWord :=
  let x := if sa then a.toInt else (a.toNat : Int)
  let y := if sb then b.toInt else (b.toNat : Int)
  BitVec.ofInt 64 (x * y / 2 ^ 64)

def boolD (b : Bool) : DWord := if b then 1#64 else 0#64

/-- OP: two registers of 64 bits, by funct7 and funct3. -/
def rvOp (f7 f3 : Nat) (a b : DWord) : Option DWord :=
  let n := b.toNat % 64
  match f7, f3 with
  | 0x00, 0 => some (a + b)
  | 0x20, 0 => some (a - b)
  | 0x00, 1 => some (a <<< n)
  | 0x00, 2 => some (boolD (decide (a.toInt < b.toInt)))
  | 0x00, 3 => some (boolD (decide (a.toNat < b.toNat)))
  | 0x00, 4 => some (a ^^^ b)
  | 0x00, 5 => some (a >>> n)
  | 0x20, 5 => some (a.sshiftRight n)
  | 0x00, 6 => some (a ||| b)
  | 0x00, 7 => some (a &&& b)
  | 0x01, 0 => some (a * b)
  | 0x01, 1 => some (mulHigh true true a b)
  | 0x01, 2 => some (mulHigh true false a b)
  | 0x01, 3 => some (mulHigh false false a b)
  | 0x01, 4 => some (BitVec.ofNat 64 (rvDiv 64 true a.toNat b.toNat).1)
  | 0x01, 5 => some (BitVec.ofNat 64 (rvDiv 64 false a.toNat b.toNat).1)
  | 0x01, 6 => some (BitVec.ofNat 64 (rvDiv 64 true a.toNat b.toNat).2)
  | 0x01, 7 => some (BitVec.ofNat 64 (rvDiv 64 false a.toNat b.toNat).2)
  | 0x10, 2 => some ((a <<< 1) + b)
  | 0x10, 4 => some ((a <<< 2) + b)
  | 0x10, 6 => some ((a <<< 3) + b)
  | 0x20, 4 => some (~~~(a ^^^ b))
  | 0x20, 6 => some (a ||| ~~~b)
  | 0x20, 7 => some (a &&& ~~~b)
  | 0x05, 4 => some (if a.toInt < b.toInt then a else b)
  | 0x05, 5 => some (if a.toNat < b.toNat then a else b)
  | 0x05, 6 => some (if a.toInt < b.toInt then b else a)
  | 0x05, 7 => some (if a.toNat < b.toNat then b else a)
  | 0x30, 1 => some (a.rotateLeft n)
  | 0x30, 5 => some (a.rotateRight n)
  | 0x24, 1 => some (a &&& ~~~(1#64 <<< n))
  | 0x24, 5 => some ((a >>> n) &&& 1#64)
  | 0x34, 1 => some (a ^^^ (1#64 <<< n))
  | 0x14, 1 => some (a ||| (1#64 <<< n))
  | 0x07, 5 => some (if b = 0#64 then 0#64 else a)
  | 0x07, 7 => some (if b = 0#64 then a else 0#64)
  | _, _ => none

/-- OP-32: the low words of two registers; rs2 is the second register's number, which zext.h fixes. -/
def rvOp32 (f7 f3 rs2 : Nat) (a b : DWord) : Option DWord :=
  let x := a.extractLsb' 0 32
  let y := b.extractLsb' 0 32
  let n := b.toNat % 32
  let div (s : Bool) : Nat × Nat := rvDiv 32 s x.toNat y.toNat
  match f7, f3 with
  | 0x00, 0 => some ((x + y).signExtend 64)
  | 0x20, 0 => some ((x - y).signExtend 64)
  | 0x00, 1 => some ((x <<< n).signExtend 64)
  | 0x00, 5 => some ((x >>> n).signExtend 64)
  | 0x20, 5 => some ((x.sshiftRight n).signExtend 64)
  | 0x01, 0 => some ((x * y).signExtend 64)
  | 0x01, 4 => some ((BitVec.ofNat 32 (div true).1).signExtend 64)
  | 0x01, 5 => some ((BitVec.ofNat 32 (div false).1).signExtend 64)
  | 0x01, 6 => some ((BitVec.ofNat 32 (div true).2).signExtend 64)
  | 0x01, 7 => some ((BitVec.ofNat 32 (div false).2).signExtend 64)
  | 0x04, 0 => some (zext32 a + b)
  | 0x10, 2 => some ((zext32 a <<< 1) + b)
  | 0x10, 4 => some ((zext32 a <<< 2) + b)
  | 0x10, 6 => some ((zext32 a <<< 3) + b)
  | 0x04, 4 => if rs2 = 0 then some (a &&& 0xFFFF#64) else none
  | 0x30, 1 => some ((x.rotateLeft n).signExtend 64)
  | 0x30, 5 => some ((x.rotateRight n).signExtend 64)
  | _, _ => none

/-- OP-IMM: a register and the 12-bit immediate field, whose value is imm sign extended. -/
def rvOpImm (f3 field : Nat) (a imm : DWord) : Option DWord :=
  let n := field % 64
  let b := BitVec.ofNat 64 n
  match f3 with
  | 0 => some (a + imm)
  | 2 => some (boolD (decide (a.toInt < imm.toInt)))
  | 3 => some (boolD (decide (a.toNat < imm.toNat)))
  | 4 => some (a ^^^ imm)
  | 6 => some (a ||| imm)
  | 7 => some (a &&& imm)
  | 1 => match field / 64 with
    | 0x00 => some (a <<< n)
    | 0x0A => rvOp 0x14 1 a b
    | 0x12 => rvOp 0x24 1 a b
    | 0x1A => rvOp 0x34 1 a b
    | 0x18 => match n with
      | 0 => some (BitVec.ofNat 64 (countLead 64 a.toNat))
      | 1 => some (BitVec.ofNat 64 (countTrail 64 a.toNat))
      | 2 => some (BitVec.ofNat 64 (countOnes 64 a.toNat))
      | 4 => some ((a.extractLsb' 0 8).signExtend 64)
      | 5 => some ((a.extractLsb' 0 16).signExtend 64)
      | _ => none
    | _ => none
  | _ => match field / 64 with
    | 0x00 => some (a >>> n)
    | 0x10 => some (a.sshiftRight n)
    | 0x12 => rvOp 0x24 5 a b
    | 0x18 => some (a.rotateRight n)
    | 0x0A => if n = 7 then some (mapBytes a fun x => if x = 0 then 0 else 255) else none
    | 0x1A => if n = 0x38 then some (BitVec.ofNat 64 (reverseBytes 8 a.toNat)) else none
    | _ => none

/-- OP-IMM-32. -/
def rvOpImm32 (f3 field : Nat) (a imm : DWord) : Option DWord :=
  let x := a.extractLsb' 0 32
  let n := field % 32
  match f3 with
  | 0 => some (sext32 (a + imm))
  | 1 =>
    if field / 64 = 2 then some (zext32 a <<< (field % 64))
    else match field / 32 with
      | 0x00 => some ((x <<< n).signExtend 64)
      | 0x30 => match n with
        | 0 => some (BitVec.ofNat 64 (countLead 32 x.toNat))
        | 1 => some (BitVec.ofNat 64 (countTrail 32 x.toNat))
        | 2 => some (BitVec.ofNat 64 (countOnes 32 x.toNat))
        | _ => none
      | _ => none
  | 5 => match field / 32 with
    | 0x00 => some ((x >>> n).signExtend 64)
    | 0x20 => some ((x.sshiftRight n).signExtend 64)
    | 0x30 => some ((x.rotateRight n).signExtend 64)
    | _ => none
  | _ => none

/-- Whether a branch is taken, by funct3. -/
def rvBranch (f3 : Nat) (a b : DWord) : Option Bool :=
  match f3 with
  | 0 => some (a == b)
  | 1 => some (a != b)
  | 4 => some (decide (a.toInt < b.toInt))
  | 5 => some (decide (b.toInt ≤ a.toInt))
  | 6 => some (decide (a.toNat < b.toNat))
  | 7 => some (decide (b.toNat ≤ a.toNat))
  | _ => none

/-! ### What an instruction of a hart does next -/

/-- An instruction's place: its hart, the hart's partition, its length in bytes, and the exception that it raises when it is illegal. -/
structure RvAt where
  hart : HartRef
  part : Nat
  len  : Nat
  raw  : DWord
  deriving DecidableEq, Repr

/-- It retires, and the next one follows. -/
def RvAt.done (r : RvAt) (s : State) : State := s.modHart r.hart fun h => h.retire r.len
/-- It retires with a value in rd. -/
def RvAt.gives (r : RvAt) (rd : BitVec 5) (v : DWord) (s : State) : State := s.modHart r.hart fun h => (h.setReg rd v).retire r.len
/-- It retires, and the instruction at an address follows. -/
def RvAt.jumps (r : RvAt) (to_ : DWord) (s : State) : State := s.modHart r.hart fun h => { h.retire r.len with pc := to_ }
/-- It takes an exception whose value is its own bits. -/
def RvAt.refuse (r : RvAt) (cause : Nat) (s : State) : State := s.hartTrap r.hart cause r.raw
def RvAt.illegal (r : RvAt) (s : State) : State := r.refuse 2 s

/-- An address with its upper bits masked, where the mode's environment asks for that (pointer masking of 7 bits): sign extended under
translation, zero extended without. -/
def Hart.effective (h : Hart) (k : HartKind) (va : DWord) : DWord :=
  let m := h.accessMode k
  let pmm := match m with
    | (3, _) => 0
    | (1, false) => fieldOf (h.csrOf 0x30A) 32 2
    | (1, true) => if k.guest then fieldOf (h.csrOf 0x600) 48 2 else fieldOf h.henvcfg 32 2
    | (_, v) => if v && k.guest then fieldOf (h.csrOf 0x600) 48 2 else fieldOf (h.csrOf 0x10A) 32 2
  let mxr := (h.csrOf 0x300).getLsbD 19 || (m.2 && (h.csrOf 0x200).getLsbD 19)
  if pmm ≠ 2 ∨ k = .fetch ∨ k = .hlvx ∨ mxr then va
  else if (satpTop (fieldOf (if m.2 then h.csrOf 0x280 else h.csrOf 0x180) 60 4)).isSome then (va.extractLsb' 0 57).signExtend 64
  else (va.extractLsb' 0 57).setWidth 64

/-! ### Cache-block operations, and what the environment registers permit -/

/-- What stands against an operation that the environment registers permit: it is illegal where menvcfg, or for a user senvcfg, does not;
virtual where henvcfg, or for a virtual user senvcfg, does not. -/
def Hart.envDenied (h : Hart) (ok : DWord → Bool) : Option Nat :=
  if h.priv < 3 ∧ !ok (h.csrOf 0x30A) then some 2
  else if h.virt ∧ !ok h.henvcfg then some 22
  else if h.priv = 0 ∧ !ok (h.csrOf 0x10A) then some (if h.virt then 22 else 2)
  else none

/-- CBO: inval, clean, flush and zero, by the immediate. -/
def State.rvCbo (s : State) (r : RvAt) (op : Nat) (va : DWord) : State :=
  let h := s.hartOf r.hart
  let need (e : DWord) : Bool := match op with
    | 0 => fieldOf e 4 2 != 0
    | 4 => e.getLsbD 7
    | _ => e.getLsbD 6
  match h.envDenied need with
  | some c => r.refuse c s
  | none =>
    let va := h.effective (if op = 4 then .store else .cbo) va
    s.hartDo r.hart r.part (if op = 4 then .cboZero va else if op = 0 then .cboInval va else .cboClean va) r.done

/-! ### CSR instructions -/

/-- A CSR instruction: the register is read, and rd takes its old value; then it is written, whole or by the bits that are set or cleared,
unless the source is x0. The counters of clock cycles read a free value. -/
def State.rvCsr (s : State) (r : RvAt) (w : Word) : State :=
  let h := s.hartOf r.hart
  let n := (w.extractLsb' 20 12).toNat
  let f3 := rvF3 w
  let src : DWord := if 4 ≤ f3 then (rvRs1 w).setWidth 64 else h.reg (rvRs1 w)
  let write := f3 % 4 == 1 || rvRs1 w != 0#5
  let mtime := (s.slice r.hart.slice).mtime
  match h.csrDenied mtime n write with
  | some c => r.refuse c s
  | none =>
    let n := h.csrNumber n
    let cycles := n == 0xC00 || n == 0xB00
    let q := if cycles then s.freeDWord else ((h.readCsr mtime n).getD 0#64, s)
    let base := h.csrBase n q.1
    let v := match f3 % 4 with
      | 1 => src
      | 2 => base ||| src
      | _ => base &&& ~~~src
    q.2.modHart r.hart fun h =>
      let h := (h.setReg (rvRd w) q.1).retire r.len
      if write then h.writeCsr n v else h

/-! ### Returns, waits and fences -/

/-- MRET: the mode of MPP and MPV, at mepc. -/
def Hart.mret (h : Hart) : Hart :=
  let st := h.csrOf 0x300
  let p := fieldOf st 11 2
  let v := decide (p < 3) && st.getLsbD 39
  let st := setField (setField (setField (setField st 3 1 (fieldOf st 7 1)) 7 1 1) 11 2 0) 39 1 0
  let st := if p < 3 then setField st 17 1 0 else st
  { h.setCsr 0x300 st with priv := p, virt := v, pc := h.csrOf 0x341 }

/-- SRET outside a virtual mode: the mode of SPP and SPV, at sepc. -/
def Hart.sret (h : Hart) : Hart :=
  let st := h.csrOf 0x300
  let hs := h.csrOf 0x600
  let st' := setField (setField (setField (setField st 1 1 (fieldOf st 5 1)) 5 1 1) 8 1 0) 17 1 0
  { (h.setCsr 0x300 st').setCsr 0x600 (setField hs 7 1 0) with priv := fieldOf st 8 1, virt := hs.getLsbD 7, pc := h.csrOf 0x141 }

/-- SRET of a virtual supervisor: the same in its own registers. -/
def Hart.vsret (h : Hart) : Hart :=
  let st := h.csrOf 0x200
  let st' := setField (setField (setField st 1 1 (fieldOf st 5 1)) 5 1 1) 8 1 0
  { h.setCsr 0x200 st' with priv := fieldOf st 8 1, pc := h.csrOf 0x241 }

/-- A return retires, and the hart goes on where it leads. -/
def RvAt.returns (r : RvAt) (s : State) (f : Hart → Hart) : State :=
  s.modHart r.hart fun h => let t := f h; { t with instret := (h.retire 0).instret }

/-- What stands against a fence of the address translation of a supervisor; tvm says that it is one that TVM and VTVM trap. -/
def Hart.fenceDenied (h : Hart) (tvm : Bool) : Option Nat :=
  if h.priv = 0 then some (if h.virt then 22 else 2)
  else if tvm ∧ h.virt ∧ (h.csrOf 0x600).getLsbD 20 then some 22
  else if tvm ∧ !h.virt ∧ h.priv = 1 ∧ (h.csrOf 0x300).getLsbD 20 then some 2
  else none

/-- What stands against a fence of a hypervisor. -/
def Hart.hfenceDenied (h : Hart) (tvm : Bool) : Option Nat :=
  if h.virt then some 22
  else if h.priv = 0 then some 2
  else if tvm ∧ h.priv = 1 ∧ (h.csrOf 0x300).getLsbD 20 then some 2
  else none

/-- An instruction with no effect of its own here, unless something stands against it. -/
def RvAt.unless (r : RvAt) (c : Option Nat) (s : State) : State := c.elim (r.done s) fun c => r.refuse c s

/-- WFI: the hart stops until an enabled interrupt is pending. A user's WFI is illegal, and TW and VTW trap a supervisor's. -/
def State.rvWfi (s : State) (r : RvAt) : State :=
  let h := s.hartOf r.hart
  if h.priv < 3 ∧ (h.csrOf 0x300).getLsbD 21 then r.illegal s
  else if h.virt ∧ (h.priv = 0 ∨ (h.csrOf 0x600).getLsbD 21) then r.refuse 22 s
  else if h.priv = 0 then r.illegal s
  else (r.done s).modHart r.hart fun h => { h with run := .wfi }

/-- The privileged instructions and the calls, by their upper 25 bits. -/
def State.rvSystem (s : State) (r : RvAt) (w : Word) : State :=
  let h := s.hartOf r.hart
  let code := (w.extractLsb' 20 12).toNat
  let plain := rvRd w == 0#5 && rvRs1 w == 0#5
  if plain && code == 0x000 then
    s.hartTrap r.hart (if h.priv = 3 then 11 else if h.priv = 0 then 8 else if h.virt then 10 else 9) 0#64
  else if plain && code == 0x001 then s.hartTrap r.hart 3 0#64
  else if plain && code == 0x102 then
    if h.priv = 0 then r.refuse (if h.virt then 22 else 2) s
    else if h.virt then (if (h.csrOf 0x600).getLsbD 22 then r.refuse 22 s else r.returns s Hart.vsret)
    else if h.priv = 1 ∧ (h.csrOf 0x300).getLsbD 22 then r.illegal s
    else r.returns s Hart.sret
  else if plain && code == 0x302 then (if h.priv = 3 then r.returns s Hart.mret else r.illegal s)
  else if plain && code == 0x105 then s.rvWfi r
  else if plain && (code == 0x00D || code == 0x01D) then r.done s
  else if plain && (code == 0x180 || code == 0x181) then r.unless (h.fenceDenied false) (s.hartDrain r.hart)
  else if rvRd w == 0#5 && (code / 32 == 0x09 || code / 32 == 0x0B) then r.unless (h.fenceDenied true) (s.hartDrain r.hart)
  else if rvRd w == 0#5 && (code / 32 == 0x11 || code / 32 == 0x13) then r.unless (h.hfenceDenied false) (s.hartDrain r.hart)
  else if rvRd w == 0#5 && (code / 32 == 0x31 || code / 32 == 0x33) then r.unless (h.hfenceDenied true) (s.hartDrain r.hart)
  else r.illegal s

/-- HLV, HLVX and HSV by funct7 and the second register's number: the size, the kind, and whether a load extends the sign. -/
def rvGuestForm (f7 rs2 : Nat) : Option (Nat × HartKind × Bool) :=
  match f7, rs2 with
  | 0x30, 0 => some (1, .hlv, true)
  | 0x30, 1 => some (1, .hlv, false)
  | 0x32, 0 => some (2, .hlv, true)
  | 0x32, 1 => some (2, .hlv, false)
  | 0x32, 3 => some (2, .hlvx, false)
  | 0x34, 0 => some (4, .hlv, true)
  | 0x34, 1 => some (4, .hlv, false)
  | 0x34, 3 => some (4, .hlvx, false)
  | 0x36, 0 => some (8, .hlv, true)
  | 0x31, _ => some (1, .hsv, false)
  | 0x33, _ => some (2, .hsv, false)
  | 0x35, _ => some (4, .hsv, false)
  | 0x37, _ => some (8, .hsv, false)
  | _, _ => none

/-- The accesses of a hypervisor to its guest's memory, and the operations that may be (Zimop), which give 0. -/
def State.rvGuest (s : State) (r : RvAt) (w : Word) : State :=
  let h := s.hartOf r.hart
  match rvGuestForm (rvF7 w) (rvRs2 w).toNat with
  | some (n, k, signed) =>
    if k = .hsv ∧ rvRd w ≠ 0#5 then r.illegal s
    else if h.virt then r.refuse 22 s
    else if h.priv = 0 ∧ !(h.csrOf 0x600).getLsbD 9 then r.illegal s
    else
      let va := h.effective k (h.reg (rvRs1 w))
      if k = .hsv then s.hartPut r.hart r.part .hsv va n (h.reg (rvRs2 w)) false r.done
      else s.hartRead r.hart r.part k va n fun v s => r.gives (rvRd w) (extended v.toNat n signed) s
  | none =>
    let f7 := rvF7 w
    if f7 / 64 = 1 ∧ f7 / 8 % 4 = 0 ∧ (f7 % 2 = 1 ∨ (rvRs2 w).toNat / 4 = 7) then r.gives (rvRd w) 0#64 s else r.illegal s

/-! ### Loads, stores and atomics -/

/-- A value of an option, or the illegal-instruction exception. -/
def RvAt.value (r : RvAt) (rd : BitVec 5) (v : Option DWord) (s : State) : State := v.elim (r.illegal s) fun v => r.gives rd v s

def State.rvLoad (s : State) (r : RvAt) (w : Word) : State :=
  let h := s.hartOf r.hart
  if rvF3 w = 7 then r.illegal s
  else s.hartDo r.hart r.part
    (.load (rvRd w) (h.effective .load (h.reg (rvRs1 w) + rvImmI w)) (2 ^ (rvF3 w % 4)) (rvF3 w < 4)) r.done

def State.rvStore (s : State) (r : RvAt) (w : Word) : State :=
  let h := s.hartOf r.hart
  if 3 < rvF3 w then r.illegal s
  else s.hartDo r.hart r.part (.store (h.effective .store (h.reg (rvRs1 w) + rvImmS w)) (2 ^ rvF3 w) (h.reg (rvRs2 w))) r.done

/-- The atomics; .rl has the hart's stores perform first. -/
def State.rvAmo (s : State) (r : RvAt) (w : Word) : State :=
  let s := if w.getLsbD 25 then s.hartDrain r.hart else s
  let h := s.hartOf r.hart
  let op := rvF7 w / 4
  let n := 2 ^ rvF3 w
  let v := h.reg (rvRs2 w)
  if rvF3 w ≠ 2 ∧ rvF3 w ≠ 3 then r.illegal s
  else if op = 2 then
    if rvRs2 w ≠ 0#5 then r.illegal s
    else s.hartDo r.hart r.part (.loadReserved (rvRd w) (h.effective .load (h.reg (rvRs1 w))) n) r.done
  else
    let va := h.effective .store (h.reg (rvRs1 w))
    if op = 3 then s.hartDo r.hart r.part (.storeConditional (rvRd w) va n v) r.done
    else if [0, 1, 4, 8, 12, 16, 20, 24, 28].contains op then s.hartDo r.hart r.part (.amo (rvRd w) op va n v) r.done
    else r.illegal s

/-- FENCE with its predecessor's writes, and FENCE.I, have every store of the hart perform; the other accesses of a hart perform at their
turn, so that no fence orders more of them. The cache-block operations share the opcode. -/
def State.rvFence (s : State) (r : RvAt) (w : Word) : State :=
  let op := (w.extractLsb' 20 12).toNat
  if rvF3 w = 1 ∨ (rvF3 w = 0 ∧ w.getLsbD 24) then r.done (s.hartDrain r.hart)
  else if rvF3 w = 0 then r.done s
  else if rvF3 w = 2 ∧ rvRd w = 0#5 ∧ (op < 3 ∨ op = 4) then s.rvCbo r op ((s.hartOf r.hart).reg (rvRs1 w))
  else r.illegal s

/-- The integer instructions by their major opcode; none for another. -/
def State.rvInteger (s : State) (r : RvAt) (w : Word) : Option State :=
  let h := s.hartOf r.hart
  let a := h.reg (rvRs1 w)
  let b := h.reg (rvRs2 w)
  let rd := rvRd w
  let field := (w.extractLsb' 20 12).toNat
  let next := h.pc + BitVec.ofNat 64 r.len
  match (w.extractLsb' 0 7).toNat with
  | 0x03 => some (s.rvLoad r w)
  | 0x0F => some (s.rvFence r w)
  | 0x13 => some (r.value rd (rvOpImm (rvF3 w) field a (rvImmI w)) s)
  | 0x17 => some (r.gives rd (h.pc + rvImmU w) s)
  | 0x1B => some (r.value rd (rvOpImm32 (rvF3 w) field a (rvImmI w)) s)
  | 0x23 => some (s.rvStore r w)
  | 0x2F => some (s.rvAmo r w)
  | 0x33 => some (r.value rd (rvOp (rvF7 w) (rvF3 w) a b) s)
  | 0x37 => some (r.gives rd (rvImmU w) s)
  | 0x3B => some (r.value rd (rvOp32 (rvF7 w) (rvF3 w) (rvRs2 w).toNat a b) s)
  | 0x63 => some (match rvBranch (rvF3 w) a b with
      | none => r.illegal s
      | some true => r.jumps (h.pc + rvImmB w) s
      | some false => r.done s)
  | 0x67 =>
    some (if rvF3 w = 0 then r.jumps ((a + rvImmI w) &&& ~~~1#64) (s.modHart r.hart fun h => h.setReg rd next) else r.illegal s)
  | 0x6F => some (r.jumps (h.pc + rvImmJ w) (s.modHart r.hart fun h => h.setReg rd next))
  | 0x73 =>
    some (if rvF3 w = 0 then s.rvSystem r w else if rvF3 w = 4 then s.rvGuest r w else s.rvCsr r w)
  | _ => none

end Sys2Proof.Machine
end

