-- ==== Sys2Proof/Machine/HartFloat.lean ====
section
/-!
DEFINITION. The floating-point instructions of a hart's profile (R393), as the RISC-V architecture gives them (PRESUMED:
notes/assumptions): F, D, Zfhmin and Zfa. The arithmetic is that of the shared formats (R151, R152); the flags' places are fflags' own.
-/

namespace Sys2Proof.Machine

/-! ### Registers and formats -/

def fmtF64 : Fmt := ⟨64, 53, 1023, true, true, true⟩

/-- The format of a two-bit field: single, double or half. -/
def rvFmt (n : Nat) : Option Fmt := match n with
  | 0 => some fmtF32
  | 1 => some fmtF64
  | 2 => some fmtF16
  | _ => none

/-- A register's value in a format: one that is not boxed in ones reads as NaN. -/
def Hart.freg (h : Hart) (p : Fmt) (n : BitVec 5) : Nat :=
  let w := (h.f.get n.toNat 0#64).toNat
  if p.k = 64 ∨ w / 2 ^ p.k = 2 ^ (64 - p.k) - 1 then w % 2 ^ p.k else p.nanCode

/-- A value in a register, boxed in ones; the state is dirty. -/
def Hart.setFreg (h : Hart) (p : Fmt) (n : BitVec 5) (v : Nat) : Hart :=
  let w := BitVec.ofNat 64 (v % 2 ^ p.k + (2 ^ (64 - p.k) - 1) * 2 ^ p.k)
  { h with f := h.f.set n.toNat w }.dirty 13

/-- The flags of an operation are added to fflags. -/
def Hart.addFlags (h : Hart) (fl : Word) : Hart :=
  if fl = 0#32 then h else (h.setCsr 0x003 (h.csrOf 0x003 ||| (fl &&& 0x1F#32).setWidth 64)).dirty 13

/-- Whether the floating-point or vector state is on, in mstatus at a field, and in vsstatus in a virtual mode. -/
def Hart.stateOn (h : Hart) (lo : Nat) : Bool := fieldOf (h.csrOf 0x300) lo 2 != 0 && (!h.virt || fieldOf (h.csrOf 0x200) lo 2 != 0)

/-- The rounding mode of a number; none for the reserved ones. -/
def rvModeOf (n : Nat) : Option RMode := match n with
  | 0 => some .rne
  | 1 => some .rtz
  | 2 => some .rdn
  | 3 => some .rup
  | 4 => some .rna
  | _ => none
/-- The rounding mode of an instruction: its own, or that of frm. -/
def Hart.rmode (h : Hart) (rm : Nat) : Option RMode := rvModeOf (if rm = 7 then fieldOf (h.csrOf 0x003) 5 3 else rm)

/-! ### Operations -/

/-- The class of a value, by its bit. -/
def rvClass (p : Fmt) (c : Nat) : Nat :=
  let sub := c / 2 ^ p.t % 2 ^ (p.k - p.p) == 0
  match p.decode c with
  | .nan s => if s then 2 ^ 8 else 2 ^ 9
  | .inf neg => if neg then 1 else 2 ^ 7
  | .fin neg n _ =>
    if n = 0 then (if neg then 2 ^ 3 else 2 ^ 4)
    else if sub then (if neg then 2 ^ 2 else 2 ^ 5)
    else if neg then 2 else 2 ^ 6

/-- A comparison: equal, less, or less or equal; quiet says that only a signalling NaN is invalid. -/
def rvCompare (op : Nat) (quiet : Bool) (x y : FVal) : Bool × Word :=
  let nan := x.isNan || y.isNan
  let r := match op with
    | 0 => !fltLt y x
    | 1 => fltLt x y
    | _ => !fltLt x y && !fltLt y x
  (!nan && r, if quiet then snans [x, y] else flagIf nan flagNV)

/-- A value as an integer of a width, where a NaN gives the largest. -/
def rvToInt (w : Nat) (signed : Bool) (m : RMode) (v : FVal) : Int × Word :=
  if v.isNan then (intMax w signed, flagNV) else convToInt w signed m v

/-- A value rounded to an integral one; exact says that a change is shown. -/
def rvRound (p : Fmt) (m : RMode) (shown : Bool) (c : Nat) : Nat × Word :=
  match p.decode c with
  | .nan s => (p.nanCode, flagIf s flagNV)
  | .inf _ => (c, 0#32)
  | .fin neg n e =>
    if 0 ≤ e then (c, 0#32)
    else
      let (lo, r, d) := onGrid n 1 e 0
      (p.withSign neg (p.magCode (if m.up neg (lo % 2 == 1) r d then lo + 1 else lo) 0), flagIf (shown && r != 0) flagNX)

/-- FCVTMOD.W.D: the value cut to an integer, modulo 2^32. -/
def rvCvtMod (c : Nat) : DWord × Word :=
  match fmtF64.decode c with
  | .fin neg n e =>
    let (lo, r, _) := onGrid n 1 e 0
    let x : Int := if neg then -(lo : Int) else lo
    let fl := if x < -(2 ^ 31) ∨ 2 ^ 31 - 1 < x then flagNV else flagIf (r != 0) flagNX
    ((BitVec.ofInt 32 x).signExtend 64, fl)
  | _ => (0#64, flagNV)

/-- The minimum and maximum of Zfa, where a NaN gives NaN. -/
def rvMinmaxNan (p : Fmt) (isMax : Bool) (cx cy : Nat) : Nat × Word :=
  let x := p.decode cx
  let y := p.decode cy
  if x.isNan || y.isNan then (p.nanCode, snans [x, y]) else p.minmax isMax cx cy x y

/-- The values of FLI: a significand and an exponent, or the least normal one, infinity and NaN. -/
def rvFli (p : Fmt) (n : Nat) : Nat :=
  let v (k : Nat) (e : Int) : Nat := p.magCode k e
  match n with
  | 0 => p.withSign true (v 1 0)
  | 1 => 2 ^ p.t
  | 2 => v 1 (-16)
  | 3 => v 1 (-15)
  | 4 => v 1 (-8)
  | 5 => v 1 (-7)
  | 6 => v 1 (-4)
  | 7 => v 1 (-3)
  | 8 => v 1 (-2)
  | 9 => v 5 (-4)
  | 10 => v 3 (-3)
  | 11 => v 7 (-4)
  | 12 => v 1 (-1)
  | 13 => v 5 (-3)
  | 14 => v 3 (-2)
  | 15 => v 7 (-3)
  | 16 => v 1 0
  | 17 => v 5 (-2)
  | 18 => v 3 (-1)
  | 19 => v 7 (-2)
  | 20 => v 2 0
  | 21 => v 5 (-1)
  | 22 => v 3 0
  | 23 => v 4 0
  | 24 => v 8 0
  | 25 => v 16 0
  | 26 => v 128 0
  | 27 => v 256 0
  | 28 => v (2 ^ 15) 0
  | 29 => v (2 ^ 16) 0
  | 30 => p.topCode
  | _ => p.nanCode

/-- Sign injection: the sign of the second, its inverse, or the product of both. -/
def rvSign (p : Fmt) (op : Nat) (x y : Nat) : Option Nat :=
  let s := 2 ^ (p.k - 1)
  let sx := x / s % 2
  let sy := y / s % 2
  match op with
  | 0 => some (x % s + sy * s)
  | 1 => some (x % s + (1 - sy) * s)
  | 2 => some (x % s + (sx + sy) % 2 * s)
  | _ => none

/-! ### Execution -/

/-- A result in a floating-point register with its flags. -/
def RvAt.givesF (r : RvAt) (p : Fmt) (rd : BitVec 5) (v : Nat × Word) (s : State) : State :=
  s.modHart r.hart fun h => ((h.addFlags v.2).setFreg p rd v.1).retire r.len
/-- A result in a general register with its flags. -/
def RvAt.givesX (r : RvAt) (rd : BitVec 5) (v : DWord × Word) (s : State) : State :=
  s.modHart r.hart fun h => ((h.addFlags v.2).setReg rd v.1).retire r.len

/-- An operation of OP-FP in single or double by its function and its rounding mode field. -/
def State.rvArithF (s : State) (r : RvAt) (w : Word) (p : Fmt) : State :=
  let h := s.hartOf r.hart
  let f3 := rvF3 w
  let rd := rvRd w
  let a := h.freg p (rvRs1 w)
  let b := h.freg p (rvRs2 w)
  let x := p.decode a
  let y := p.decode b
  let n := (rvRs2 w).toNat
  let rounded (f : RMode → Nat × Word) : State := match h.rmode f3 with
    | some m => r.givesF p rd (f m) s
    | none => r.illegal s
  match rvF7 w / 4 with
  | 0x00 => rounded fun m => p.add m x y
  | 0x01 => rounded fun m => p.add m x y.negate
  | 0x02 => rounded fun m => p.mul m x y
  | 0x03 => rounded fun m => p.div m x y
  | 0x0B => if n = 0 then rounded fun m => p.sqrt m x else r.illegal s
  | 0x04 => (rvSign p f3 a b).elim (r.illegal s) fun v => r.givesF p rd (v, 0#32) s
  | 0x05 =>
    if f3 < 2 then r.givesF p rd (p.minmax (f3 == 1) a b x y) s
    else if f3 < 4 then r.givesF p rd (rvMinmaxNan p (f3 == 3) a b) s
    else r.illegal s
  | 0x14 =>
    if f3 < 3 then let c := rvCompare f3 (f3 == 2) x y; r.givesX rd (boolD c.1, c.2) s
    else if f3 = 4 ∨ f3 = 5 then let c := rvCompare (f3 - 4) true x y; r.givesX rd (boolD c.1, c.2) s
    else r.illegal s
  | 0x18 =>
    if n < 4 then match h.rmode f3 with
      | none => r.illegal s
      | some m =>
        let width := if n < 2 then 32 else 64
        let v := rvToInt width (n % 2 == 0) m x
        r.givesX rd (((BitVec.ofInt 64 v.1).extractLsb' 0 width).signExtend 64, v.2) s
    else if n = 8 ∧ f3 = 1 ∧ p.k = 64 then r.givesX rd (rvCvtMod a) s
    else r.illegal s
  | 0x1A =>
    let g := h.reg (rvRs1 w)
    let v : Int := match n with
      | 0 => (g.extractLsb' 0 32).toInt
      | 1 => (g.extractLsb' 0 32).toNat
      | 2 => g.toInt
      | _ => g.toNat
    if n < 4 then rounded fun m => p.conv m false (.ofInt v) else r.illegal s
  | 0x08 =>
    if n = 4 ∨ n = 5 then rounded fun m => rvRound p m (n == 5) a
    else match rvFmt n with
      | some q => if n < 3 ∧ q ≠ p then rounded fun m => p.conv m false (q.decode (h.freg q (rvRs1 w))) else r.illegal s
      | none => r.illegal s
  | 0x1C =>
    if n = 0 ∧ f3 = 0 then
      r.gives rd (((h.f.get (rvRs1 w).toNat 0#64).extractLsb' 0 p.k).signExtend 64) s
    else if n = 0 ∧ f3 = 1 then r.gives rd (BitVec.ofNat 64 (rvClass p a)) s
    else r.illegal s
  | 0x1E =>
    if f3 ≠ 0 then r.illegal s
    else if n = 0 then r.givesF p rd ((h.reg (rvRs1 w)).toNat % 2 ^ p.k, 0#32) s
    else if n = 1 then r.givesF p rd (rvFli p (rvRs1 w).toNat, 0#32) s
    else r.illegal s
  | _ => r.illegal s

/-- What Zfhmin has of OP-FP in half: conversions with the other two formats, and moves. -/
def State.rvHalf (s : State) (r : RvAt) (w : Word) : State :=
  let f := rvF7 w / 4
  let n := (rvRs2 w).toNat
  if (f = 0x08 ∧ n < 2) ∨ (f = 0x1C ∧ n = 0 ∧ rvF3 w = 0) ∨ (f = 0x1E ∧ n = 0) then s.rvArithF r w fmtF16 else r.illegal s

/-- The fused operations by their major opcode: the signs of the product and of the addend. -/
def State.rvFused (s : State) (r : RvAt) (w : Word) (op : Nat) : State :=
  let h := s.hartOf r.hart
  match rvFmt (rvF7 w % 4), h.rmode (rvF3 w) with
  | some p, some m =>
    if p.k = 16 then r.illegal s
    else
      let x := p.decode (h.freg p (rvRs1 w))
      let y := p.decode (h.freg p (rvRs2 w))
      let z := p.decode (h.freg p (w.extractLsb' 27 5))
      let x := if op = 0x4B ∨ op = 0x4F then x.negate else x
      let z := if op = 0x47 ∨ op = 0x4F then z.negate else z
      r.givesF p (rvRd w) (p.fma m x y z) s
  | _, _ => r.illegal s

/-- The format of a floating-point load or store by funct3. -/
def rvFloatSize (f3 : Nat) : Option Fmt := match f3 with
  | 1 => some fmtF16
  | 2 => some fmtF32
  | 3 => some fmtF64
  | _ => none

/-- The floating-point instructions by their major opcode; none for another, and for the vector loads and stores. -/
def State.rvFloat (s : State) (r : RvAt) (w : Word) : Option State :=
  let h := s.hartOf r.hart
  let op := (w.extractLsb' 0 7).toNat
  let on (t : State) : Option State := some (if h.stateOn 13 then t else r.illegal s)
  if op = 0x07 then
    (rvFloatSize (rvF3 w)).bind fun p => on (s.hartRead r.hart r.part .load (h.effective .load (h.reg (rvRs1 w) + rvImmI w)) (p.k / 8)
      fun v s => r.givesF p (rvRd w) (v.toNat, 0#32) s)
  else if op = 0x27 then
    (rvFloatSize (rvF3 w)).bind fun p => on (s.hartPut r.hart r.part .store (h.effective .store (h.reg (rvRs1 w) + rvImmS w)) (p.k / 8)
      ((h.f.get (rvRs2 w).toNat 0#64) &&& BitVec.ofNat 64 (2 ^ p.k - 1)) false r.done)
  else if op = 0x43 ∨ op = 0x47 ∨ op = 0x4B ∨ op = 0x4F then on (s.rvFused r w op)
  else if op = 0x53 then
    on (match rvFmt (rvF7 w % 4) with
      | some p => if p.k = 16 then s.rvHalf r w else s.rvArithF r w p
      | none => r.illegal s)
  else none

end Sys2Proof.Machine
end

