-- ==== Sys2Proof/Machine/HartVector.lean ====
section
/-!
DEFINITION. The vector instructions of a hart's profile (R393: VLEN 256), as the RISC-V architecture gives them (PRESUMED:
notes/assumptions): V, Zvfhmin and Zvbb. Elements that are agnostic of tail or mask keep what they held.
-/

namespace Sys2Proof.Machine

/-! ### The configuration -/

def vlen : Nat := 256

def Hart.vtype (h : Hart) : DWord := h.csrOf 0xC21
def Hart.vl (h : Hart) : Nat := (h.csrOf 0xC20).toNat
def Hart.vstart (h : Hart) : Nat := (h.csrOf 0x008).toNat
/-- The width of an element. -/
def vtypeSew (t : DWord) : Nat := 8 * 2 ^ fieldOf t 3 3
/-- Eight times the number of registers that a group takes, or 0 for the reserved code. -/
def vtypeLmul (t : DWord) : Nat := match fieldOf t 0 3 with
  | 0 => 8
  | 1 => 16
  | 2 => 32
  | 3 => 64
  | 5 => 1
  | 6 => 2
  | 7 => 4
  | _ => 0
/-- Whether a vtype is supported: elements of 8 to 64 bits, no wider than the part of 64 bits that a fractional group takes. -/
def vtypeOk (t : DWord) : Bool :=
  decide (t.toNat < 256) && decide (fieldOf t 3 3 ≤ 3) && vtypeLmul t != 0 && decide (vtypeSew t * 8 ≤ 64 * min 8 (vtypeLmul t))
/-- The elements of a group of a vtype. -/
def vtypeMax (t : DWord) : Nat := vtypeLmul t * vlen / 8 / vtypeSew t

/-- A vtype and a length set: an unsupported vtype leaves vill and no elements. -/
def Hart.setVtype (h : Hart) (t : DWord) (avl : Nat) : Hart :=
  let h := if vtypeOk t then (h.setCsr 0xC21 t).setCsr 0xC20 (BitVec.ofNat 64 (min avl (vtypeMax t)))
    else (h.setCsr 0xC21 (1#64 <<< 63)).setCsr 0xC20 0#64
  (h.setCsr 0x008 0#64).dirty 9

/-- VSETVLI, VSETIVLI and VSETVL: rd takes the new length. With neither register named the length stays, if the groups hold as many. -/
def State.rvVset (s : State) (r : RvAt) (w : Word) : State :=
  let h := s.hartOf r.hart
  let rs1 := rvRs1 w
  let immediate := w.extractLsb' 30 2 == 3#2
  let t : Option DWord :=
    if !w.getLsbD 31 then some ((w.extractLsb' 20 11).setWidth 64)
    else if immediate then some ((w.extractLsb' 20 10).setWidth 64)
    else if rvF7 w = 0x40 then some (h.reg (rvRs2 w))
    else none
  match t with
  | none => r.illegal s
  | some t =>
    let keep := !immediate && rs1 == 0#5 && rvRd w == 0#5
    let avl := if immediate then rs1.toNat else if rs1 ≠ 0#5 then (h.reg rs1).toNat else if keep then h.vl else 2 ^ 64
    let t := if keep ∧ vtypeMax t ≠ vtypeMax h.vtype then 1#64 <<< 63 else t
    s.modHart r.hart fun h => let h := h.setVtype t avl; (h.setReg (rvRd w) (h.csrOf 0xC20)).retire r.len

/-! ### Elements -/

def Hart.vreg (h : Hart) (n : Nat) : BitVec 256 := h.v.get n 0#256
/-- An element of a width of the group at a register. -/
def Hart.velem (h : Hart) (w base i : Nat) : Nat := ((h.vreg (base + i * w / vlen)).extractLsb' (i * w % vlen) w).toNat
def Hart.setVelem (h : Hart) (w base i v : Nat) : Hart :=
  let n := base + i * w / vlen
  let at_ := i * w % vlen
  let old := h.vreg n
  let ones := BitVec.ofNat 256 (2 ^ w - 1) <<< at_
  { h with v := h.v.set n ((old &&& ~~~ones) ||| (BitVec.ofNat 256 (v % 2 ^ w) <<< at_)) }
def Hart.vbit (h : Hart) (n i : Nat) : Bool := (h.vreg n).getLsbD i
def Hart.setVbit (h : Hart) (n i : Nat) (b : Bool) : Hart := h.setVelem 1 n i (boolNat b)

/-- The elements that an instruction acts on: from vstart to vl, without those that its mask leaves out. -/
def Hart.vbody (h : Hart) (vm : Bool) : List Nat :=
  (List.range h.vl).filter fun i => decide (h.vstart ≤ i) && (vm || h.vbit 0 i)

/-- The registers of a group of elements of a width, and whether the width has a group here at all. -/
def Hart.vregs (h : Hart) (w : Nat) : Nat := max 1 (vtypeLmul h.vtype * w / vtypeSew h.vtype / 8)
def Hart.vgroup (h : Hart) (w n : Nat) : Bool :=
  let e := vtypeLmul h.vtype * w / vtypeSew h.vtype
  decide (1 ≤ e ∧ e ≤ 64 ∧ w ≤ 64) && n % h.vregs w == 0

/-- Whether a destination group may overlap a source group: with equal widths; at the source's low end where the destination is narrower;
at the destination's high end where it is wider and the source is of whole registers. -/
def Hart.voverlap (h : Hart) (wd vd ws vs : Nat) : Bool :=
  let nd := if wd = 1 then 1 else h.vregs wd
  let ns := if ws = 1 then 1 else h.vregs ws
  let apart := vd + nd ≤ vs ∨ vs + ns ≤ vd
  let same := wd = ws
  let narrow := wd < ws ∧ vd = vs
  let wide := ws < wd ∧ 8 ≤ vtypeLmul h.vtype * ws / vtypeSew h.vtype ∧ vd + nd = vs + ns
  decide (apart ∨ same ∨ narrow ∨ wide)

/-- An instruction's end: vstart is 0, its flags are added, and saturation shows in vxsat (bit 8 of the flags). -/
def Hart.vdone (h : Hart) (fl : Word) : Hart :=
  let h := ((h.setCsr 0x008 0#64).dirty 9).addFlags (fl &&& 0x1F#32)
  if fl.getLsbD 8 then h.setCsr 0x00F (h.csrOf 0x00F ||| 1#64) else h

def RvAt.vgives (r : RvAt) (s : State) (h : Hart) (fl : Word) : State := s.modHart r.hart fun _ => (h.vdone fl).retire r.len

def flagSat : Word := 0x100#32

/-! ### Element operations -/

/-- What an instruction does element by element: the widths of its destination, second and first sources in bits; whether the destination
is a mask; whether the mask register is an operand instead of a mask; and the value and flags from the second source, the first, what
the destination holds, and the mask register's bit. -/
structure VOp where
  wd    : Nat
  w2    : Nat
  w1    : Nat
  mask  : Bool
  carry : Bool
  f     : Nat → Nat → Nat → Bool → Nat × Word

/-- A signed element. -/
def sgn (w x : Nat) : Int := toInt w true (x % 2 ^ w)
def unsgn (w : Nat) (x : Int) : Nat := (x % 2 ^ w).toNat

/-- What rounding adds to a value shifted right, by vxrm. -/
def vround (rm : Nat) (v : Int) (d : Nat) : Int :=
  if d = 0 then v
  else
    let q := v / 2 ^ d
    let rest := (v % 2 ^ d).toNat
    let up := match rm with
      | 0 => decide (2 ^ (d - 1) ≤ rest)
      | 1 => decide (2 ^ (d - 1) < rest) || (rest == 2 ^ (d - 1) && q % 2 != 0)
      | 2 => false
      | _ => rest != 0 && q % 2 == 0
    q + if up then 1 else 0

/-- A value saturated to a width. -/
def vsat (w : Nat) (signed : Bool) (v : Int) : Nat × Word :=
  let c := clampInt (intMin w signed) (intMax w signed) v
  (unsgn w c, flagIf (c != v) flagSat)

/-- An operation on elements of one width without flags. -/
def vplain (w : Nat) (g : Nat → Nat → Nat) : Option VOp := some ⟨w, w, w, false, false, fun x y _ _ => (g x y, 0#32)⟩
def vflags (w : Nat) (g : Nat → Nat → Nat × Word) : Option VOp := some ⟨w, w, w, false, false, fun x y _ _ => g x y⟩
def vcompare (w : Nat) (g : Nat → Nat → Bool) : Option VOp := some ⟨1, w, w, true, false, fun x y _ _ => (boolNat (g x y), 0#32)⟩
def vmerge (w : Nat) : Option VOp := some ⟨w, w, w, false, true, fun x y _ b => (if b then y else x, 0#32)⟩

def vbitrev (w x : Nat) : Nat := ((List.range w).map fun i => x / 2 ^ i % 2 * 2 ^ (w - 1 - i)).sum

/-- The integer operations of OPIVV, OPIVX and OPIVI by funct6; vm and the form decide the carries. -/
def vopInt (f6 w rm : Nat) (vm imm : Bool) : Option VOp :=
  let s (x : Nat) : Int := sgn w x
  let m := w - 1
  match f6 with
  | 0x00 => vplain w fun x y => x + y
  | 0x01 => vplain w fun x y => x &&& (2 ^ w - 1 - y)
  | 0x02 => vplain w fun x y => x + 2 ^ w - y
  | 0x03 => vplain w fun x y => y + 2 ^ w - x
  | 0x04 => vplain w min
  | 0x05 => vplain w fun x y => if s x < s y then x else y
  | 0x06 => vplain w max
  | 0x07 => vplain w fun x y => if s x < s y then y else x
  | 0x09 => vplain w fun x y => x &&& y
  | 0x0A => vplain w fun x y => x ||| y
  | 0x0B => vplain w fun x y => x ^^^ y
  | 0x10 => if vm then none else some ⟨w, w, w, false, true, fun x y _ b => (x + y + boolNat b, 0#32)⟩
  | 0x11 => some ⟨1, w, w, true, true, fun x y _ b => ((x + y + boolNat (!vm && b)) / 2 ^ w, 0#32)⟩
  | 0x12 => if vm then none else some ⟨w, w, w, false, true, fun x y _ b => (x + 2 * 2 ^ w - y - boolNat b, 0#32)⟩
  | 0x13 => some ⟨1, w, w, true, true, fun x y _ b => (boolNat (decide (x < y + boolNat (!vm && b))), 0#32)⟩
  | 0x14 => vplain w fun x y => let n := y % w; x / 2 ^ n + x * 2 ^ (w - n)
  | 0x15 =>
    if imm then vplain w fun x y => let n := (y + 32) % w; x / 2 ^ n + x * 2 ^ (w - n)
    else vplain w fun x y => let n := y % w; x * 2 ^ n + x / 2 ^ (w - n)
  | 0x17 => if vm then vplain w (fun _ y => y) else vmerge w
  | 0x18 => vcompare w (· == ·)
  | 0x19 => vcompare w (· != ·)
  | 0x1A => vcompare w fun x y => decide (x < y)
  | 0x1B => vcompare w fun x y => decide (s x < s y)
  | 0x1C => vcompare w fun x y => decide (x ≤ y)
  | 0x1D => vcompare w fun x y => decide (s x ≤ s y)
  | 0x1E => vcompare w fun x y => decide (y < x)
  | 0x1F => vcompare w fun x y => decide (s y < s x)
  | 0x20 => vflags w fun x y => vsat w false (x + y)
  | 0x21 => vflags w fun x y => vsat w true (s x + s y)
  | 0x22 => vflags w fun x y => vsat w false ((x : Int) - y)
  | 0x23 => vflags w fun x y => vsat w true (s x - s y)
  | 0x25 => vplain w fun x y => x * 2 ^ (y &&& m)
  | 0x27 => vflags w fun x y => vsat w true (vround rm (s x * s y) (w - 1))
  | 0x28 => vplain w fun x y => x / 2 ^ (y &&& m)
  | 0x29 => vplain w fun x y => unsgn w (s x / 2 ^ (y &&& m))
  | 0x2A => vplain w fun x y => unsgn w (vround rm x (y &&& m))
  | 0x2B => vplain w fun x y => unsgn w (vround rm (s x) (y &&& m))
  | 0x2C => some ⟨w, 2 * w, w, false, false, fun x y _ _ => (x / 2 ^ (y &&& (2 * w - 1)), 0#32)⟩
  | 0x2D => some ⟨w, 2 * w, w, false, false, fun x y _ _ => (unsgn w (sgn (2 * w) x / 2 ^ (y &&& (2 * w - 1))), 0#32)⟩
  | 0x2E => some ⟨w, 2 * w, w, false, false, fun x y _ _ => vsat w false (vround rm x (y &&& (2 * w - 1)))⟩
  | 0x2F => some ⟨w, 2 * w, w, false, false, fun x y _ _ => vsat w true (vround rm (sgn (2 * w) x) (y &&& (2 * w - 1)))⟩
  | 0x35 => some ⟨2 * w, w, w, false, false, fun x y _ _ => (x * 2 ^ (y &&& (2 * w - 1)), 0#32)⟩
  | _ => none

/-- Which forms an OPI funct6 has: with a vector, a register and an immediate. -/
def vopIntForms (f6 : Nat) : Bool × Bool × Bool :=
  if [0x01, 0x02, 0x04, 0x05, 0x06, 0x07, 0x12, 0x13, 0x1A, 0x1B, 0x22, 0x23].contains f6 then (true, true, false)
  else if [0x03, 0x1E, 0x1F].contains f6 then (false, true, true)
  else if f6 = 0x27 then (true, true, false)
  else (true, true, true)

/-- A product-like operation of two widths, by the signs of its sources. -/
def vwide (w : Nat) (s2 s1 : Bool) (wide2 : Bool) (g : Int → Int → Int → Int) : Option VOp :=
  let v (w : Nat) (signed : Bool) (x : Nat) : Int := if signed then sgn w x else x
  let w2 := if wide2 then 2 * w else w
  some ⟨2 * w, w2, w, false, false, fun x y d _ => (unsgn (2 * w) (g (v w2 s2 x) (v w s1 y) d), 0#32)⟩

def vsingle (w : Nat) (g : Nat → Nat → Nat → Int) : Option VOp := some ⟨w, w, w, false, false, fun x y d _ => (unsgn w (g x y d), 0#32)⟩

/-- The integer operations of OPMVV and OPMVX that go element by element, by funct6. -/
def vopMul (f6 w rm : Nat) (scalar : Bool) : Option VOp :=
  let s (x : Nat) : Int := sgn w x
  let add (a b _d : Int) : Int := a + b
  let sub (a b _d : Int) : Int := a - b
  let mul (a b _d : Int) : Int := a * b
  let mac (a b d : Int) : Int := a * b + d
  match f6 with
  | 0x08 => vsingle w fun x y _ => vround rm (x + y) 1
  | 0x09 => vsingle w fun x y _ => vround rm (s x + s y) 1
  | 0x0A => vsingle w fun x y _ => vround rm ((x : Int) - y) 1
  | 0x0B => vsingle w fun x y _ => vround rm (s x - s y) 1
  | 0x20 => vsingle w fun x y _ => (rvDiv w false x y).1
  | 0x21 => vsingle w fun x y _ => (rvDiv w true x y).1
  | 0x22 => vsingle w fun x y _ => (rvDiv w false x y).2
  | 0x23 => vsingle w fun x y _ => (rvDiv w true x y).2
  | 0x24 => vsingle w fun x y _ => (x : Int) * y / 2 ^ w
  | 0x25 => vsingle w fun x y _ => (x : Int) * y
  | 0x26 => vsingle w fun x y _ => s x * y / 2 ^ w
  | 0x27 => vsingle w fun x y _ => s x * s y / 2 ^ w
  | 0x29 => vsingle w fun x y d => (y : Int) * d + x
  | 0x2B => vsingle w fun x y d => (x : Int) - (y : Int) * d
  | 0x2D => vsingle w fun x y d => (y : Int) * x + d
  | 0x2F => vsingle w fun x y d => (d : Int) - (y : Int) * x
  | 0x30 => vwide w false false false add
  | 0x31 => vwide w true true false add
  | 0x32 => vwide w false false false sub
  | 0x33 => vwide w true true false sub
  | 0x34 => vwide w false false true add
  | 0x35 => vwide w true true true add
  | 0x36 => vwide w false false true sub
  | 0x37 => vwide w true true true sub
  | 0x38 => vwide w false false false mul
  | 0x3A => vwide w true false false mul
  | 0x3B => vwide w true true false mul
  | 0x3C => vwide w false false false mac
  | 0x3D => vwide w true true false mac
  | 0x3E => if scalar then vwide w true false false mac else none
  | 0x3F => vwide w false true false mac
  | _ => none

/-- The unary operations of VXUNARY0, by the first source's number: extensions, and Zvbb's. -/
def vopUnary (n w : Nat) : Option VOp :=
  let one (g : Nat → Nat) : Option VOp := some ⟨w, w, w, false, false, fun x _ _ _ => (g x, 0#32)⟩
  let ext (k : Nat) (signed : Bool) : Option VOp :=
    if w / k < 8 then none
    else some ⟨w, w / k, w, false, false, fun x _ _ _ => (if signed then unsgn w (sgn (w / k) x) else x, 0#32)⟩
  match n with
  | 2 => ext 8 false
  | 3 => ext 8 true
  | 4 => ext 4 false
  | 5 => ext 4 true
  | 6 => ext 2 false
  | 7 => ext 2 true
  | 8 => one fun x => ((List.range (w / 8)).map fun i => vbitrev 8 (x / 2 ^ (8 * i) % 256) * 2 ^ (8 * i)).sum
  | 9 => one (reverseBytes (w / 8))
  | 10 => one (vbitrev w)
  | 12 => one (countLead w)
  | 13 => one (countTrail w)
  | 14 => one (countOnes w)
  | _ => none

/-! ### Floating-point elements -/

/-- The format of elements of a width. -/
def vfmt (w : Nat) : Option Fmt := if w = 32 then some fmtF32 else if w = 64 then some fmtF64 else none

/-- The seven-bit estimate of a reciprocal: the significand's entry rounds that of the middle of its interval. -/
def rec7 (i : Nat) : Nat := let d := 257 + 2 * i; (2 * (128 * (255 - 2 * i)) + d) / (2 * d)
/-- The seven-bit estimate of a reciprocal square root of a significand's six bits, under an even or an odd exponent. -/
def rsqrt7 (even : Bool) (j : Nat) : Nat :=
  let x := (if even then 1 else 2) * (129 + 2 * j)
  ((List.range 128).filter fun k => decide ((255 + 2 * k) ^ 2 * x ≤ 512 ^ 2 * 128)).length - 1

/-- VFREC7. -/
def vfrec7 (p : Fmt) (m : RMode) (c : Nat) : Nat × Word :=
  match p.decode c with
  | .nan s => (p.nanCode, flagIf s flagNV)
  | .inf neg => (p.withSign neg 0, 0#32)
  | .fin neg n e =>
    if n = 0 then (p.withSign neg p.topCode, flagDZ)
    else
      let l : Int := Nat.log2 n
      let x := l + e
      let sig := shiftBy n (7 - l) % 128
      let out := -x - 1
      if out > p.bias then
        (if m.toInf neg then (p.withSign neg p.topCode, flagOF ||| flagNX) else (p.withSign neg p.maxCode, flagOF ||| flagNX))
      else (p.withSign neg (p.magCode (128 + rec7 sig) (out - 7)), 0#32)

/-- VFRSQRT7. -/
def vfrsqrt7 (p : Fmt) (c : Nat) : Nat × Word :=
  match p.decode c with
  | .nan s => (p.nanCode, flagIf s flagNV)
  | .inf neg => if neg then (p.nanCode, flagNV) else (0, 0#32)
  | .fin neg n e =>
    if n = 0 then (p.withSign neg p.topCode, flagDZ)
    else if neg then (p.nanCode, flagNV)
    else
      let l : Int := Nat.log2 n
      let x := l + e
      let even := x % 2 == 0
      let j := shiftBy n (6 - l) % 64
      let out := if even then -(x / 2) - 1 else -((x - 1) / 2) - 1
      (p.magCode (128 + rsqrt7 even j) (out - 7), 0#32)

/-- An operation of single-width elements in a format. -/
def vfOne (p : Fmt) (g : Nat → Nat → Nat → Nat × Word) : Option VOp := some ⟨p.k, p.k, p.k, false, false, fun x y d _ => g x y d⟩
def vfCmp (p : Fmt) (g : FVal → FVal → Bool × Word) : Option VOp :=
  some ⟨1, p.k, p.k, true, false, fun x y _ _ => let c := g (p.decode x) (p.decode y); (boolNat c.1, c.2)⟩
/-- A fused operation: the factors and the addend, and the signs of the product and of the addend. -/
def vfFma (p : Fmt) (m : RMode) (a b c : Nat) (np nc : Bool) : Nat × Word :=
  let x := p.decode a
  let z := p.decode c
  p.fma m (if np then x.negate else x) (p.decode b) (if nc then z.negate else z)

/-- The floating-point operations of OPFVV and OPFVF that go element by element, by funct6, in a format. -/
def vopFloat (f6 : Nat) (p : Fmt) (m : RMode) (scalar vm : Bool) : Option VOp :=
  let only (o : Option VOp) : Option VOp := if scalar then o else none
  let v := p.decode
  let wider : Fmt := fmtF64
  let wide (w2 : Nat) (g : FVal → FVal → FVal → Nat × Word) : Option VOp :=
    if p.k = 32 then some ⟨64, w2, 32, false, false, fun x y d _ => g ((if w2 = 64 then wider else p).decode x) (v y) (wider.decode d)⟩ else none
  match f6 with
  | 0x00 => vfOne p fun x y _ => p.add m (v x) (v y)
  | 0x02 => vfOne p fun x y _ => p.add m (v x) (v y).negate
  | 0x04 => vfOne p fun x y _ => p.minmax false x y (v x) (v y)
  | 0x06 => vfOne p fun x y _ => p.minmax true x y (v x) (v y)
  | 0x08 => vfOne p fun x y _ => ((rvSign p 0 x y).getD 0, 0#32)
  | 0x09 => vfOne p fun x y _ => ((rvSign p 1 x y).getD 0, 0#32)
  | 0x0A => vfOne p fun x y _ => ((rvSign p 2 x y).getD 0, 0#32)
  | 0x17 => only (if vm then vplain p.k (fun _ y => y) else vmerge p.k)
  | 0x18 => vfCmp p fun x y => rvCompare 2 true x y
  | 0x19 => vfCmp p fun x y => rvCompare 0 false x y
  | 0x1B => vfCmp p fun x y => rvCompare 1 false x y
  | 0x1C => vfCmp p fun x y => let c := rvCompare 2 true x y; (!c.1, c.2)
  | 0x1D => only (vfCmp p fun x y => rvCompare 1 false y x)
  | 0x1F => only (vfCmp p fun x y => rvCompare 0 false y x)
  | 0x20 => vfOne p fun x y _ => p.div m (v x) (v y)
  | 0x21 => only (vfOne p fun x y _ => p.div m (v y) (v x))
  | 0x24 => vfOne p fun x y _ => p.mul m (v x) (v y)
  | 0x27 => only (vfOne p fun x y _ => p.add m (v y) (v x).negate)
  | 0x28 => vfOne p fun x y d => vfFma p m y d x false false
  | 0x29 => vfOne p fun x y d => vfFma p m y d x true true
  | 0x2A => vfOne p fun x y d => vfFma p m y d x false true
  | 0x2B => vfOne p fun x y d => vfFma p m y d x true false
  | 0x2C => vfOne p fun x y d => vfFma p m y x d false false
  | 0x2D => vfOne p fun x y d => vfFma p m y x d true true
  | 0x2E => vfOne p fun x y d => vfFma p m y x d false true
  | 0x2F => vfOne p fun x y d => vfFma p m y x d true false
  | 0x30 => wide 32 fun x y _ => wider.add m x y
  | 0x32 => wide 32 fun x y _ => wider.add m x y.negate
  | 0x34 => wide 64 fun x y _ => wider.add m x y
  | 0x36 => wide 64 fun x y _ => wider.add m x y.negate
  | 0x38 => wide 32 fun x y _ => wider.mul m x y
  | 0x3C => wide 32 fun x y d => wider.fma m x y d
  | 0x3D => wide 32 fun x y d => wider.fma m x.negate y d.negate
  | 0x3E => wide 32 fun x y d => wider.fma m x y d.negate
  | 0x3F => wide 32 fun x y d => wider.fma m x.negate y d
  | _ => none

/-- A conversion rounded to odd: an inexact value's significand ends in a one. -/
def vrod (p : Fmt) (v : FVal) : Nat × Word :=
  let z := p.conv .rtz false v
  (if z.2.getLsbD 0 && !v.isNan then z.1 ||| 1 else z.1, z.2)

/-- VFUNARY0: the conversions, by the first source's number and the element width. -/
def vopCvt (n w : Nat) (m : RMode) : Option VOp :=
  let toI (wd ws : Nat) (signed : Bool) (m : RMode) : Option VOp := (vfmt ws).map fun p =>
    ⟨wd, ws, w, false, false, fun x _ _ _ => let r := rvToInt wd signed m (p.decode x); (unsgn wd r.1, r.2)⟩
  let toF (wd ws : Nat) (signed : Bool) : Option VOp := (vfmt wd).map fun p =>
    ⟨wd, ws, w, false, false, fun x _ _ _ => p.conv m false (.ofInt (if signed then sgn ws x else x))⟩
  let ff (wd ws : Nat) (g : Fmt → FVal → Nat × Word) : Option VOp :=
    let fmt (w : Nat) : Option Fmt := if w = 16 then some fmtF16 else vfmt w
    match fmt wd, fmt ws with
    | some p, some q => some ⟨wd, ws, w, false, false, fun x _ _ _ => g p (q.decode x)⟩
    | _, _ => none
  match n with
  | 0x00 => toI w w false m
  | 0x01 => toI w w true m
  | 0x02 => toF w w false
  | 0x03 => toF w w true
  | 0x06 => toI w w false .rtz
  | 0x07 => toI w w true .rtz
  | 0x08 => if w < 64 then toI (2 * w) w false m else none
  | 0x09 => if w < 64 then toI (2 * w) w true m else none
  | 0x0A => if w < 64 then toF (2 * w) w false else none
  | 0x0B => if w < 64 then toF (2 * w) w true else none
  | 0x0C => if w < 64 then ff (2 * w) w fun p v => p.conv m false v else none
  | 0x0E => if w < 64 then toI (2 * w) w false .rtz else none
  | 0x0F => if w < 64 then toI (2 * w) w true .rtz else none
  | 0x10 => if w < 64 then toI w (2 * w) false m else none
  | 0x11 => if w < 64 then toI w (2 * w) true m else none
  | 0x12 => if w < 64 then toF w (2 * w) false else none
  | 0x13 => if w < 64 then toF w (2 * w) true else none
  | 0x14 => if w < 64 then ff w (2 * w) fun p v => p.conv m false v else none
  | 0x15 => if w = 32 then ff w (2 * w) vrod else none
  | 0x16 => if w < 64 then toI w (2 * w) false .rtz else none
  | 0x17 => if w < 64 then toI w (2 * w) true .rtz else none
  | _ => none

/-- VFUNARY1: the square root, the estimates and the class. -/
def vopFone (n : Nat) (p : Fmt) (m : RMode) : Option VOp :=
  match n with
  | 0x00 => vfOne p fun x _ _ => p.sqrt m (p.decode x)
  | 0x04 => vfOne p fun x _ _ => vfrsqrt7 p x
  | 0x05 => vfOne p fun x _ _ => vfrec7 p m x
  | 0x10 => vfOne p fun x _ _ => (rvClass p x, 0#32)
  | _ => none

/-! ### Execution of element operations -/

/-- A word's fields. -/
def vvd (w : Word) : Nat := (rvRd w).toNat
def vvs1 (w : Word) : Nat := (rvRs1 w).toNat
def vvs2 (w : Word) : Nat := (rvRs2 w).toNat
def vf6 (w : Word) : Nat := (w.extractLsb' 26 6).toNat
def vvm (w : Word) : Bool := w.getLsbD 25

/-- Whether the groups of an element operation may stand where they do; without a vector as the first source only two count. -/
def Hart.vfits (h : Hart) (o : VOp) (w : Word) (vector : Bool) : Bool :=
  let d := vvd w
  let grp (k n : Nat) : Bool := k == 1 || h.vgroup k n
  grp o.wd d && grp o.w2 (vvs2 w) && (!vector || grp o.w1 (vvs1 w))
    && h.voverlap o.wd d o.w2 (vvs2 w) && (!vector || h.voverlap o.wd d o.w1 (vvs1 w))
    && (o.mask || d != 0 || (vvm w && !(o.carry && !vvm w)))

/-- An element operation performed: y gives the first source's elements. -/
def Hart.vmap (h : Hart) (o : VOp) (w : Word) (y : Nat → Nat) : Hart × Word :=
  (h.vbody (vvm w || o.carry)).foldl (fun q i =>
    let r := o.f (h.velem o.w2 (vvs2 w) i) (y i) (if o.mask then 0 else h.velem o.wd (vvd w) i) (h.vbit 0 i)
    (q.1.setVelem o.wd (vvd w) i r.1, q.2 ||| r.2)) (h, 0#32)

/-- An element operation with a vector or with a scalar as its first source, when there is such an operation and its groups fit. -/
def State.rvElems (s : State) (r : RvAt) (w : Word) (o : Option VOp) (scalar : Option Nat) : State :=
  let h := s.hartOf r.hart
  match o with
  | none => r.illegal s
  | some o =>
    if !h.vfits o w scalar.isNone then r.illegal s
    else
      let q := h.vmap o w fun i => match scalar with
        | some y => y
        | none => h.velem o.w1 (vvs1 w) i
      r.vgives s q.1 q.2

/-! ### Moves over the elements: slides, gathers and compression -/

/-- A new value for each element of the body, none where it keeps what it holds. -/
def Hart.vplace (h : Hart) (w : Word) (f : Nat → Option Nat) : Hart :=
  let k := vtypeSew h.vtype
  (h.vbody (vvm w)).foldl (fun t i => (f i).elim t fun v => t.setVelem k (vvd w) i v) h

/-- Whether a move may stand: the destination's group and the source's, apart from each other and from the mask. -/
def Hart.vmoves (h : Hart) (w : Word) (apart : Bool) : Bool :=
  let k := vtypeSew h.vtype
  h.vgroup k (vvd w) && h.vgroup k (vvs2 w) && (vvm w || vvd w != 0) && (!apart || vvd w != vvs2 w)

def State.rvMoves (s : State) (r : RvAt) (w : Word) (ok : Bool) (f : Hart → Nat → Option Nat) : State :=
  let h := s.hartOf r.hart
  if ok then r.vgives s (h.vplace w (f h)) 0#32 else r.illegal s

/-- A gather: the second source's element of an index, 0 beyond the group. -/
def Hart.vpick (h : Hart) (w : Word) (n : Nat) : Nat :=
  if n < vtypeMax h.vtype then h.velem (vtypeSew h.vtype) (vvs2 w) n else 0

/-- VSLIDEUP and VSLIDEDOWN by an offset. -/
def State.rvSlide (s : State) (r : RvAt) (w : Word) (up : Bool) (off : Nat) : State :=
  s.rvMoves r w ((s.hartOf r.hart).vmoves w up) fun h i =>
    if up then (if off ≤ i then some (h.velem (vtypeSew h.vtype) (vvs2 w) (i - off)) else none) else some (h.vpick w (i + off))

/-- VSLIDE1UP and VSLIDE1DOWN with a scalar. -/
def State.rvSlide1 (s : State) (r : RvAt) (w : Word) (up : Bool) (x : Nat) : State :=
  s.rvMoves r w ((s.hartOf r.hart).vmoves w up) fun h i =>
    if up then some (if i = 0 then x else h.velem (vtypeSew h.vtype) (vvs2 w) (i - 1))
    else some (if i + 1 = h.vl then x else h.vpick w (i + 1))

/-- VCOMPRESS: the elements that the first source's mask names, in order. -/
def State.rvCompress (s : State) (r : RvAt) (w : Word) : State :=
  let h := s.hartOf r.hart
  let k := vtypeSew h.vtype
  let ok := vvm w && h.vstart == 0 && h.vmoves w true && h.voverlap k (vvd w) 1 (vvs1 w)
  let named := (List.range h.vl).filter fun i => h.vbit (vvs1 w) i
  if ok then r.vgives s (named.zipIdx.foldl (fun t p => t.setVelem k (vvd w) p.2 (h.velem k (vvs2 w) p.1)) h) 0#32 else r.illegal s

/-! ### Reductions and masks -/

/-- A reduction over the active elements from element 0 of the first source; the accumulator has a width of its own. -/
def State.rvReduce (s : State) (r : RvAt) (w : Word) (wa : Nat) (f : Nat → Nat → Nat × Word) : State :=
  let h := s.hartOf r.hart
  let k := vtypeSew h.vtype
  if h.vstart ≠ 0 ∨ !h.vgroup k (vvs2 w) ∨ 64 < wa then r.illegal s
  else if h.vl = 0 then r.vgives s h 0#32
  else
    let q := (h.vbody (vvm w)).foldl (fun a i => let v := f a.1 (h.velem k (vvs2 w) i); (v.1, a.2 ||| v.2)) (h.velem wa (vvs1 w) 0, 0#32)
    r.vgives s (h.setVelem wa (vvd w) 0 q.1) q.2

/-- The integer reductions by funct6. -/
def vreduce (f6 k : Nat) (a x : Nat) : Nat × Word :=
  let s (x : Nat) : Int := sgn k x
  (match f6 with
    | 0 => a + x
    | 1 => a &&& x
    | 2 => a ||| x
    | 3 => a ^^^ x
    | 4 => min a x
    | 5 => if s a ≤ s x then a else x
    | 6 => max a x
    | _ => if s x ≤ s a then a else x, 0#32)

/-- The operations on masks by funct6 (0x18 to 0x1F), bit by bit. -/
def vmaskOp (f6 : Nat) (x y : Bool) : Bool :=
  match f6 with
  | 0x18 => x && !y
  | 0x19 => x && y
  | 0x1A => x || y
  | 0x1B => x != y
  | 0x1C => x || !y
  | 0x1D => !(x && y)
  | 0x1E => !(x || y)
  | _ => x == y

def State.rvMask (s : State) (r : RvAt) (w : Word) : State :=
  let h := s.hartOf r.hart
  if !vvm w then r.illegal s
  else r.vgives s ((h.vbody true).foldl (fun t i => t.setVbit (vvd w) i (vmaskOp (vf6 w) (h.vbit (vvs2 w) i) (h.vbit (vvs1 w) i))) h) 0#32

/-- VMUNARY0: the first set bit's place as masks, and the two that number elements. -/
def State.rvMaskUnary (s : State) (r : RvAt) (w : Word) : State :=
  let h := s.hartOf r.hart
  let k := vtypeSew h.vtype
  let set := (h.vbody (vvm w)).filter fun i => h.vbit (vvs2 w) i
  let first := set.head?.getD h.vl
  let bits (f : Nat → Bool) : State :=
    if h.vstart ≠ 0 ∨ vvd w = vvs2 w ∨ (!vvm w ∧ vvd w = 0) then r.illegal s
    else r.vgives s ((h.vbody (vvm w)).foldl (fun t i => t.setVbit (vvd w) i (f i)) h) 0#32
  match vvs1 w with
  | 1 => bits fun i => decide (i < first)
  | 2 => bits fun i => i == first
  | 3 => bits fun i => decide (i ≤ first)
  | 16 =>
    if h.vstart ≠ 0 ∨ !h.vgroup k (vvd w) ∨ !h.voverlap k (vvd w) 1 (vvs2 w) ∨ (!vvm w ∧ vvd w = 0) then r.illegal s
    else r.vgives s (h.vplace w fun i => some (set.filter fun j => decide (j < i)).length) 0#32
  | 17 =>
    if vvs2 w ≠ 0 ∨ !h.vgroup k (vvd w) ∨ (!vvm w ∧ vvd w = 0) then r.illegal s
    else r.vgives s (h.vplace w some) 0#32
  | _ => r.illegal s

/-- VWXUNARY0: element 0, the number of set bits and the first set bit in rd. -/
def State.rvToScalar (s : State) (r : RvAt) (w : Word) : State :=
  let h := s.hartOf r.hart
  let k := vtypeSew h.vtype
  let set := (h.vbody (vvm w)).filter fun i => h.vbit (vvs2 w) i
  let give (v : DWord) : State := s.modHart r.hart fun h => ((h.vdone 0#32).setReg (rvRd w) v).retire r.len
  match vvs1 w with
  | 0 => if vvm w then give (BitVec.ofInt 64 (sgn k (h.velem k (vvs2 w) 0))) else r.illegal s
  | 16 => if h.vstart = 0 then give (BitVec.ofNat 64 set.length) else r.illegal s
  | 17 => if h.vstart = 0 then give ((set.head?.map (BitVec.ofNat 64)).getD (BitVec.ofInt 64 (-1))) else r.illegal s
  | _ => r.illegal s

/-- A scalar into element 0, when the body has elements. -/
def State.rvFromScalar (s : State) (r : RvAt) (w : Word) (x : Nat) : State :=
  let h := s.hartOf r.hart
  if !vvm w ∨ vvs2 w ≠ 0 then r.illegal s
  else r.vgives s (if h.vstart < h.vl then h.setVelem (vtypeSew h.vtype) (vvd w) 0 x else h) 0#32

/-- VMV1R to VMV8R: whole registers. -/
def State.rvMoveWhole (s : State) (r : RvAt) (w : Word) : State :=
  let h := s.hartOf r.hart
  let n := vvs1 w + 1
  if !vvm w ∨ (n ≠ 1 ∧ n ≠ 2 ∧ n ≠ 4 ∧ n ≠ 8) ∨ vvd w % n ≠ 0 ∨ vvs2 w % n ≠ 0 then r.illegal s
  else
    let first := h.vstart * vtypeSew h.vtype / 64
    let t := (List.range (4 * n)).foldl (fun t i => if first ≤ i then t.setVelem 64 (vvd w) i (h.velem 64 (vvs2 w) i) else t) h
    r.vgives s t 0#32

/-! ### The categories of OP-V -/

/-- OPIVV, OPIVX and OPIVI. -/
def State.rvOpi (s : State) (r : RvAt) (w : Word) : State :=
  let h := s.hartOf r.hart
  let k := vtypeSew h.vtype
  let f6 := vf6 w
  let f3 := rvF3 w
  let rm := fieldOf (h.csrOf 0x00F) 1 2
  let unsigned := [0x0C, 0x0E, 0x0F, 0x14, 0x15, 0x25, 0x28, 0x29, 0x2A, 0x2B, 0x2C, 0x2D, 0x2E, 0x2F, 0x35].contains f6
  let imm : Nat := if unsigned then vvs1 w else ((rvRs1 w).signExtend 64).toNat
  let x : Option Nat := if f3 = 0 then none else some (if f3 = 3 then imm else (h.reg (rvRs1 w)).toNat)
  let v := (x.getD 0)
  if f3 = 0 ∧ f6 = 0x0C then
    s.rvMoves r w (h.vmoves w true && h.vgroup k (vvs1 w) && vvd w != vvs1 w) fun h i => some (h.vpick w (h.velem k (vvs1 w) i))
  else if f3 = 0 ∧ f6 = 0x0E then
    s.rvMoves r w (h.vmoves w true && h.vgroup 16 (vvs1 w) && (k == 16 || h.voverlap k (vvd w) 16 (vvs1 w)) && vvd w != vvs1 w)
      fun h i => some (h.vpick w (h.velem 16 (vvs1 w) i))
  else if f6 = 0x0C then s.rvMoves r w (h.vmoves w true) fun h _ => some (h.vpick w v)
  else if f3 ≠ 0 ∧ f6 = 0x0E then s.rvSlide r w true v
  else if f3 ≠ 0 ∧ f6 = 0x0F then s.rvSlide r w false v
  else if f3 = 3 ∧ f6 = 0x27 then s.rvMoveWhole r w
  else if f3 = 0 ∧ (f6 = 0x30 ∨ f6 = 0x31) then
    s.rvReduce r w (2 * k) fun a y => ((if f6 = 0x31 then unsgn (2 * k) (sgn (2 * k) a + sgn k y) else a + y), 0#32)
  else
    let forms := vopIntForms f6
    let has := if f3 = 0 then forms.1 else if f3 = 4 then forms.2.1 else forms.2.2
    let clean := f6 ≠ 0x17 ∨ !vvm w ∨ vvs2 w = 0
    if has && clean then s.rvElems r w (vopInt f6 k rm (vvm w) (f3 == 3)) (x.map fun x => if f6 = 0x14 ∨ f6 = 0x15 then x else x % 2 ^ k)
    else r.illegal s

/-- OPMVV and OPMVX. -/
def State.rvOpm (s : State) (r : RvAt) (w : Word) : State :=
  let h := s.hartOf r.hart
  let k := vtypeSew h.vtype
  let f6 := vf6 w
  let scalar := rvF3 w == 6
  let x := (h.reg (rvRs1 w)).toNat % 2 ^ k
  if !scalar && decide (f6 < 8) then s.rvReduce r w k (vreduce f6 k)
  else if scalar && (f6 == 0x0E || f6 == 0x0F) then s.rvSlide1 r w (f6 == 0x0E) x
  else if f6 = 0x10 then (if scalar then s.rvFromScalar r w x else s.rvToScalar r w)
  else if !scalar && f6 == 0x12 then s.rvElems r w (vopUnary (vvs1 w) k) (some 0)
  else if !scalar && f6 == 0x14 then s.rvMaskUnary r w
  else if !scalar && f6 == 0x17 then s.rvCompress r w
  else if !scalar && decide (0x18 ≤ f6 ∧ f6 ≤ 0x1F) then s.rvMask r w
  else s.rvElems r w (vopMul f6 k (fieldOf (h.csrOf 0x00F) 1 2) scalar) (if scalar then some x else none)

/-- The floating-point reductions: sums in the order of the elements, and the least and greatest; the widening sums accumulate in double. -/
def State.rvReduceF (s : State) (r : RvAt) (w : Word) (p : Fmt) (m : RMode) : State :=
  let q := fmtF64
  match vf6 w with
  | 0x01 | 0x03 => s.rvReduce r w p.k fun a x => p.add m (p.decode a) (p.decode x)
  | 0x05 => s.rvReduce r w p.k fun a x => p.minmax false a x (p.decode a) (p.decode x)
  | 0x07 => s.rvReduce r w p.k fun a x => p.minmax true a x (p.decode a) (p.decode x)
  | _ => if p.k = 32 then s.rvReduce r w 64 fun a x => q.add m (q.decode a) (p.decode x) else r.illegal s

/-- OPFVV and OPFVF. Only conversions between half and single take elements of 16 bits (Zvfhmin). -/
def State.rvOpf (s : State) (r : RvAt) (w : Word) : State :=
  let h := s.hartOf r.hart
  let k := vtypeSew h.vtype
  let f6 := vf6 w
  let scalar := rvF3 w == 5
  if !h.stateOn 13 then r.illegal s
  else match rvModeOf (fieldOf (h.csrOf 0x003) 5 3) with
  | none => r.illegal s
  | some m =>
    if !scalar && f6 == 0x12 then
      let ok := k != 16 || vvs1 w == 0x0C || vvs1 w == 0x14 || (8 ≤ vvs1 w && vvs1 w != 0x15)
      if ok then s.rvElems r w (vopCvt (vvs1 w) k m) (some 0) else r.illegal s
    else match vfmt k with
      | none => r.illegal s
      | some p =>
        let x := h.freg p (rvRs1 w)
        if !scalar && [0x01, 0x03, 0x05, 0x07, 0x31, 0x33].contains f6 then s.rvReduceF r w p m
        else if scalar && (f6 == 0x0E || f6 == 0x0F) then s.rvSlide1 r w (f6 == 0x0E) x
        else if f6 = 0x10 then
          if scalar then s.rvFromScalar r w x
          else if vvm w && vvs1 w == 0 then
            s.modHart r.hart fun h => ((h.vdone 0#32).setFreg p (rvRd w) (h.velem k (vvs2 w) 0)).retire r.len
          else r.illegal s
        else if !scalar && f6 == 0x13 then s.rvElems r w (vopFone (vvs1 w) p m) (some 0)
        else if scalar && f6 == 0x17 && vvm w && vvs2 w != 0 then r.illegal s
        else s.rvElems r w (vopFloat f6 p m scalar (vvm w)) (if scalar then some x else none)

/-- OP-V: the configuration, and the three kinds of operands. -/
def State.rvOpv (s : State) (r : RvAt) (w : Word) : State :=
  let h := s.hartOf r.hart
  if !h.stateOn 9 then r.illegal s
  else if rvF3 w = 7 then s.rvVset r w
  else if h.vtype.getLsbD 63 then r.illegal s
  else match rvF3 w with
    | 0 | 3 | 4 => s.rvOpi r w
    | 2 | 6 => s.rvOpm r w
    | _ => s.rvOpf r w

/-! ### Loads and stores -/

/-- What a vector load or store moves: for each element from vstart its number and the addresses of its fields, the width of an element in
memory, and the registers that the field's groups are apart. -/
structure VMem where
  items  : List (Nat × List DWord)
  width  : Nat
  stride : Nat
  total  : Nat
  deriving DecidableEq, Repr

/-- The width of an element by funct3. -/
def vmemWidth (f3 : Nat) : Option Nat := match f3 with
  | 0 => some 8
  | 5 => some 16
  | 6 => some 32
  | 7 => some 64
  | _ => none

/-- The form of a vector load or store, none where it is reserved: a unit-stride one of elements, whole registers or a mask, a strided one,
or an indexed one, whose funct3 is the width of its indices. -/
def Hart.vmem (h : Hart) (w : Word) (k : HartKind) : Option VMem :=
  let mop := (w.extractLsb' 26 2).toNat
  let nf := (w.extractLsb' 29 3).toNat + 1
  let base := h.reg (rvRs1 w)
  let sew := vtypeSew h.vtype
  let lum := vvs2 w
  let ill := h.vtype.getLsbD 63
  let at_ (a : DWord) : DWord := h.effective k a
  match vmemWidth (rvF3 w) with
  | none => none
  | some e =>
    let indexed := mop % 2 == 1
    let width := if indexed then sew else e
    let bytes := width / 8
    let emul := vtypeLmul h.vtype * width / sew
    let regs := max 1 (emul / 8)
    let elems (place : Nat → DWord) : Option VMem :=
      some ⟨(h.vbody (vvm w)).map fun i => (i, (List.range nf).map fun f => at_ (place i + BitVec.ofNat 64 (f * bytes))), width, regs, h.vl⟩
    let fits := !ill && decide (1 ≤ emul ∧ emul ≤ 64 ∧ emul * nf ≤ 64 ∧ vvd w % regs = 0 ∧ vvd w + regs * nf ≤ 32)
      && (k == .store || vvm w || vvd w != 0)
    if w.getLsbD 28 then none
    else if mop = 0 ∧ lum = 8 then
      if !vvm w ∨ (nf ≠ 1 ∧ nf ≠ 2 ∧ nf ≠ 4 ∧ nf ≠ 8) ∨ vvd w % nf ≠ 0 ∨ (k = .store ∧ e ≠ 8) then none
      else
        let n := nf * vlen / e
        some ⟨((List.range n).filter (h.vstart ≤ ·)).map fun i => (i, [at_ (base + BitVec.ofNat 64 (i * (e / 8)))]), e, nf, n⟩
    else if mop = 0 ∧ lum = 11 then
      let n := (h.vl + 7) / 8
      if !vvm w ∨ nf ≠ 1 ∨ e ≠ 8 ∨ ill then none
      else some ⟨((List.range n).filter (h.vstart ≤ ·)).map fun i => (i, [at_ (base + BitVec.ofNat 64 i)]), 8, 1, n⟩
    else if !fits then none
    else if mop = 0 then
      if lum = 0 ∨ (lum = 16 ∧ k ≠ .store) then elems fun i => base + BitVec.ofNat 64 (i * nf * bytes) else none
    else if mop = 2 then elems fun i => base + BitVec.ofNat 64 i * h.reg (rvRs2 w)
    else if !h.vgroup e (vvs2 w) ∨ (k ≠ .store ∧ nf ≠ 1 ∧ vvd w < vvs2 w + h.vregs e ∧ vvs2 w < vvd w + regs * nf)
        ∨ (k ≠ .store ∧ !h.voverlap sew (vvd w) e (vvs2 w)) then none
    else elems fun i => base + BitVec.ofNat 64 (h.velem e (vvs2 w) i)

/-- The fields of the elements in their order, each with its element, its group's register, and its address. -/
def VMem.steps (m : VMem) (vd : Nat) : List (Nat × Nat × DWord) :=
  m.items.flatMap fun p => p.2.zipIdx.map fun a => (p.1, vd + a.2 * m.stride, a.1)

/-- vstart names the element that is under way, from which the instruction goes on when it is executed again. -/
def State.vat (s : State) (r : HartRef) (i : Nat) : State := s.modHart r fun h => h.setCsr 0x008 (BitVec.ofNat 64 i)

/-- Loads in order, each into its element. -/
def State.rvLoadSteps (s : State) (r : RvAt) (width : Nat) : List (Nat × Nat × DWord) → State
  | [] => s.modHart r.hart fun h => (h.vdone 0#32).retire r.len
  | (i, base, a) :: rest =>
    (s.vat r.hart i).hartRead r.hart r.part .load a (width / 8) fun v s =>
      (s.modHart r.hart fun h => h.setVelem width base i v.toNat).rvLoadSteps r width rest

/-- Stores in order. -/
def State.rvStoreSteps (s : State) (r : RvAt) (width : Nat) : List (Nat × Nat × DWord) → State
  | [] => s.modHart r.hart fun h => (h.vdone 0#32).retire r.len
  | (i, base, a) :: rest =>
    (s.vat r.hart i).hartPut r.hart r.part .store a (width / 8) (BitVec.ofNat 64 ((s.hartOf r.hart).velem width base i))
      false fun s => s.rvStoreSteps r width rest

/-- The steps of a fault-only-first load up to the first element, after element 0, whose access would end in an exception. -/
def State.vuntil (s : State) (r : RvAt) (width : Nat) (l : List (Nat × Nat × DWord)) : Option Nat :=
  (l.find? fun p => p.1 != 0 && match s.hartPlaces r.hart r.part .load .fetch none (hartPieces p.2.2 (width / 8)) [] with
    | .trap _ => true
    | _ => false).map fun p => p.1

/-- A vector load or store; none for a floating-point one. -/
def State.rvVmem (s : State) (r : RvAt) (w : Word) (store : Bool) : Option State :=
  let h := s.hartOf r.hart
  if (vmemWidth (rvF3 w)).isNone then none
  else if !h.stateOn 9 then some (r.illegal s)
  else match h.vmem w (if store then .store else .load) with
    | none => some (r.illegal s)
    | some m =>
      let l := m.steps (vvd w)
      if store then some (s.rvStoreSteps r m.width l)
      else if (w.extractLsb' 26 2 == 0#2) && vvs2 w == 16 then
        match s.vuntil r m.width l with
        | none => some (s.rvLoadSteps r m.width l)
        | some n =>
          let l := l.filter fun p => decide (p.1 < n)
          some ((s.modHart r.hart fun h => h.setCsr 0xC20 (BitVec.ofNat 64 n)).rvLoadSteps r m.width l)
      else some (s.rvLoadSteps r m.width l)

/-- The vector instructions by their major opcode; none for another. -/
def State.rvVector (s : State) (r : RvAt) (w : Word) : Option State :=
  match (w.extractLsb' 0 7).toNat with
  | 0x07 => s.rvVmem r w false
  | 0x27 => s.rvVmem r w true
  | 0x57 => some (s.rvOpv r w)
  | _ => none

end Sys2Proof.Machine
end

