-- ==== Sys2Proof/Machine/HartRun.lean ====
section
/-!
DEFINITION. One instruction of a hart's base (R9, R393: RVA23 with the hypervisor extension): the compressed instructions as the words
they stand for (C, Zcb and Zcmop; PRESUMED: notes/assumptions), and the choice among the integer, floating-point and vector ones.
-/

namespace Sys2Proof.Machine

/-! ### Compressed instructions -/

/-- The formats of a word, from their fields. -/
def encR (op f3 f7 rd rs1 rs2 : Nat) : Word :=
  BitVec.ofNat 32 (op + rd % 32 * 2 ^ 7 + f3 * 2 ^ 12 + rs1 % 32 * 2 ^ 15 + rs2 % 32 * 2 ^ 20 + f7 * 2 ^ 25)
def encI (op f3 rd rs1 : Nat) (imm : Int) : Word :=
  BitVec.ofNat 32 (op + rd % 32 * 2 ^ 7 + f3 * 2 ^ 12 + rs1 % 32 * 2 ^ 15 + (imm % 2 ^ 12).toNat * 2 ^ 20)
def encS (op f3 rs1 rs2 imm : Nat) : Word :=
  BitVec.ofNat 32 (op + imm % 32 * 2 ^ 7 + f3 * 2 ^ 12 + rs1 % 32 * 2 ^ 15 + rs2 % 32 * 2 ^ 20 + imm / 32 % 128 * 2 ^ 25)
def encB (f3 rs1 : Nat) (imm : Int) : Word :=
  let n := (imm % 2 ^ 13).toNat
  BitVec.ofNat 32 (0x63 + n / 2 ^ 11 % 2 * 2 ^ 7 + n / 2 % 16 * 2 ^ 8 + f3 * 2 ^ 12 + rs1 % 32 * 2 ^ 15 + n / 32 % 64 * 2 ^ 25 + n / 2 ^ 12 * 2 ^ 31)
def encJ (rd : Nat) (imm : Int) : Word :=
  let n := (imm % 2 ^ 21).toNat
  BitVec.ofNat 32 (0x6F + rd * 2 ^ 7 + n / 2 ^ 12 % 256 * 2 ^ 12 + n / 2 ^ 11 % 2 * 2 ^ 20 + n / 2 % 1024 * 2 ^ 21 + n / 2 ^ 20 * 2 ^ 31)

/-- A field of the two bytes, and one put at a place of an immediate. -/
def cField (c lo n : Nat) : Nat := c / 2 ^ lo % 2 ^ n
def cBits (c : Nat) (l : List (Nat × Nat × Nat)) : Nat := (l.map fun p => cField c p.1 p.2.1 * 2 ^ p.2.2).sum
/-- The immediate of bits 12 and 6 to 2, with its sign. -/
def cImm (c : Nat) : Int := (cField c 2 5 : Int) - 32 * cField c 12 1

/-- Quadrant 0: loads and stores of the eight registers from x8, and an address from the stack pointer. -/
def expand0 (c : Nat) : Option Word :=
  let rd := 8 + cField c 2 3
  let rs := 8 + cField c 7 3
  let dbl := cBits c [(10, 3, 3), (5, 2, 6)]
  let wrd := cBits c [(10, 3, 3), (6, 1, 2), (5, 1, 6)]
  match cField c 13 3 with
  | 0 =>
    let n := cBits c [(11, 2, 4), (7, 4, 6), (6, 1, 2), (5, 1, 3)]
    if n = 0 then none else some (encI 0x13 0 rd 2 n)
  | 1 => some (encI 0x07 3 rd rs dbl)
  | 2 => some (encI 0x03 2 rd rs wrd)
  | 3 => some (encI 0x03 3 rd rs dbl)
  | 4 =>
    let byte := cBits c [(6, 1, 0), (5, 1, 1)]
    let half := cField c 5 1 * 2
    match cField c 10 3 with
    | 0 => some (encI 0x03 4 rd rs byte)
    | 1 => some (encI 0x03 (if cField c 6 1 = 0 then 5 else 1) rd rs half)
    | 2 => some (encS 0x23 0 rs rd byte)
    | 3 => if cField c 6 1 = 0 then some (encS 0x23 1 rs rd half) else none
    | _ => none
  | 5 => some (encS 0x27 3 rs rd dbl)
  | 6 => some (encS 0x23 2 rs rd wrd)
  | _ => some (encS 0x23 3 rs rd dbl)

/-- The arithmetic of quadrant 1 on the eight registers from x8. -/
def expandArith (c : Nat) : Option Word :=
  let rd := 8 + cField c 7 3
  let rs := 8 + cField c 2 3
  let shift := cBits c [(2, 5, 0), (12, 1, 5)]
  match cField c 10 2 with
  | 0 => some (encI 0x13 5 rd rd shift)
  | 1 => some (encI 0x13 5 rd rd (shift + 0x400))
  | 2 => some (encI 0x13 7 rd rd (cImm c))
  | _ => match cField c 12 1, cField c 5 2 with
    | 0, 0 => some (encR 0x33 0 0x20 rd rd rs)
    | 0, 1 => some (encR 0x33 4 0 rd rd rs)
    | 0, 2 => some (encR 0x33 6 0 rd rd rs)
    | 0, _ => some (encR 0x33 7 0 rd rd rs)
    | _, 0 => some (encR 0x3B 0 0x20 rd rd rs)
    | _, 1 => some (encR 0x3B 0 0 rd rd rs)
    | _, 2 => some (encR 0x33 0 1 rd rd rs)
    | _, _ => match cField c 2 3 with
      | 0 => some (encI 0x13 7 rd rd 255)
      | 1 => some (encI 0x13 1 rd rd 0x604)
      | 2 => some (encR 0x3B 4 4 rd rd 0)
      | 3 => some (encI 0x13 1 rd rd 0x605)
      | 4 => some (encR 0x3B 0 4 rd rd 0)
      | 5 => some (encI 0x13 4 rd rd (-1))
      | _ => none

/-- Quadrant 1. -/
def expand1 (c : Nat) : Option Word :=
  let rd := cField c 7 5
  let imm := cImm c
  let jump : Int := (cBits c [(3, 3, 1), (11, 1, 4), (2, 1, 5), (7, 1, 6), (6, 1, 7), (9, 2, 8), (8, 1, 10)] : Int) - 2048 * cField c 12 1
  let branch : Int := (cBits c [(3, 2, 1), (10, 2, 3), (2, 1, 5), (5, 2, 6)] : Int) - 256 * cField c 12 1
  match cField c 13 3 with
  | 0 => some (encI 0x13 0 rd rd imm)
  | 1 => if rd = 0 then none else some (encI 0x1B 0 rd rd imm)
  | 2 => some (encI 0x13 0 rd 0 imm)
  | 3 =>
    if imm = 0 then (if rd % 2 = 1 ∧ rd < 16 then some (encI 0x13 0 0 0 0) else none)
    else if rd = 2 then
      some (encI 0x13 0 2 2 ((cBits c [(6, 1, 4), (2, 1, 5), (5, 1, 6), (3, 2, 7)] : Int) - 512 * cField c 12 1))
    else some (BitVec.ofNat 32 (0x37 + rd * 2 ^ 7 + (imm % 2 ^ 20).toNat * 2 ^ 12))
  | 4 => expandArith c
  | 5 => some (encJ 0 jump)
  | 6 => some (encB 0 (8 + cField c 7 3) branch)
  | _ => some (encB 1 (8 + cField c 7 3) branch)

/-- Quadrant 2. -/
def expand2 (c : Nat) : Option Word :=
  let rd := cField c 7 5
  let rs := cField c 2 5
  let dbl := cBits c [(5, 2, 3), (12, 1, 5), (2, 3, 6)]
  let wrd := cBits c [(4, 3, 2), (12, 1, 5), (2, 2, 6)]
  let sdbl := cBits c [(10, 3, 3), (7, 3, 6)]
  match cField c 13 3 with
  | 0 => some (encI 0x13 1 rd rd (cBits c [(2, 5, 0), (12, 1, 5)]))
  | 1 => some (encI 0x07 3 rd 2 dbl)
  | 2 => if rd = 0 then none else some (encI 0x03 2 rd 2 wrd)
  | 3 => if rd = 0 then none else some (encI 0x03 3 rd 2 dbl)
  | 4 =>
    if cField c 12 1 = 0 then
      if rs = 0 then (if rd = 0 then none else some (encI 0x67 0 0 rd 0)) else some (encR 0x33 0 0 rd 0 rs)
    else if rs = 0 then some (if rd = 0 then 0x00100073#32 else encI 0x67 0 1 rd 0)
    else some (encR 0x33 0 0 rd rd rs)
  | 5 => some (encS 0x27 3 2 rs sdbl)
  | 6 => some (encS 0x23 2 2 rs (cBits c [(9, 4, 2), (7, 2, 6)]))
  | _ => some (encS 0x23 3 2 rs sdbl)

/-- The word that a compressed instruction stands for; none for a reserved one. -/
def expandC (c : Nat) : Option Word := match c % 4 with
  | 0 => expand0 c
  | 1 => expand1 c
  | _ => expand2 c

/-! ### One instruction -/

/-- An instruction of the base that a running hart has fetched: its effect, or the illegal-instruction exception with its own bits. -/
def State.runBase (s : State) (h : HartRef) (w : Word) : State :=
  match (s.slice h.slice).part with
  | none => s
  | some part =>
    let short := w.toNat % 4 ≠ 3
    let r : RvAt := ⟨h, part, if short then 2 else 4, w.setWidth 64⟩
    match if short then expandC w.toNat else some w with
    | none => r.illegal s
    | some w => (((s.rvInteger r w).or (s.rvVector r w)).or (s.rvFloat r w)).getD (r.illegal s)

end Sys2Proof.Machine
end

