-- ==== Sys2Proof/Machine/Turn.lean ====
section
/-!
DEFINITION. A turn of the agenda: what it makes the machine do before an instruction or event executes, and after. The
machine's step (Machine/Step.lean) pops one turn, takes it, executes what it asks for and finishes it. The placing of one
instruction where the next step fetches it stands here too.
-/

namespace Sys2Proof.Machine

/-- What taking a turn gives: nothing more to do, or an instruction or event to execute. -/
inductive Taken where
  | done (s : State)
  | run (i : Instr) (s : State)
  deriving DecidableEq, Repr

/-- One tick of a slice's reference clock (R323, R396), with the deadline counters that it brings to their end (R326) and the cores
whose limit without a grant has passed (R380). -/
def State.tickSlice (s : State) (n : Nat) : State :=
  ((s.modSlice n fun x => { x with cyc := x.cyc + 1#64 }).expireDeadlines n).failsafes n

/-- An issue opportunity that finds a ready slot is noted (R387). -/
def State.noteReady (s : State) (core sub : Nat) : State :=
  if (s.readySlots core sub).isEmpty then s
  else s.modCore core fun k => { k with power := { k.power with sawReady := some k.clock } }

/-- One clock of a sub-partition's issue port. -/
def State.takeIssue (s : State) (core sub : Nat) : Taken :=
  match (s.noteReady core sub).issueClock core sub with
  | (s, .nothing) => .done s
  | (s, .issue g) => match s.view g with
    | none => .done s
    | some v =>
      let s := { s with cur := .group g }
      match v.core.fetch v.fib with
      | .word i => .run i s
      | e => .done { s.fetchFault v e with cur := .none }

/-- A context that has given up its next turn (GYIELD 0, R93) and is passed over is ready again. -/
def Core.passTurns (k : Core) (picked : Option Nat) : Core :=
  let order := (List.range Config.contexts).map fun i => (k.genNext + i) % Config.contexts
  let passed := order.takeWhile fun c => some c != picked
  passed.foldl (fun (k : Core) c => k.modTeam c fun t =>
    if t.gen.run = .skipTurn then { t with gen := { t.gen with run := .ready (k.clock + 1) } } else t) k

/-- One clock of a core's generator pipeline, once in each clock (R66). -/
def State.takeGen (s : State) (core : Nat) : Taken :=
  if (s.core core).genDone then .done s
  else
  let picked := s.pickCtx core
  let s := s.modCore core fun k => { k.passTurns picked with genAt := some k.clock }
  match picked with
  | none => .done s
  | some c => match s.team? core c with
    | none => .done s
    | some t =>
      let s := s.modCore core fun k => { k with genNext := (c + 1) % Config.contexts }
      match s.fetchGen ⟨core, c⟩ t with
      | .ok (i, s) => .run i { s with cur := .ctx ⟨core, c⟩ }
      | .error s => .done s

/-- One instruction of a hart: an interrupt that would be taken is taken first; then one of the three instructions that the part adds
runs, a word of their opcode that is none of them raises an illegal-instruction exception (R397), and any other word is of the RISC-V base
(R393). A hart that WFI has stopped goes on once an enabled interrupt is pending. -/
def State.takeHart (s : State) (h : HartRef) : Taken :=
  let x := s.hartOf h
  match x.run with
  | .wfi => .done (if (x.mip &&& x.csrOf 0x304) ≠ 0#64 then s.modHart h fun x => { x with run := .running } else s)
  | .running => match x.interrupt with
    | some i => .done (s.modHart h fun x => x.takeInterrupt i)
    | none => match s.fetchHart h with
      | .error s => .done s
      | .ok w =>
        if w.extractLsb' 0 7 ≠ 0x0B#7 then .done (s.runBase h w)
        else match decodeHartWord w with
          | .ok i => .run i { s with cur := .hart h }
          | .error _ => .done (s.hartTrap h 2 (w.setWidth 64))
  | _ => .done s

/-- As takeHart, a plain store of the instruction being left to perform later (R262). -/
def State.takeHartLater (s : State) (h : HartRef) : Taken :=
  let clear (s : State) : State := s.modHart h fun x => { x with later := false }
  match (s.modHart h fun x => { x with later := true }).takeHart h with
  | .done s => .done (clear s)
  | .run i s => .run i (clear s)

/-- The turn at the head of an agenda is taken. -/
def State.take (s : State) (t : Turn) : Taken :=
  match t with
  | .tick n => .done (s.tickSlice n)
  | .issue c b => s.takeIssue c b
  | .gen c => s.takeGen c
  | .hart h => s.takeHart h
  | .hartLater h => s.takeHartLater h
  | .hartStore h n => .done (s.hartPerform h n)
  | .lane n => .done (s.swapLane n)
  | .event i => .run i { s with cur := .none }

/-- The turn that an empty agenda stands for: Markhor's boot while it has not run or programs fuses (R356, R376), then the passing of a tick of every slice's
reference clock. -/
def State.idleTurns (s : State) : Turn × List Turn :=
  if (s.markhor.booted || s.markhor.failed) && s.markhor.fuseWork.isEmpty then (.tick 0, ((List.range Config.slices).drop 1).map .tick)
  else (.event (.packageBoot []), [])

/-- The next turn and the state whose agenda holds the others. -/
def State.nextTurn (s : State) : Turn × State :=
  match s.agenda with
  | t :: r => (t, { s with agenda := r })
  | [] => let n := s.idleTurns; (n.1, { s with agenda := n.2 })

/-- What follows the execution in a turn: no agent acts. -/
def State.finishTurn (s : State) : State := { s with cur := .none }

/-! ### Placing one instruction -/

/-- Slice 0 in partition 0, whose first region is valid. -/
def State.withPartition (s : State) : State :=
  let s := s.setPart 0 (match s.part? 0 with
    | some p => { p with regions := p.regions.set 0 ⟨0, 0, false, 0, 0, 0⟩ }
    | none => .single)
  s.modSlice 0 fun x => { x with part := some 0 }

/-- A launch descriptor whose tables stand at 0x100000 and whose image stands at 0x10000. -/
def Desc.probe : Desc :=
  { image := 0x10000#64, root := 0x100#64, grid := 1#64, maxgrp := 256, slots := 1, alloc := 1, scratch := 0, nt := 0, nm := 0,
    cluster := 0, cw := 1, ch := 1, prio := 0, sup := true, pin := false, world := 0, pgt := 0#64, cond := 0#64 }

/-- An image header with one generator word and nothing else. -/
def Header.probe : Header :=
  { genOff := 0, genWords := 1, tmplOff := 12, tmplLen := 0, constOff := 12, constLen := 0, dataOff := 12, dataLen := 0,
    entry := 0, windows := [] }

/-- A generator context at its entry, every register zero (R315). -/
def GenCtx.start (entry clock : Nat) (sup : Bool) : GenCtx :=
  { g := .empty, pc := entry, queue := [], opened := none, sup := sup, run := .ready clock, done := 0, busy := false, waitPage := none,
    walkFaults := [], kept := [] }

/-- A team of one slot. -/
def Team.probe (clock : Nat) : Team :=
  { gen := .start 0 clock true, part := 0, launch := 0, desc := .probe, hdr := .probe, arg := 0#64, x := 0, y := 0, z := 0,
    index := 0, clrank := 0, rank := 0, nranks := 1, cluster := none, granules := [], entries := .empty, entryNext := [], bindings := [],
    bars := .empty, cbars := .empty, preq := false, preqNext := none, deadline := none, saving := none, holdIssue := false, ended := false }

/-- A slot of context 0 that holds one fibre, with one unit of the bank. -/
def Slot.probe (f : Fibre) : Slot :=
  { Slot.fresh 0 [0] with fibres := ⟨[(0, f)]⟩ }

/-- A hart word placed at the pc of hart 0 of slice 0, which runs in M-mode. -/
def State.placeHartWord (s : State) (w : Nat) : State :=
  let s := s.withPartition
  let s := s.modHart ⟨0, 0⟩ fun h => { h with run := .running, priv := 3, virt := false, pc := 0#64 }
  { s.writeMem 0 0 (leBytes 4 w) with agenda := [.hart ⟨0, 0⟩] }

/-- A generator word placed as the one word of a team's image, mapped by a 512 GiB page that the core's TLB holds. -/
def State.placeGenWord (s : State) (w : Nat) : State :=
  let s := s.withPartition
  let s := s.writeMem 0 0x100000 (leBytes 8 0x40401)
  let s := s.writeMem 0 0x101000 (leBytes 8 0xD7)
  let s := s.writeMem 0 0x10000 (leBytes 12 w)
  let page : TlbEntry :=
    { asid := 0#12, world := 0, va := 0, size := 39, pa := 0, r := true, w := true, x := false, u := true, a := true, d := true, attr := 0,
      pworld := 0 }
  let s := s.modCore 0 fun k =>
    { k with closing := false, genAt := none, teams := ⟨[(0, .probe k.clock)]⟩, genNext := 0, tlb := [page], genCache := .empty }
  { s with agenda := [.gen 0] }

/-- A group word placed in a sealed block at the pc of the one group of a team, picked for its issue clock. -/
def State.placeGroupWord (s : State) (w : Nat) : State :=
  let s := s.withPartition
  let s := s.writeMem 0 0x100000 (leBytes 8 0x40401)
  let s := s.writeMem 0 0x101000 (leBytes 8 0xD7)
  let s := s.modCore 0 fun k =>
    let t := Team.probe k.clock
    let b : Block := ⟨.sealed, 0, 1, 1, 64, t.owner, true, 0#64, 0, 0⟩
    let f := Fibre.start 0 (k.handleOf 0) 0 true [⟨false, 1, 0, 0⟩] .empty k.clock
    let k := k.modSub 0 fun x => { x with slots := x.slots.set 0 (.probe f), pick := some (0, 0), turnAt := none, busyUntil := 0 }
    let power := { k.power with switching := none }
    { k with closing := false, teams := k.teams.set 0 { t with gen := { t.gen with run := .exited } }, blocks := k.blocks.set 0 b,
             store := k.store.set 0 ⟨BitVec.ofNat 96 w, 0#32⟩, power := power }
  { s with agenda := [.issue 0 0] }

/-- An instruction of a width and bits placed where the very next step fetches it. -/
def State.placeWord (s : State) (nbits w : Nat) : State :=
  if nbits ≤ 32 then s.placeHartWord w
  else
    let op := w / 2 ^ 88 % 256
    if op ≤ 0x1A then s.placeGenWord w else s.placeGroupWord w

end Sys2Proof.Machine
end

