-- ==== Sys2Proof/Machine/Step.lean ====
section
/-!
DEFINITION. One step of the machine: the next turn of the agenda is taken, what it asks for executes, and the turn is
finished. Everything that a test could correct stands in the files this one calls.
-/

namespace Sys2Proof.Machine

/-- One step. -/
def step (s : State) : Host.Outcome State Fault Refusal :=
  let n := s.nextTurn
  match n.2.take n.1 with
  | .done s => .next s
  | .run i s => match exec i s with
    | .next s => .next s.finishTurn
    | .fault r => .fault r
    | .refused r => .refused r

/-- The state with an instruction placed where the very next step fetches and runs it. -/
def State.withFetchWord (s : State) (nbits w : Nat) : State := s.placeWord nbits w

end Sys2Proof.Machine
end

