-- ==== Sys2Proof/Safety.lean ====
section
/-!
DEFINITION. What counts as a safe state, and the terms in which the claims speak: a group, a generator context or a hart that
acts, what stays the same, and the elements of a register as the specification numbers them.
-/

namespace Sys2Proof.Machine

/-- The home banks' bytes are in canonical form. -/
def State.Sound (s : State) : Prop := Memory.wf s.mem = true

/-- The group of v holds the turn, the window check of R33 passes for every register that the word names, and the word's sources
read as ls, with the flags fl of the conversions of R46. -/
def Reads (s : State) (v : View) (i : Instr) (f : Fields) (srcs : List Src) (ls : List Lanes) (fl : Word) : Prop :=
  s.curView = some v ∧ v.fib.windowsOk (instrNamed i) = true ∧ s.readSrcs v (v.active f.guard) srcs = some (ls, fl)

/-- The generator context c holds the turn and its team is t. -/
def ActsCtx (s : State) (c : CtxRef) (t : Team) : Prop := s.cur = .ctx c ∧ s.team? c.core c.ctx = some t

/-- Nothing of the state outside one core has changed: the home banks, the lines' metadata, the cells, every slice, every
partition, Markhor and every other core. -/
def SameOutsideCore (s t : State) (c : Nat) : Prop :=
  t.mem = s.mem ∧ t.lines = s.lines ∧ t.pins = s.pins ∧ t.cells = s.cells ∧ t.slices = s.slices ∧ t.parts = s.parts
    ∧ t.markhor = s.markhor ∧ t.bodies = s.bodies ∧ t.clusters = s.clusters ∧ ∀ j, j ≠ c → t.core j = s.core j

/-- Nothing of a core outside its sub-partitions and its power state has changed. -/
def SameUnits (k l : Core) : Prop :=
  l.clock = k.clock ∧ l.scratch = k.scratch ∧ l.granules = k.granules ∧ l.store = k.store ∧ l.blocks = k.blocks
    ∧ l.blockGen = k.blockGen ∧ l.teams = k.teams ∧ l.l1 = k.l1 ∧ l.constCache = k.constCache ∧ l.genCache = k.genCache ∧ l.tlb = k.tlb
    ∧ l.copies = k.copies ∧ l.sysvec = k.sysvec ∧ l.preempt = k.preempt ∧ l.watches = k.watches

/-- Element i of a lane, of w bits (R136). -/
def element (w : Nat) (x : Word) (i : Nat) : BitVec w := x.extractLsb' (w * i) w

/-- The integer that w bits are, signed or not (R136). -/
def elementValue {w : Nat} (signed : Bool) (x : BitVec w) : Int := if signed then x.toInt else x.toNat

/-- An exact integer delivered in w bits: clamped to the type under SAT, else taken modulo 2^w (R139). -/
def delivered (w : Nat) (signed sat : Bool) (t : Int) : BitVec w :=
  BitVec.ofInt w (if sat then min (max t (if signed then -(2 ^ (w - 1)) else 0)) (if signed then 2 ^ (w - 1) - 1 else 2 ^ w - 1) else t)

/-! ### Exact values and one rounding (R151-R153, R159, R166) -/

/-- The number that a finite code of FP32, FP16 or BF16 stands for, by the fields of R151. -/
def Fmt.real (f : Fmt) (c : Nat) : ℚ :=
  let e := c / 2 ^ f.t % 2 ^ (f.k - f.p)
  let m : ℚ := (c % 2 ^ f.t : Nat)
  (if c / 2 ^ (f.k - 1) % 2 = 1 then -1 else 1) * if e = 0 then m * 2 ^ (f.emin - f.t) else (2 ^ f.t + m) * 2 ^ ((e : Int) - f.bias - f.t)

/-- The number of a finite exact value. -/
def FVal.rat : FVal → ℚ
  | fin neg n e => (if neg then -1 else 1) * n * 2 ^ e
  | _ => 0

/-- The exact product of two operands: none for a zero times an infinity (R159). -/
def FVal.times (x y : FVal) : Option FVal :=
  match x, y with
  | nan s, _ => some (nan s)
  | _, nan s => some (nan s)
  | fin a n e, fin b k d => some (fin (a != b) (n * k) (e + d))
  | inf a, y => if y.isZero then none else some (inf (a != y.neg?))
  | x, inf b => if x.isZero then none else some (inf (x.neg? != b))

/-- Whether a value is not above another, with −0 below +0 (R160); neither is a NaN. -/
def FVal.NotAbove (x y : FVal) : Prop :=
  x = .inf true ∨ y = .inf false
    ∨ (x.isInf = false ∧ y.isInf = false ∧ (x.rat < y.rat ∨ x.rat = y.rat ∧ (x.isZero = false ∨ x.neg? = true ∨ y.neg? = false)))

/-- The integer that a number rounds to under a mode of R152. -/
def RMode.int {K : Type} [Field K] [LinearOrder K] [FloorRing K] (m : RMode) (v : K) : Int :=
  match m with
  | .rtz => if v < 0 then ⌈v⌉ else ⌊v⌋
  | .rup => ⌈v⌉
  | .rdn => ⌊v⌋
  | .rna => if v < 0 then ⌈v - 1 / 2⌉ else ⌊v + 1 / 2⌋
  | _ => if v - ⌊v⌋ < 1 / 2 ∨ v - ⌊v⌋ = 1 / 2 ∧ ⌊v⌋ % 2 = 0 then ⌊v⌋ else ⌊v⌋ + 1

/-- r is the code and the flags that round_fmt of R152 gives a nonzero number v in a format of R151: overflow and tininess are judged on v
rounded to the precision with an unbounded exponent, and a tiny v is rounded once, onto the subnormal grid. -/
def RoundsTo {K : Type} [Field K] [LinearOrder K] [IsStrictOrderedRing K] [FloorRing K] (f : Fmt) (m : RMode) (v : K) (r : Nat × Word) :
    Prop :=
  let q := Int.log 2 |v| - f.t
  let n : K := m.int (v / 2 ^ q) * 2 ^ q
  let least := f.emin - f.t
  let inf : Prop := m = .rne ∨ m = .rna ∨ (m = .rup ∧ 0 < v) ∨ (m = .rdn ∧ v < 0)
  let is (w : K) (few : Word) : Prop :=
    r.1 < 2 ^ f.k ∧ (f.real r.1 : K) = w ∧ (r.1 / 2 ^ (f.k - 1) = 1 ↔ v < 0) ∧ (w = v → r.2 = 0#32) ∧ (w ≠ v → r.2 = few)
  ((f.real f.maxCode : K) < |n| →
      r.2 = flagOF ||| flagNX ∧ (inf → r.1 = f.withSign (v < 0) f.topCode) ∧ (¬ inf → r.1 = f.withSign (v < 0) f.maxCode))
    ∧ (|n| ≤ (f.real f.maxCode : K) → 2 ^ f.emin ≤ |n| → is n flagNX)
    ∧ (|n| < 2 ^ f.emin → is (m.int (v / 2 ^ least) * 2 ^ least) (flagUF ||| flagNX))

/-- r is an exact sum of terms rounded once (R159, R166). ops are the operands; a term is none where it is a zero times an infinity. A zero
sum has the sign of its terms where all are zeros of one sign (of −0 alone when keep is false, as R166 has it), else −0 under .rdn. -/
def OneRounding (f : Fmt) (m : RMode) (ops : List FVal) (terms : List (Option FVal)) (keep : Bool) (r : Nat × Word) : Prop :=
  let invalid := none ∈ terms ∨ (some (.inf true) ∈ terms ∧ some (.inf false) ∈ terms)
  let isNan := invalid ∨ ∃ x ∈ ops, x.isNan = true
  let v := (terms.map fun x => (x.getD (.inf false)).rat).sum
  let zeros (b : Bool) := ∀ x ∈ terms, ∃ e, x = some (.fin b 0 e)
  let minus := zeros true ∨ (m = .rdn ∧ ¬ (keep = true ∧ zeros false))
  (isNan → r.1 = f.nanCode ∧ ((invalid ∨ ∃ x ∈ ops, x.isSnan = true) → r.2 = flagNV)
      ∧ (¬ invalid → (∀ x ∈ ops, x.isSnan = false) → r.2 = 0#32))
    ∧ (¬ isNan → ∀ b, some (.inf b) ∈ terms → r = (f.withSign b f.topCode, 0#32))
    ∧ (¬ isNan → (∀ b, some (.inf b) ∉ terms) →
      (v ≠ 0 → RoundsTo f m v r) ∧ (v = 0 → (minus → r = (f.withSign true 0, 0#32)) ∧ (¬ minus → r = (0, 0#32))))

/-- r is minimumNumber or maximumNumber of two codes, with its flag (R160). -/
def Lesser (f : Fmt) (isMax : Bool) (cx cy : Nat) (r : Nat × Word) : Prop :=
  let x := f.decode cx
  let y := f.decode cy
  r.2 = (if x.isSnan || y.isSnan then flagNV else 0#32)
    ∧ (x.isNan = true → y.isNan = true → r.1 = f.nanCode) ∧ (x.isNan = true → y.isNan = false → r.1 = cy)
    ∧ (x.isNan = false → y.isNan = true → r.1 = cx)
    ∧ (x.isNan = false → y.isNan = false → (r.1 = cx ∨ r.1 = cy)
      ∧ (isMax = false → (f.decode r.1).NotAbove x ∧ (f.decode r.1).NotAbove y)
      ∧ (isMax = true → x.NotAbove (f.decode r.1) ∧ y.NotAbove (f.decode r.1)))

/-- Whether a comparison of layout C holds of two values (R49, R161). -/
def Compares (cc : Nat) (x y : FVal) : Prop :=
  let less (x y : FVal) : Prop :=
    (x = .inf true ∧ y ≠ .inf true) ∨ (y = .inf false ∧ x ≠ .inf false) ∨ (x.isInf = false ∧ y.isInf = false ∧ x.rat < y.rat)
  let bare : Prop := match cc % 6 with
    | 0 => ¬ less x y ∧ ¬ less y x
    | 1 => less x y ∨ less y x
    | 2 => less x y
    | 3 => ¬ less y x
    | 4 => less y x
    | _ => ¬ less x y
  let un := x.isNan = true ∨ y.isNan = true
  (cc ≤ 5 ∧ ¬ un ∧ bare) ∨ (6 ≤ cc ∧ cc ≤ 11 ∧ (un ∨ bare)) ∨ (cc = 12 ∧ ¬ un) ∨ (cc = 13 ∧ un)

/-- The lanes of a source converted by R46, each with its flags: NV and NX come from active lanes only. -/
def ConvertedBy (g : Word → Word × Word → Prop) (r : Reg) (act : Mask) (ls : Lanes) (fl : Word) : Prop :=
  ∃ w : Fin 32 → Word, (∀ l : Fin 32, g (lane r.lanes l) (lane ls l, w l))
    ∧ ∀ b : Nat, fl.getLsbD b = true ↔ ∃ l : Fin 32, act.getLsbD l = true ∧ (w l).getLsbD b = true

/-- After a word of the group of v has issued, its fibre is f: it stands at a word of a block, its next word may issue from a clock
on, it issued last in the present clock, and its mask, windows, registers, counters and waits are as they were. -/
def Moved (t : State) (v : View) (f : Fibre) (h : BitVec 12) (off earliest : Nat) : Prop :=
  t.fibre? v.g = some f ∧ f.handle = h ∧ f.off = off ∧ f.earliest = earliest ∧ f.lastIssue = some v.core.clock
    ∧ f.windows = v.fib.windows ∧ f.ofile = v.fib.ofile ∧ f.y0 = v.fib.y0 ∧ f.y1 = v.fib.y1 ∧ f.frozen = v.fib.frozen
    ∧ f.srseed = v.fib.srseed ∧ f.sysc = v.fib.sysc ∧ f.grp = v.fib.grp

/-- The word of the group of v has issued and the next word follows; its mask and counters are as they were. -/
def NextWord (t : State) (v : View) (f : Fibre) (flags : Word) : Prop :=
  Moved t v f v.fib.handle (v.fib.off + 1) v.fib.earliest ∧ f.exm = v.fib.exm ∧ f.gst = v.fib.gst ||| flags
    ∧ f.outstanding = v.fib.outstanding ∧ f.results = v.fib.results ∧ f.ops = v.fib.ops

/-- One fixed-latency result of one destination has entered flight in fibre f, which was the group's of v. -/
def Brings (v : View) (f : Fibre) (latency : Nat) (d : Operand) (m : Mask) (r : Reg) (flags : Word) : Prop :=
  ∃ p, f.results = v.fib.results ++ [p] ∧ p.issued = v.core.clock
    ∧ p.due = max (v.core.clock + latency - 1) ((v.fib.results.getLast?.map Pending.due).getD 0)
    ∧ p.writes = [⟨v.place d, m, r⟩] ∧ p.ys = [(m, r)] ∧ p.flags = flags

/-- An operation of the group of v is in flight: its counter k has risen by one, it is the newest on its counter, the fibre goes on
at the next word, and no register, mask or flag has changed. -/
def Queued (t : State) (v : View) (f : Fibre) (k : Nat) : Prop :=
  Moved t v f v.fib.handle (v.fib.off + 1) v.fib.earliest ∧ f.exm = v.fib.exm ∧ f.gst = v.fib.gst ∧ f.results = v.fib.results
    ∧ f.outstanding = v.fib.outstanding ++ [⟨v.fib.nextId, k, false, 0#32⟩] ∧ f.nextId = v.fib.nextId + 1

/-- The registers of a core's banks, and everything of the core but its sub-partitions and power, are as they were; so is everything
outside the core. -/
def RegistersKept (s t : State) (c : Nat) : Prop :=
  SameOutsideCore s t c ∧ SameUnits (s.core c) (t.core c) ∧ ∀ b, ((t.core c).sub b).bank = ((s.core c).sub b).bank

/-- The group of v has started operation o on counter k and goes on at the next word; nothing else has changed. -/
def Started (s t : State) (v : View) (k : Nat) (o : Op) : Prop :=
  ∃ f, Queued t v f k ∧ f.ops = v.fib.ops ++ [o] ∧ o.id = v.fib.nextId ∧ o.sup = v.fib.sup ∧ o.issued = v.core.clock
    ∧ o.held = 0#32 ∧ o.stage = 0 ∧ RegistersKept s t v.g.core

/-- A word of the group of v has issued with no active lane: it goes on at the next word, its counter k has risen and falls in its place,
where the flags fl of its reads join %gst (R42, R46), and nothing else has changed. -/
def Idle (s t : State) (v : View) (k : Nat) (fl : Word) : Prop :=
  ∃ f, Moved t v f v.fib.handle (v.fib.off + 1) v.fib.earliest ∧ f.exm = v.fib.exm ∧ f.gst = (v.fib.raiseIdle k fl).gst
    ∧ f.results = v.fib.results ∧ f.ops = v.fib.ops ∧ f.outstanding = (v.fib.raiseIdle k fl).outstanding
    ∧ RegistersKept s t v.g.core

/-- Operation o of the group of v has completed: its log entry is free, its counter has fallen in its place, its flags have joined (with those of
the idle words that fall with it), and the fibre's pc, mask and results are as they were; a frozen one runs again when no record of it is unanswered and none of its lanes that were issued
again has still to complete (R232). -/
def Completed (t : State) (v : View) (o : Op) : Prop :=
  ∃ f, t.fibre? v.g = some f ∧ f.ops = v.fib.ops.filter (fun p => p.id ≠ o.id) ∧ f.outstanding = (v.fib.complete o.id).outstanding
    ∧ f.gst = (v.fib.complete o.id).gst ||| o.flags ∧ f.off = v.fib.off ∧ f.handle = v.fib.handle ∧ f.exm = v.fib.exm
    ∧ f.results = v.fib.results ∧ f.frozen = (v.fib.frozen && ((t.slice (sliceOf v.g.core)).fault.live.any (fun r => r.agent == .group v.g) || f.aborting
        || f.redoing || !f.kept.isEmpty))

/-- Operation o of the group of v is in flight and may perform: it is the group's, no lane of it is held, and the group is not leaving. -/
def InFlight (s : State) (v : View) (o : Op) : Prop :=
  s.view v.g = some v ∧ v.fib.op? o.id = some o ∧ o.held = 0#32 ∧ v.fib.aborting = false

/-- Every byte of memory outside n bytes from an address of a partition is as it was. -/
def MemoryElsewhere (s t : State) (part pa n : Nat) : Prop :=
  ∀ p a, memKey p a < memKey part pa ∨ memKey part pa + n ≤ memKey p a → t.readMem p a 1 = s.readMem p a 1

/-- Register n of the bank of v takes a value in the lanes of a mask, and no other register of any bank of the core changes. -/
def BankGains (s t : State) (v : View) (n : Nat) (m : Mask) (r : Reg) : Prop :=
  ((t.core v.g.core).sub v.g.sub).bank.get n Reg.zero = (v.sub.bank.get n Reg.zero).merge m r
    ∧ (∀ k, k ≠ n → ((t.core v.g.core).sub v.g.sub).bank.get k Reg.zero = v.sub.bank.get k Reg.zero)
    ∧ ∀ b, b ≠ v.g.sub → ((t.core v.g.core).sub b).bank = ((s.core v.g.core).sub b).bank

/-- Operation o of the group of v has entered the matrix unit of its sub-partition as its newest: the word has issued, its counter k has
risen, the flags fl of its reads stay with it, and nothing of the core's registers, and nothing outside its sub-partitions, has changed. -/
def EntersUnit (s t : State) (v : View) (k : Nat) (fl : Word) (i : Instr) (o : MatOp) : Prop :=
  ∃ f, Moved t v f v.fib.handle (v.fib.off + 1) v.fib.earliest ∧ f.exm = v.fib.exm ∧ f.gst = v.fib.gst ∧ o.flags = fl ∧ f.results = v.fib.results
    ∧ f.ops = v.fib.ops ∧ f.outstanding = v.fib.outstanding ++ [⟨v.fib.nextId, k, false, 0#32⟩]
    ∧ ((t.core v.g.core).sub v.g.sub).matrix = v.sub.matrix ++ [o] ∧ o.seq = v.sub.matSeq ∧ o.slot = v.g.slot ∧ o.fib = v.g.fib
    ∧ o.id = v.fib.nextId ∧ o.ctx = v.slot.ctx ∧ o.instr = i ∧ o.issued = v.core.clock ∧ o.written = false
    ∧ ((t.core v.g.core).sub v.g.sub).tiles = v.sub.tiles ∧ RegistersKept s t v.g.core

/-- The context c, whose team was t, has moved to a word: it is ready at a clock, register d has taken a value (g0 takes none), and its
other registers, its mode, its entries and its team's launch are as they were. -/
def CtxGoes (u : State) (c : CtxRef) (t : Team) (pc at_ : Nat) (d : BitVec 6) (w : DWord) : Prop :=
  ∃ m, u.team? c.core c.ctx = some m ∧ m.gen.pc = pc ∧ m.gen.run = .ready at_ ∧ (∀ r, m.gen.reg r = if r = d ∧ d ≠ 0#6 then w else t.gen.reg r)
    ∧ m.gen.sup = t.gen.sup ∧ m.entries = t.entries ∧ m.desc = t.desc ∧ m.hdr = t.hdr

/-- The context c waits at its word, with its registers as they were in team t. -/
def CtxWaits (u : State) (c : CtxRef) (t : Team) (run : GenRun) : Prop :=
  ∃ m, u.team? c.core c.ctx = some m ∧ m.gen = { t.gen with run := run }

/-- Nothing but the context c of its core has changed, and perhaps blocks with their words, first-level cache lines and translations of that core: not
its groups' registers, its scratchpad or its copies, nor any other team; and nothing outside the core. -/
def CtxAlone (s u : State) (c : CtxRef) : Prop :=
  SameOutsideCore s u c.core ∧ (u.core c.core).subs = (s.core c.core).subs ∧ (u.core c.core).scratch = (s.core c.core).scratch
    ∧ (u.core c.core).copies = (s.core c.core).copies ∧ ∀ x, x ≠ c.ctx → u.team? c.core x = s.team? c.core x

/-- The blocks, their words and the first-level cache of a core are as they were. -/
def SameCode (s u : State) (c : Nat) : Prop :=
  (u.core c).blocks = (s.core c).blocks ∧ (u.core c).store = (s.core c).store ∧ (u.core c).blockGen = (s.core c).blockGen
    ∧ (u.core c).l1 = (s.core c).l1

end Sys2Proof.Machine
end

