-- ==== Sys2Proof/Certificates/Slice0/Obligations.lean ====
section
/-!
DEFINITION. The statements about this machine, for the provers. Each names the rules of the specification that it follows.
-/

open Sys2Proof Sys2Proof.Machine
open Host (Outcome)

/-! ### Encodings -/

/-- Decoding the word of a well-formed instruction gives the instruction back, for every generator, group and hart instruction and
every value of its fields (R28, R30, R31, R34, R50, R397). -/
def Obligations.DecodeAfterEncode : Prop :=
  (∀ (i : Instr) (w : IWord), i.wellFormed = true → encodeWord i = some w →
    decodeWord w = .ok i ∧ decodeBytes (leBytes 12 w.toNat) = .ok i)
    ∧ (∀ (i : Instr) (w : Word), encodeHartWord i = some w →
      decodeHartWord w = .ok i ∧ decodeHartBytes (leBytes 4 w.toNat) = .ok i)

/-- A word that decodes is the word of the instruction it decodes to, which is well formed: no two words decode to one
instruction, and no bit of a word is dropped (R28, R30, R34, R50, R54, R397). -/
def Obligations.EncodeAfterDecode : Prop :=
  (∀ (w : IWord) (i : Instr), decodeWord w = .ok i → i.wellFormed = true ∧ encodeWord i = some w)
    ∧ (∀ (w : Word) (i : Instr), decodeHartWord w = .ok i → encodeHartWord i = some w)

/-- Words of the specification's own examples decode to what they stand for: PAIR (R50), BRC (R114), SPAWN (R119), LEA (R138), REDMI
(R193), LD (R215), the hart's three words (R397); and opcode 0x00, a group word in generator code and a generator word in a block
are none (R54). -/
def Obligations.ExampleWords : Prop :=
  decodeWord 0x2202_0000_0000_0001_5020_000F#96
      = .ok (.brc ⟨2#8, .v 0, .v 0, .v 0, .rel 5#20, ⟨false, 2#5⟩, ⟨0#3, 0#12, false, 15#4⟩⟩)
    ∧ decodeWord 0x2800_0530_4C14_0000_C9F0_0002#96
      = .ok (.spawn ⟨0#8, .v 20, .o 4, .o 5, .imm 3#20, ⟨false, 31#5⟩, ⟨0#3, 0#12, false, 2#4⟩⟩)
    ∧ decodeWord 0x4E13_0200_A030_0010_09F0_000F#96
      = .ok (.lea ⟨0x13#8, .v 8, .v 10, .v 12, .imm 0x40#20, ⟨false, 31#5⟩, ⟨0#3, 0#12, false, 15#4⟩⟩)
    ∧ decodeWord 0x7C10_0280_4014_0000_01F0_000F#96
      = .ok (.redmi ⟨0x10#8, .v 10, .v 4, .v 5, .none, ⟨false, 31#5⟩, ⟨0#3, 0#12, false, 15#4⟩⟩)
    ∧ decodeWord 0x806C_0500_8000_0010_09F0_0001#96
      = .ok (.ld ⟨0x6C#8, .v 20, .v 8, .v 0, .imm 0x40#20, ⟨false, 31#5⟩, ⟨0#3, 0#12, false, 1#4⟩⟩)
    ∧ decodeWord 0xE018_4048_5043_4382_41F0_000F#96
      = .ok (.pair ⟨3#5, 8#8, 9#8, 10#8, 1#5, 13#8, 14#8, 9#8, ⟨false, 31#5⟩, ⟨0#3, 0#12, false, 15#4⟩⟩)
    ∧ decodeHartWord 0x00C5_850B#32 = .ok (.dwAwait 10#5 11#5 12#5)
    ∧ decodeHartWord 0x0005_950B#32 = .ok (.dwAwake 10#5 11#5)
    ∧ decodeHartWord 0x0205_950B#32 = .ok (.dwAwakeAll 10#5 11#5)
    ∧ decodeWord 0#96 = .error .opcode
    ∧ decodeGenWord 0x7C10_0280_4014_0000_01F0_000F#96 = .error .opcode
    ∧ decodeGroupWord 0x0A08_0000_0038_0000_0800_0000#96 = .error .opcode

/-! ### The step -/

/-- A turn of a sub-partition's issue port whose picked group stands at a word of a block that decodes to a well-formed group
instruction runs exactly that instruction for that group (R102, R103). -/
def Obligations.StepRunsGroupWord : Prop :=
  ∀ (s s1 : State) (c b : Nat) (rest : List Turn) (g : GroupRef) (v : View) (k : Block) (i : Instr),
    s.agenda = .issue c b :: rest → ({ s with agenda := rest }.noteReady c b).issueClock c b = (s1, .issue g) → s1.view g = some v →
    v.core.blocks.find (handleBlock v.fib.handle) = some k → v.fib.off < k.len →
    decodeGroupWord (v.core.blockWord k v.fib.off).word = .ok i →
    i.wellFormed = true ∧ step s = (match exec i { s1 with cur := .group g } with
      | .next t => .next { t with cur := .none }
      | .fault r => .fault r
      | .refused r => .refused r)

/-- The turn of a core's generator pipeline in a clock fetches 12 bytes at the word index of the context that the round robin picks, in the
team's image, and runs exactly the generator instruction that they decode to (R28, R64, R66). -/
def Obligations.StepRunsGeneratorWord : Prop :=
  ∀ (s s1 s2 : State) (core c : Nat) (rest : List Turn) (t : Team) (bs : List Byte) (i : Instr),
    s.agenda = .gen core :: rest → (s.core core).genDone = false → { s with agenda := rest }.pickCtx core = some c →
    s1 = ({ s with agenda := rest }.modCore core fun k => { k.passTurns (some c) with genAt := some k.clock }) → s1.team? core c = some t →
    t.gen.pc < t.hdr.genWords →
    (s1.modCore core fun k => { k with genNext := (c + 1) % Config.contexts }).genBytes ⟨core, c⟩ t (t.genAddress t.gen.pc) 12 = (.ok bs, s2) →
    decodeGenWord (BitVec.ofNat 96 (leNat bs)) = .ok i →
    i.wellFormed = true
      ∧ step s = (match exec i { s2 with cur := .ctx ⟨core, c⟩ } with
      | .next t => .next { t with cur := .none }
      | .fault r => .fault r
      | .refused r => .refused r)

/-- A turn of a running hart with no interrupt to take runs the instruction of the part that the four bytes at its pc decode to
(R397), and a word of another opcode, or a compressed one, as one of the hart's base (R393); a turn of an event runs that event; and a tick
adds one to the %cyc of its slice (R323), with which the deadlines and grants that are due expire (R326, R380). -/
def Obligations.StepRunsHartWordOrEvent : Prop :=
  (∀ (s : State) (h : HartRef) (rest : List Turn) (w : Word) (i : Instr),
    s.agenda = .hart h :: rest → (s.hartOf h).run = .running → (s.hartOf h).interrupt = none →
    { s with agenda := rest }.fetchHart h = .ok w → decodeHartWord w = .ok i →
    step s = (match exec i { s with agenda := rest, cur := .hart h } with
      | .next t => .next { t with cur := .none }
      | .fault r => .fault r
      | .refused r => .refused r))
    ∧ (∀ (s : State) (h : HartRef) (rest : List Turn) (w : Word),
      s.agenda = .hart h :: rest → (s.hartOf h).run = .running → (s.hartOf h).interrupt = none →
      { s with agenda := rest }.fetchHart h = .ok w → w.extractLsb' 0 7 ≠ 0x0B#7 → step s = .next ({ s with agenda := rest }.runBase h w))
    ∧ (∀ (s : State) (rest : List Turn) (i : Instr), s.agenda = .event i :: rest →
      step s = (match exec i { s with agenda := rest, cur := .none } with
      | .next t => .next { t with cur := .none }
      | .fault r => .fault r
      | .refused r => .refused r))
    ∧ (∀ (s : State) (rest : List Turn) (n : Nat), s.agenda = .tick n :: rest →
      step s = .next (({ s with agenda := rest,
                                slices := s.slices.set n { s.slice n with cyc := (s.slice n).cyc + 1#64 } }.expireDeadlines n).failsafes n))

/-! ### Invariants and reset -/

/-- Every step of the machine keeps the home banks' bytes in canonical form: addresses strictly rising, no entry equal to what an
unlisted address reads as. -/
def Obligations.StepKeepsMemoryCanonical : Prop :=
  ∀ (s t : State), s.Sound → step s = .next t → t.Sound

/-- The machine after reset has its memory in canonical form and lists nothing; no slice is in a partition, every hart is held, and
Markhor has not booted (R356, R394); each register with a reset value that the specification states has it: DEADLINE (R331), LOG2N
(R336), PSTAT.FAILSAFE and RATE (R380, R381), SPARES (R413), no tag lost (R336), every line's metadata 0 (R213), QBASE, FQ_TAIL,
FQ_HEAD, FCTL_STALE, PREFDROP, %cyc, RAIL, RAILREQ, WLEVEL and WPHASE 0 (R223, R323, R336, R381). -/
def Obligations.ResetValues : Prop :=
  State.reset.Sound ∧ State.reset.mem = [] ∧ State.reset.markhor.booted = false
    ∧ (∀ n, (State.reset.slice n).part = none ∧ (State.reset.slice n).fault.deadline = 0x000F_4240#32
        ∧ (State.reset.slice n).fault.log2n = 6 ∧ (State.reset.slice n).fault.nextTag = 1#16
        ∧ (State.reset.slice n).fault.qbase = 0#64 ∧ (State.reset.slice n).fault.tail = 0#32
        ∧ (State.reset.slice n).fault.head = 0#32 ∧ (State.reset.slice n).fault.stale = 0#32
        ∧ (State.reset.slice n).prefdrop = 0#32 ∧ (State.reset.slice n).cyc = 0#64
        ∧ (State.reset.slice n).err.spCore = 2 ∧ (State.reset.slice n).err.spHart = 1
        ∧ (State.reset.slice n).err.spPch = 4 ∧ (State.reset.slice n).err.spLane = 1)
    ∧ (∀ h, (State.reset.hartOf h).run = .held)
    ∧ (∀ p a, State.reset.line p a = ⟨0#2, 0#4, 0#12, false⟩)
    ∧ (∀ c, (State.reset.core c).power.failsafe = true ∧ (State.reset.core c).power.rate = 2 * Config.nominal (c / 16) / 5
        ∧ (State.reset.core c).power.allow = Config.cap (c / 16) ∧ (State.reset.core c).power.rail = false
        ∧ (State.reset.core c).power.railReq = false ∧ (State.reset.core c).power.wlevel = 0
        ∧ (State.reset.core c).power.wphase = 0 ∧ (State.reset.core c).teams = .empty ∧ (State.reset.core c).blocks = .empty)

/-! ### Operands, faults of a word, and results (R32, R33, R44-R46, R106, R108) -/

/-- How a source is read (R45, R46). Every tag that R45 accepts is read without a change and without a flag; any other is no read under TCONV = 1.
Under TCONV = 0 a mismatch is converted by the table of R46, for every value, tag and reader: an integer that FP32 holds reads as that number
rounded to nearest even; an FP32 number read as an integer is rounded to nearest even and clamped, with NaN 0, and sets NV and NX; element 0
of a packed 16-bit register reads as its number; an integer reader of PRED, A64 or I64 reads the bits; every other pairing reads the bits
and sets TAGX. NV and NX come from active lanes only. The model's choices: TAGX with no active lane (assumption 13), no flag for an integer
read as FP32 (assumption 14), NV judged on the rounded integer (assumption 21), and these flags for readers of the integer
class too (assumption 144). -/
def Obligations.TagsRead : Prop :=
  let own (t u : Tag) := u = t ∨ u = tagRaw ∨ (t = tagN32 ∧ u = tagS32) ∨ (t = tagS32 ∧ u = tagN32)
    ∨ (t = tagI64L ∧ u = tagA64L) ∨ (t = tagA64L ∧ u = tagI64L) ∨ (t = tagI64H ∧ u = tagA64H) ∨ (t = tagA64H ∧ u = tagI64H)
  let number (v : ℚ) (o : Word × Word) := o.2 = 0#32 ∧ (v = 0 → o.1 = 0#32) ∧ (v ≠ 0 → ∃ w, RoundsTo fmtF32 .rne v (o.1.toNat, w))
  let integer (ftz : Bool) (lo hi : Int) (w : Word) (o : Word × Word) :=
    let n := RMode.rne.int (in32 ftz w).rat
    (∀ q, in32 ftz w = .nan q → o = (0#32, flagNV))
      ∧ (∀ b, in32 ftz w = .inf b → o = (BitVec.ofInt 32 (if b then lo else hi), flagNV))
      ∧ (∀ b k e, in32 ftz w = .fin b k e →
        (n < lo → o = (BitVec.ofInt 32 lo, flagNV)) ∧ (hi < n → o = (BitVec.ofInt 32 hi, flagNV))
          ∧ (lo ≤ n → n ≤ hi → o = (BitVec.ofInt 32 n, if (n : ℚ) = (in32 ftz w).rat then 0#32 else flagNX)))
  let wider (p : Fmt) (w : Word) (o : Word × Word) :=
    let x := p.decode (element 16 w 0).toNat
    let y := fmtF32.decode o.1.toNat
    o.2 = 0#32 ∧ (∀ q, x = .nan q → y = .nan q) ∧ (∀ b, x = .inf b → y = .inf b)
      ∧ (∀ b n e, x = .fin b n e → ∃ k d, y = .fin b k d ∧ y.rat = x.rat)
  (∀ (ftz : Bool) (t : Tag) (r : Reg) (act : Mask),
    (∀ c, readTyped c ftz .any r act = some (r.lanes, 0#32))
      ∧ (∀ c, own t r.tag → readTyped c ftz (.tag t) r act = some (r.lanes, 0#32))
      ∧ (¬ own t r.tag → readTyped true ftz (.tag t) r act = none))
  ∧ (∀ (ftz : Bool) (t : Tag) (r : Reg) (act : Mask), ¬ own t r.tag →
    ∃ ls fl, readTyped false ftz (.tag t) r act = some (ls, fl)
      ∧ (t = tagF32 → r.tag = tagS32 → ConvertedBy (fun w o => number (w.toInt : ℚ) o) r act ls fl)
      ∧ (t = tagF32 → r.tag = tagN32 → ConvertedBy (fun w o => number (w.toNat : ℚ) o) r act ls fl)
      ∧ (t = tagF32 → r.tag = tagF16 → ConvertedBy (wider fmtF16) r act ls fl)
      ∧ (t = tagF32 → r.tag = tagBf16 → ConvertedBy (wider fmtBf16) r act ls fl)
      ∧ (t = tagS32 → r.tag = tagF32 → ConvertedBy (integer ftz (-(2 ^ 31)) (2 ^ 31 - 1)) r act ls fl)
      ∧ (t = tagN32 → r.tag = tagF32 → ConvertedBy (integer ftz 0 (2 ^ 32 - 1)) r act ls fl)
      ∧ (t = tagS32 ∨ t = tagN32 → r.tag ∈ [tagPred, tagA64L, tagA64H, tagI64L, tagI64H] → ls = r.lanes ∧ fl = 0#32)
      ∧ (¬ (t = tagF32 ∧ r.tag ∈ [tagS32, tagN32, tagF16, tagBf16]) →
        ¬ ((t = tagS32 ∨ t = tagN32) ∧ r.tag ∈ [tagF32, tagPred, tagA64L, tagA64H, tagI64L, tagI64H]) → ls = r.lanes ∧ fl = flagTAGX))

/-- A register that a word names and no window of the fibre holds, or a destination in a read-only window, is a window violation
(cause 0x02); and with every register in a window a source that is a mismatch under TCONV = 1 is a tag-mismatch fault (cause 0x03).
The group freezes with its pc on the word and no register is written: only the fault is taken. The words are those of one
destination and one, two or three sources; no execution mask or guard matters (R33, R46, R230). LANES = %exm is the model's choice
(assumption 11), and so is that the windows are checked before the tags (assumption 12). -/
def Obligations.WindowAndTagFaults : Prop :=
  ∀ (s : State) (v : View) (f : Fields), s.curView = some v →
    ∀ c ∈ ([(.iadd, binSrcs f), (.icmp, binSrcs f), (.imad, regSrcs f.a [.tag (tyTag f.ty)] ++ regSrcs f.b [.tag (tyTag f.ty)]
              ++ src3 f (srcTyOf f.ty) [.tag (tyTag f.ty)]), (.fadd, fbinSrcs f .f32 tagF32), (.frnd, regSrcs f.a [.tag tagF32]),
            (.rcp, regSrcs f.a [.tag tagF32]), (.popc, unarySrcs f), (.vote, regSrcs f.a [.tag tagPred])]
              : List ((Fields → Instr) × List Src)),
      (v.fib.windowsOk (instrNamed (c.1 f)) = false → exec (c.1 f) s = .next (s.faultWord v (c.1 f) 0x02#8 v.fib.exm))
        ∧ (v.fib.windowsOk (instrNamed (c.1 f)) = true → s.readSrcs v (v.active f.guard) c.2 = none →
          exec (c.1 f) s = .next (s.faultWord v (c.1 f) 0x03#8 v.fib.exm))

/-- Taking a level-S fault freezes the group with its program counter, mask, counters and registers as they were, gives the record
the slice's next FTAG, and makes it live: an answer must quote that FTAG, the group's PLACE, level S and the record's ENTRY. No
register of any bank, no other group and no team changes (R230, R335, R336). -/
def Obligations.FaultTaken : Prop :=
  ∀ (s : State) (v : View) (i : FaultInfo), s.view v.g = some v →
    let t := s.takeFaultS v i
    let tag := (s.slice (sliceOf v.g.core)).fault.nextTag
    t.fibre? v.g = some { v.fib with frozen := true }
      ∧ (∀ h, h ≠ v.g → t.fibre? h = s.fibre? h)
      ∧ (∀ c b, ((t.core c).sub b).bank = ((s.core c).sub b).bank)
      ∧ (∀ c, (t.core c).teams = (s.core c).teams)
      ∧ (t.slice (sliceOf v.g.core)).fault.nextTag = (if tag = 0xFFFF#16 then 1#16 else tag + 1#16)
      ∧ (t.slice (sliceOf v.g.core)).fault.live = (s.slice (sliceOf v.g.core)).fault.live
          ++ [⟨tag, placeOfGroup v.g v.fib.grp v.slot.ctx, false, i.entry, i.cause, .group v.g, i.opId,
                { v.record i with ftag := tag }⟩]

/-- What a fixed-latency word of latency n does in its issue clock t: one result enters flight, to land at the end of clock t + n - 1, or with an
earlier result that is still in flight then, with its destinations, its y-queue entries and its flags; its counter rises; the pc moves to the next
word; the lanes that take a result in a destination take it in y0, unless the word says otherwise; and nothing else changes but the slot's last issue and the core's power debit. No register is written before the landing
(R32, R106, R107, R108). -/
def Obligations.FixedLatencyIssue : Prop :=
  ∀ (s : State) (v : View) (i : Instr) (k : Option Nat) (n : Nat) (o : FixedOut) (ys : List (Mask × Reg)), s.view v.g = some v →
    let t := s.commitYs v i k n o ys
    let r : Pending :=
      { issued := v.core.clock
        due := max (v.core.clock + n - 1) ((v.fib.results.getLast?.map Pending.due).getD 0)
        writes := o.regs.map fun p => ⟨v.place p.1, p.2.1, p.2.2⟩
        ys := ys
        flags := o.flags
        signal := k.map fun _ => v.fib.nextId }
    s.commitFixed v i k n o = s.commitYs v i k n o (o.regs.map fun p => p.2)
      ∧ t.fibre? v.g = some { v.fib with
        off := v.fib.off + 1
        lastIssue := some v.core.clock
        results := v.fib.results ++ [r]
        outstanding := v.fib.outstanding ++ (match k with
          | some c => [⟨v.fib.nextId, c, false, 0#32⟩]
          | none => [])
        nextId := v.fib.nextId + (if k.isSome then 1 else 0) }
      ∧ (∀ h, h ≠ v.g → t.fibre? h = s.fibre? h)
      ∧ (∀ b, ((t.core v.g.core).sub b).bank = ((s.core v.g.core).sub b).bank)
      ∧ SameUnits (s.core v.g.core) (t.core v.g.core) ∧ SameOutsideCore s t v.g.core

/-- RESULT_LAND, which a result that is due at the end of its core's present clock, or was due before, takes part in whatever registers it
writes: the oldest result of the group lands. Each of its writes replaces the active lanes of its register and gives it the result's
tag (no active lane: nothing), in order; each enters y0 with zero in the inactive lanes while the old y0 moves to y1; its flags join %gst, with those of
the words without an active lane that fall with it; and its counter falls in its place in issue order: after an operation is done, each counter shows the operations
signalled on it from the first that is not done on, so an operation that is done behind one that is not lowers nothing yet, and no
other counter moves; a word without an active lane, which is done at once, falls and sets its flags only behind what is outstanding on
its counter (R42, R46). A group made to exit leaves with the last of what it has in flight. A result of a group that has exited writes its bank
registers. A result that is not due does not land, and no state changes (R32, R44, R106, R108, R121, R155). -/
def Obligations.ResultLands : Prop :=
  let due (k : Core) (n : Nat) := n < k.clock ∨ n = k.clock ∧ k.closing = true
  let value (old : Reg) (w : RegWrite) : Reg :=
    if w.mask = 0#32 then old else ⟨w.value.tag, lanesOf fun l => if inMask w.mask l then lane w.value.lanes l else lane old.lanes l⟩
  let written (ws : List RegWrite) (p : Place) (old : Reg) : Reg := (ws.filter fun w => w.place = p).foldl value old
  (∀ (s : State) (v : View) (r : Pending) (rest : List Pending), s.view v.g = some v → v.sub.lateOf v.g = none →
    v.fib.results = r :: rest → due v.core r.due →
    let done := match r.signal with
      | some id => v.fib.complete id
      | none => v.fib
    let left := done.outstanding
    let leaves := v.fib.aborting = true ∧ rest = [] ∧ left = []
    (leaves → ∃ t, exec (.resultLand v.g) s = .next t ∧ t.fibre? v.g = none)
    ∧ (¬ leaves → ∃ t f, exec (.resultLand v.g) s = .next t ∧ t.fibre? v.g = some f
      ∧ f.results = rest ∧ f.gst = done.gst ||| r.flags ∧ f.outstanding = left
      ∧ (f.y0, f.y1) = r.ys.foldl (fun q p => (⟨p.2.tag, lanesOf fun l => if inMask p.1 l then lane p.2.lanes l else 0#32⟩, q.1))
          (v.fib.y0, v.fib.y1)
      ∧ f.off = v.fib.off ∧ f.exm = v.fib.exm ∧ f.ops = v.fib.ops
      ∧ (∀ n, ((t.core v.g.core).sub v.g.sub).bank.get n Reg.zero = written r.writes (.bank n) (v.sub.bank.get n Reg.zero))
      ∧ (∀ n, f.ofile.get n Reg.zero = written r.writes (.ofile n) (v.fib.ofile.get n Reg.zero))
      ∧ t.mem = s.mem ∧ t.slices = s.slices ∧ t.parts = s.parts ∧ ∀ h, h ≠ v.g → t.fibre? h = s.fibre? h))
  ∧ (∀ (s : State) (g : GroupRef) (r : Late), ((s.core g.core).sub g.sub).lateOf g = some r → due (s.core g.core) r.due →
    ∃ t, exec (.resultLand g) s = .next t ∧ ((t.core g.core).sub g.sub).late = ((s.core g.core).sub g.sub).late.erase r
      ∧ ∀ n, ((t.core g.core).sub g.sub).bank.get n Reg.zero = written r.writes (.bank n) (((s.core g.core).sub g.sub).bank.get n Reg.zero))
  ∧ (∀ (s : State) (g : GroupRef), (∀ r, ((s.core g.core).sub g.sub).lateOf g = some r → ¬ due (s.core g.core) r.due) →
    (((s.core g.core).sub g.sub).lateOf g = none → ∀ f r rest, s.fibre? g = some f → f.results = r :: rest → ¬ due (s.core g.core) r.due) →
    exec (.resultLand g) s = .next s)
  ∧ (∀ (f : Fibre) (id k : Nat),
    (f.complete id).counter k
      = (((f.outstanding.filter fun o => o.cf == k).map fun o => if o.id = id then { o with done := true } else o).dropWhile
          fun o => o.done).length)
  ∧ (∀ (f : Fibre) (id b : Nat), (f.complete id).gst.getLsbD b = true ↔ f.gst.getLsbD b = true
      ∨ ∃ o ∈ f.outstanding, o.flags.getLsbD b = true ∧ ∀ p ∈ (f.complete id).outstanding, p.id ≠ o.id)
  ∧ (∀ (f : Fibre) (k : Nat) (fl : Word), (∀ o ∈ f.outstanding, o.done = false ∧ o.id < f.nextId) →
    let u := f.raiseIdle k fl
    ((∀ o ∈ f.outstanding, o.cf ≠ k) → u.outstanding = f.outstanding ∧ u.gst = f.gst ||| fl)
      ∧ ((∃ o ∈ f.outstanding, o.cf = k) → u.outstanding = f.outstanding ++ [⟨f.nextId, k, true, fl⟩] ∧ u.gst = f.gst))

/-! ### Group control (R38, R111-R125) -/

/-- BRA, BRC, CALL to a label and LOOP: a taken transfer goes to the word index plus the signed offset and its target issues no earlier
than 2 clocks later; one outside the sealed length is a stale-block fault (0x04) with LANES = %exm and LANE the leader, and nothing is
written; a BRC or LOOP not taken goes on at the next word. BRC is taken by its condition on the guarded active set. CALL writes the
link, LOOP the decremented count of the leader lane, to all 32 lanes. No transfer changes %exm (R38, R113, R114, R116, R117, R125). -/
def Obligations.RelativeTransfers : Prop :=
  ∀ (s : State) (v : View) (f : Fields) (x : BitVec 20) (b : Block) (ls : List Lanes) (fl : Word), f.ext = .rel x →
    v.core.blocks.find (handleBlock v.fib.handle) = some b →
    let target : Int := v.fib.off + x.toInt
    let inside := 0 ≤ target ∧ target < b.len
    let set := v.active f.guard
    let taken := (f.sub = 0#8 ∧ set ≠ 0#32) ∨ (f.sub = 1#8 ∧ set = v.fib.exm) ∨ (f.sub = 2#8 ∧ set = 0#32)
    let stale (i : Instr) := exec i s = .next (s.takeFaultS v (v.faultAt 0x04#8 (opSub i).1 f.sub v.fib.exm v.leader.val))
    let goes (i : Instr) (p : Fibre → Prop) :=
      ∃ t g, exec i s = .next t ∧ Moved t v g v.fib.handle target.toNat (v.core.clock + 2) ∧ g.exm = v.fib.exm ∧ p g
    (Reads s v (.bra f) f [] ls fl →
        (inside → goes (.bra f) fun g => g.results = v.fib.results ∧ g.outstanding = v.fib.outstanding) ∧ (¬ inside → stale (.bra f)))
      ∧ (Reads s v (.brc f) f [] ls fl → f.sub.toNat ≤ 2 →
        (taken → inside → goes (.brc f) fun g => g.results = v.fib.results ∧ g.outstanding = v.fib.outstanding)
          ∧ (taken → ¬ inside → stale (.brc f)) ∧ (¬ taken → ∃ t g, exec (.brc f) s = .next t ∧ NextWord t v g fl))
      ∧ (Reads s v (.call f) f [] ls fl →
        (inside → goes (.call f) fun g =>
          Brings v g 4 f.d 0xFFFF_FFFF#32 ⟨tagN32, lanesAll (codeAddress v.fib.handle (v.fib.off + 1))⟩ fl)
          ∧ (¬ inside → stale (.call f)))
      ∧ (Reads s v (.loop f) f [.reg f.d (.tag tagN32)] ls fl →
        let c := src ls 0 v.leader - 1#32
        (c ≠ 0#32 → inside → goes (.loop f) fun g => Brings v g 4 f.d 0xFFFF_FFFF#32 ⟨tagN32, lanesAll c⟩ fl)
          ∧ (c ≠ 0#32 → ¬ inside → stale (.loop f))
          ∧ (c = 0#32 → ∃ t g, exec (.loop f) s = .next t ∧ Moved t v g v.fib.handle (v.fib.off + 1) v.fib.earliest
              ∧ g.exm = v.fib.exm ∧ Brings v g 4 f.d 0xFFFF_FFFF#32 ⟨tagN32, lanesAll 0#32⟩ fl))

/-- BRX, RET and CALL through a register: the first row of R112's table that applies decides. A target that passes is reached, with its
first issue no earlier than 3 clocks later; CALL then writes the link to all lanes, BRX adds its offset to bits [23:12]. That an offset
sum above 4,095 belongs to the table's last row, after ownership and privilege, is the model's choice (assumption 121; R112,
R113, R115, R116). -/
def Obligations.CodeAddressTransfers : Prop :=
  ∀ (s : State) (v : View) (f : Fields) (ls : List Lanes) (fl : Word),
    ∀ c ∈ [(Instr.brx f, f.imm20.toNat), (Instr.ret f, 0), (Instr.callReg f, 0)],
      Reads s v c.1 f [.reg f.a (.tag tagN32)] ls fl →
      let a := src ls 0 v.leader
      let h := a.extractLsb' 0 12
      let off := (a.extractLsb' 12 12).toNat + c.2
      let faults (cause : Byte) := exec c.1 s = .next (s.takeFaultS v (v.faultAt cause (opSub c.1).1 f.sub v.fib.exm v.leader.val))
      (a.extractLsb' 24 8 ≠ 0#8 → faults 0x04#8)
        ∧ (a.extractLsb' 24 8 = 0#8 → v.core.current h = none → faults 0x04#8)
        ∧ (a.extractLsb' 24 8 = 0#8 → ∀ b, v.core.current h = some b →
            (b.st = .opened → faults 0x04#8)
              ∧ (b.st ≠ .opened → b.owner ≠ v.team.owner → ¬ (b.sup = true ∧ v.fib.sup = true) → faults 0x04#8)
              ∧ (b.st ≠ .opened → b.owner = v.team.owner → b.sup = true → v.fib.sup = false → faults 0x05#8)
              ∧ (b.st ≠ .opened → (b.owner = v.team.owner ∧ (b.sup = true → v.fib.sup = true)) ∨ (b.sup = true ∧ v.fib.sup = true) →
                  ((off > 4095 ∨ b.len ≤ off) → faults 0x04#8)
                    ∧ (off ≤ 4095 → off < b.len → ∃ t g, exec c.1 s = .next t ∧ Moved t v g h off (v.core.clock + 3)
                        ∧ g.exm = v.fib.exm
                        ∧ (c.1 = .callReg f → Brings v g 4 f.d 0xFFFF_FFFF#32
                            ⟨tagN32, lanesAll (codeAddress v.fib.handle (v.fib.off + 1))⟩ fl)
                        ∧ (c.1 ≠ .callReg f → g.results = v.fib.results))))

/-- NOP and WAITC go on at the next word, WAITC only when its counter is at or below its threshold; YIELD goes on at the next word and
asks for a change of fibre, with which a clock ends as soon as there is a fibre to take over: the first after the current one in cyclic order that is
ready in the next clock; EXIT, with every counter zero, retires the
group, whose fibre is no longer in its slot (R121, R122, R124, R125). -/
def Obligations.WaitsAndLeaving : Prop :=
  ∀ (s : State) (v : View) (f : Fields) (ls : List Lanes) (fl : Word),
    (Reads s v (.nop f) f [] ls fl → ∃ t g, exec (.nop f) s = .next t ∧ NextWord t v g fl)
      ∧ (Reads s v (.waitc f) f [] ls fl → v.fib.counter f.sub.toNat ≤ f.imm20.toNat →
        ∃ t g, exec (.waitc f) s = .next t ∧ NextWord t v g fl)
      ∧ (Reads s v (.waitc f) f [] ls fl → f.imm20.toNat < v.fib.counter f.sub.toNat → exec (.waitc f) s = .next s)
      ∧ (Reads s v (.waitcReg f) f [.reg f.a (.tag tagN32)] ls fl → v.fib.counter f.sub.toNat ≤ (src ls 0 v.leader).toNat →
        ∃ t g, exec (.waitcReg f) s = .next t ∧ NextWord t v g fl)
      ∧ (Reads s v (.waitcReg f) f [.reg f.a (.tag tagN32)] ls fl → (src ls 0 v.leader).toNat < v.fib.counter f.sub.toNat →
        exec (.waitcReg f) s = .next s)
      ∧ (Reads s v (.yield f) f [] ls fl → ∃ t g x, exec (.yield f) s = .next t ∧ NextWord t v g fl ∧ t.slot? v.g = some x
        ∧ x.current = v.slot.current ∧ x.passing = true)
      ∧ (Reads s v (.exit f) f [] ls fl → v.fib.outstanding = [] → ∃ t, exec (.exit f) s = .next t ∧ t.fibre? v.g = none
        ∧ ∀ h, h.core ≠ v.g.core → t.fibre? h = s.fibre? h)
      ∧ (s.view v.g = some v → v.slot.current = v.g.fib → v.slot.passing = true → v.runs = true →
        let ready (j : Nat) := ∃ w, s.view { v.g with fib := (v.g.fib + j) % 4 } = some w ∧ s.readyIn w (v.core.clock + 1) = true
        let t := s.settleSlot v.g.core v.g.sub v.g.slot
        (∀ j, 1 ≤ j → j ≤ 4 → ready j → (∀ k, 1 ≤ k → k < j → ¬ ready k) →
            ∃ x, t.slot? v.g = some x ∧ x = { v.slot with current := (v.g.fib + j) % 4, passing := false, stalled := false })
          ∧ ((∀ j, 1 ≤ j → j ≤ 4 → ¬ ready j) → ∃ x, t.slot? v.g = some x ∧ x = { v.slot with passing := true, stalled := false }))

/-- FBAR n with mask M, once every fixed-latency result of the fibre has landed: the fibre arrives. If every fibre that M or a mask of
a fibre waiting at n names, with the fibre itself, has arrived, exited or does not exist, no fibre of the slot waits at n any more and
n's arrived set is empty; if a fibre that M names is in the slot, is not leaving and has not arrived, the fibre waits at n with M and
its own bit and n's arrived set has gained its bit. It may issue from the next clock (R123, R125). -/
def Obligations.FibreBarrier : Prop :=
  ∀ (s : State) (v : View) (f : Fields) (ls : List Lanes) (fl : Word), Reads s v (.fbar f) f [] ls fl → v.fib.results = [] →
    v.fib.aborting = false → f.sub.toNat ≤ 3 → v.g.fib ≤ 3 → v.slot.fibres.keys.Pairwise (· < ·) →
    let n := f.sub.toNat
    let own : BitVec 4 := 1#4 <<< v.g.fib
    let m : BitVec 4 := f.imm20.setWidth 4 ||| own
    let got := v.slot.arrived.get n 0#4 ||| own
    let named (j : Nat) := m.getLsbD j = true ∨ ∃ k b q, v.slot.fibres.find k = some b ∧ k ≠ v.g.fib ∧ b.aborting = false
      ∧ b.fbar = some (n, q) ∧ q.getLsbD j = true
    let absent (j : Nat) := ∀ b, v.slot.fibres.find j = some b → b.aborting = true
    ∃ t g x, exec (.fbar f) s = .next t ∧ t.fibre? v.g = some g ∧ t.slot? v.g = some x ∧ g.off = v.fib.off + 1
      ∧ g.earliest = v.core.clock + 1 ∧ g.exm = v.fib.exm
      ∧ ((∀ j, j < 4 → named j → got.getLsbD j = true ∨ absent j) →
          x.arrived.get n 0#4 = 0#4 ∧ ∀ k b, x.fibres.find k = some b → b.fbar.map (·.1) ≠ some n)
      ∧ ((∃ j, j < 4 ∧ m.getLsbD j = true ∧ got.getLsbD j = false ∧ ¬ absent j) →
          g.fbar = some (n, m) ∧ x.arrived.get n 0#4 = got)

/-- MASK: the new mask by SUB, with P taken over all 32 lanes from a nonzero source and a guard that passes; every lane of D takes the
old mask, after 4 clocks. The new mask governs the next instruction (R118, R125). -/
def Obligations.MaskWord : Prop :=
  ∀ (s : State) (v : View) (f : Fields) (ls : List Lanes) (fl : Word), f.sub.toNat ≤ 5 →
    Reads s v (.mask f) f (if f.sub = 0#8 then [] else [.reg f.a (.tag (if f.sub = 5#8 then tagN32 else tagPred))]) ls fl →
    ∃ t g, exec (.mask f) s = .next t ∧ Moved t v g v.fib.handle (v.fib.off + 1) v.fib.earliest
      ∧ Brings v g 4 f.d 0xFFFF_FFFF#32 ⟨tagN32, lanesAll v.fib.exm⟩ fl
      ∧ ∀ l : Fin 32,
          let p := src ls 0 l ≠ 0#32 ∧ v.guardLane f.guard l = true
          let old := v.fib.exm.getLsbD l = true
          (f.sub = 0#8 → (g.exm.getLsbD l = true ↔ old)) ∧ (f.sub = 1#8 → (g.exm.getLsbD l = true ↔ p))
            ∧ (f.sub = 2#8 → (g.exm.getLsbD l = true ↔ old ∧ p)) ∧ (f.sub = 3#8 → (g.exm.getLsbD l = true ↔ old ∧ ¬ p))
            ∧ (f.sub = 4#8 → (g.exm.getLsbD l = true ↔ old ∨ p)) ∧ (f.sub = 5#8 → g.exm = src ls 0 v.leader)

/-- SPAWN takes an operation on its counter with the entry that its number names as the table stands at issue. SPAWN_COMPLETE, 4 to 8
clocks after the issue, names the clock at whose end the SPAWN completes (the end of the eighth completes every one that is left), and those of
one clock are served then in the order of sub-partition, slot and fibre, and in no other: it lowers the counter and writes to every lane of D the number of groups started: none, with no group started,
when no lane is active, the entry is clear or the count is 0 or above 32 (R92, R119, R125).
What starting groups does, for SPAWN and GSTART (R91, R119): as many groups start as are asked for, as the team's shape has numbers left
and as its free slots hold, F to a slot; in ascending order of sub-partition and slot, group j takes fibre j mod F of the (j/F)-th free slot.
Each stands at its fibre's offset in the entry's block with that fibre's windows, every lane in its mask, its counters 0, %gst 0 but for
MODE, which is the block's privilege, the operand file that its start gives, y0 and y1 0 with tag RAW, nothing in flight, and a %grp that no
live group of the team holds; it may issue from the clock given. o0 and o1 hold the two words of the start in every lane with tag RAW and
o2 to o31 0. No other group, no register of a bank and nothing outside the core changes. -/
def Obligations.SpawnAndCompletion : Prop :=
  (let place (g : GroupRef) := g.sub * 16 + g.slot * 4 + g.fib
  let served (s : State) (v : View) (o : Op) := v.core.closing = true ∧ o.issued + 4 ≤ v.core.clock
    ∧ (∀ n m, (s.core v.g.core).spawnAt = some (n, m) → n = v.core.clock → m ≤ place v.g)
    ∧ ∀ p ∈ (s.core v.g.core).dueSpawns v.g.core, place v.g ≤ place p.1
  (∀ (s : State) (v : View) (f : Fields) (ls : List Lanes) (fl : Word) (k : Nat), f.signal = some k →
    Reads s v (.spawn f) f [.reg f.a (.tag tagN32), .reg f.b (.tag tagN32)] ls fl →
    ∃ t g o, exec (.spawn f) s = .next t ∧ Queued t v g k ∧ g.ops = v.fib.ops ++ [o] ∧ o.id = v.fib.nextId ∧ o.instr = .spawn f
      ∧ o.active = v.active f.guard ∧ o.data = ls ∧ o.dest = [v.place f.d]
      ∧ o.entry = (v.team.settleEntries v.core.clock).entries.find f.imm20.toNat ∧ SameOutsideCore s t v.g.core)
  ∧ (∀ (s : State) (v : View) (o : Op) (f : Fields) (n : Nat), s.view v.g = some v → v.fib.op? o.id = some o → o.instr = .spawn f →
    v.fib.aborting = false → served s v o → o.dest = [.bank n] →
    (o.entry = none ∨ o.active = 0#32 ∨ src o.data 0 (lowestLane o.active) = 0#32
      ∨ 32 < (src o.data 0 (lowestLane o.active)).toNat) →
    ∃ t g, exec (.spawnComplete v.g o.id) s = .next t ∧ t.fibre? v.g = some g
      ∧ g.outstanding = (v.fib.complete o.id).outstanding ∧ g.ops = v.fib.ops.filter (fun p => p.id ≠ o.id)
      ∧ ((t.core v.g.core).sub v.g.sub).bank.get n Reg.zero = ⟨tagN32, lanesAll 0#32⟩
      ∧ ∀ h, h ≠ v.g → t.fibre? h = s.fibre? h)
  ∧ (∀ (s : State) (v : View) (o : Op) (f : Fields) (n : Nat) (e : EntryDesc), s.view v.g = some v → v.fib.op? o.id = some o →
    o.instr = .spawn f → v.fib.aborting = false → served s v o → o.dest = [.bank n] → o.entry = some e →
    o.active ≠ 0#32 → 1 ≤ (src o.data 0 (lowestLane o.active)).toNat → (src o.data 0 (lowestLane o.active)).toNat ≤ 32 →
    let r := (s.modCore v.g.core fun k => { k with spawnAt := some (k.clock, place v.g) }).startGroups v.g.core v.slot.ctx e (src o.data 0 (lowestLane o.active)).toNat
      (fun j => startFile (BitVec.ofNat 32 j) (src o.data 1 (lowestLane o.active))) (v.core.clock + 1)
    ∃ t, exec (.spawnComplete v.g o.id) s = .next t
      ∧ ((t.core v.g.core).sub v.g.sub).bank.get n Reg.zero = ⟨tagN32, lanesAll (BitVec.ofNat 32 r.2)⟩
      ∧ ∀ h, h ≠ v.g → t.fibre? h = r.1.fibre? h)
  ∧ (∀ (s : State) (v : View) (o : Op) (f : Fields), s.view v.g = some v → v.fib.op? o.id = some o → o.instr = .spawn f →
    (v.core.clock < o.issued + 4 ∨ ∃ m, (s.core v.g.core).spawnAt = some (v.core.clock, m) ∧ place v.g < m) →
    exec (.spawnComplete v.g o.id) s = .next s)
  ∧ (∀ (s : State) (v : View) (o : Op) (f : Fields), s.view v.g = some v → v.fib.op? o.id = some o → o.instr = .spawn f →
    v.core.closing = false → o.issued + 4 ≤ v.core.clock → (∀ m, v.core.spawnAt = some (v.core.clock, m) → m ≤ place v.g) →
    ∃ t, exec (.spawnComplete v.g o.id) s = .next t ∧ t.fibre? v.g = some (v.fib.modOp o.id fun p => { p with stage := 1 })
      ∧ (∀ h, h ≠ v.g → t.fibre? h = s.fibre? h) ∧ RegistersKept s t v.g.core)
  ∧ (∀ (s : State) (c : Nat) (g : GroupRef) (fib : Fibre) (o : Op) (f : Fields), (g, fib) ∈ ((s.core c).groups c).map (fun p => (p.1, p.2.2)) →
    o ∈ fib.ops → o.instr = .spawn f → o.stage = 1 ∨ o.issued + 8 ≤ (s.core c).clock → Turn.event (.spawnComplete g o.id) ∈ s.closeTurns c))
  ∧ ((∀ (s : State) (core ctx want earliest : Nat) (t : Team) (e : EntryDesc) (file : Nat → SMap Reg), s.team? core ctx = some t →
    1 ≤ e.fibres → t.desc.maxgrp ≤ 256 → (s.core core).subs.keys.Pairwise (· < ·) →
    (∀ b, ((s.core core).sub b).slots.keys.Pairwise (· < ·)) →
    let free := (s.core core).freeSlots ctx
    let live := (s.core core).liveGrps core ctx
    let r := s.startGroups core ctx e want file earliest
    let at_ (j : Nat) : GroupRef := ⟨core, (free.getD (j / e.fibres) (0, 0)).1, (free.getD (j / e.fibres) (0, 0)).2, j % e.fibres⟩
    let sup := ((s.core core).blocks.find (handleBlock e.handle)).any Block.sup
    r.2 = min (min want (t.desc.maxgrp - live.length)) (free.length * e.fibres)
      ∧ (∀ j < r.2, ∃ f, r.1.fibre? (at_ j) = some f ∧ f.handle = e.handle ∧ f.off = e.offs.getD (j % e.fibres) 0
        ∧ f.windows = e.windows.getD (j % e.fibres) [] ∧ f.exm = 0xFFFF_FFFF#32 ∧ f.gst = (if sup then 0x8000#32 else 0#32)
        ∧ f.ofile = file j ∧ f.y0 = Reg.zero ∧ f.y1 = Reg.zero ∧ f.outstanding = [] ∧ f.results = [] ∧ f.ops = [] ∧ f.frozen = false
        ∧ f.aborting = false ∧ f.lastIssue = none ∧ f.fbar = none ∧ f.sysc = none ∧ f.earliest = earliest ∧ f.grp < 256 ∧ f.grp ∉ live
        ∧ ∀ i < j, (r.1.fibre? (at_ i)).map Fibre.grp ≠ some f.grp)
      ∧ (∀ h, (∀ j < r.2, at_ j ≠ h) → r.1.fibre? h = s.fibre? h)
      ∧ RegistersKept s r.1 core)
  ∧ (∀ (a b : Word) (n : Nat), (startFile a b).get n Reg.zero = if n = 0 then ⟨tagRaw, lanesAll a⟩ else if n = 1 then ⟨tagRaw, lanesAll b⟩ else Reg.zero)
  ∧ (∀ l, lane Reg.zero.lanes l = 0#32) ∧ Reg.zero.tag = tagRaw)


/-! ### Integers and addresses (R133-R150) -/

/-- IADD, ISUB, IMUL, IMIN and IMAX on one register, and IABS: element by element, the exact result of the operation clamped to the
type under SAT and otherwise taken modulo 2^w, for every TY of one register; the result carries the TY's tag, lands after 4 clocks (IMUL:
5), and sets no flag of its own (R106, R136, R137, R139).
IADD64 and ISUB64, and IMIN and IMAX of a 64-bit TY, on register pairs: the exact result clamped to the 64-bit range under SAT and
otherwise taken modulo 2^64; the low half goes to D with tag I64L and the high half to the next register with tag I64H, low half
first (R135, R139, R148). -/
def Obligations.IntegerArithmetic : Prop :=
  (∀ (s : State) (v : View) (f : Fields) (ls : List Lanes) (fl : Word), tyWide f.ty = false →
    let w := tyWidth f.ty
    let sg := tySigned f.ty
    (∀ c ∈ ([(.iadd, (· + ·), 4), (.isub, (· - ·), 4), (.imul, (· * ·), 5), (.imin, min, 4), (.imax, max, 4)]
          : List ((Fields → Instr) × (Int → Int → Int) × Nat)),
      Reads s v (c.1 f) f (binSrcs f) ls fl →
        ∃ r, exec (c.1 f) s = .next (s.commitFixed v (c.1 f) f.signal c.2.2 ⟨[(f.d, v.active f.guard, ⟨tyTag f.ty, r⟩)], fl⟩)
          ∧ ∀ (l : Fin 32) (i : Nat), i < 32 / w → element w (lane r l) i
              = delivered w sg f.sat (c.2.1 (elementValue sg (element w (src ls 0 l) i)) (elementValue sg (element w (src ls 1 l) i))))
      ∧ (Reads s v (.iabs f) f (unarySrcs f) ls fl →
        ∃ r, exec (.iabs f) s = .next (s.commitFixed v (.iabs f) f.signal 4 ⟨[(f.d, v.active f.guard, ⟨tyTag f.ty, r⟩)], fl⟩)
          ∧ ∀ (l : Fin 32) (i : Nat), i < 32 / w → element w (lane r l) i
              = delivered w sg f.sat |elementValue sg (element w (src ls 0 l) i)|))
  ∧ (∀ (s : State) (v : View) (f : Fields) (ls : List Lanes) (fl : Word), tyWide f.ty = true →
    ∀ c ∈ ([(.iadd64, (· + ·)), (.isub64, (· - ·)), (.imin, min), (.imax, max)] : List ((Fields → Instr) × (Int → Int → Int))),
      Reads s v (c.1 f) f (binSrcs f) ls fl →
        ∃ lo hi, exec (c.1 f) s = .next (s.commitFixed v (c.1 f) f.signal 4
            ⟨[(f.d, v.active f.guard, ⟨tagI64L, lo⟩), (operandAdd f.d 1, v.active f.guard, ⟨tagI64H, hi⟩)], fl⟩)
          ∧ ∀ l : Fin 32, lane hi l ++ lane lo l
              = delivered 64 (f.ty == 2) f.sat (c.2 (elementValue (f.ty == 2) (src64 ls 0 l)) (elementValue (f.ty == 2) (src64 ls 2 l))))

/-- IMULH and IMULW form the exact 64-bit product of x and y, signed under .s32 and unsigned under .n32: IMULH writes its high 32 bits,
IMULW the low half with tag I64L and the high half with tag I64H. IMAD adds a third source to the exact product with one wrap or clamp,
and ISAD adds the absolute differences of the elements to an N32 addend modulo 2^32 (R139, R140, R141). -/
def Obligations.ProductsAndSums : Prop :=
  ∀ (s : State) (v : View) (f : Fields) (ls : List Lanes) (fl : Word),
    let val (x : Word) : Int := elementValue (f.ty == 0) x
    let e : List Expect := [.tag (tyTag f.ty)]
    (f.ty ≤ 1 → Reads s v (.imulh f) f (binSrcs f) ls fl →
      ∃ r, exec (.imulh f) s = .next (s.commitFixed v (.imulh f) f.signal 5 ⟨[(f.d, v.active f.guard, ⟨tyTag f.ty, r⟩)], fl⟩)
        ∧ ∀ l, lane r l = (BitVec.ofInt 64 (val (src ls 0 l) * val (src ls 1 l))).extractLsb' 32 32)
      ∧ (f.ty ≤ 1 → Reads s v (.imulw f) f (binSrcs f) ls fl →
        ∃ lo hi, exec (.imulw f) s = .next (s.commitFixed v (.imulw f) f.signal 5
            ⟨[(f.d, v.active f.guard, ⟨tagI64L, lo⟩), (operandAdd f.d 1, v.active f.guard, ⟨tagI64H, hi⟩)], fl⟩)
          ∧ ∀ l, lane hi l ++ lane lo l = BitVec.ofInt 64 (val (src ls 0 l) * val (src ls 1 l)))
      ∧ (f.ty ≤ 1 → Reads s v (.imad f) f (regSrcs f.a e ++ regSrcs f.b e ++ src3 f (srcTyOf f.ty) e) ls fl →
        ∃ r, exec (.imad f) s = .next (s.commitFixed v (.imad f) f.signal 5 ⟨[(f.d, v.active f.guard, ⟨tyTag f.ty, r⟩)], fl⟩)
          ∧ ∀ l, lane r l = delivered 32 (f.ty == 0) f.sat (val (src ls 0 l) * val (src ls 1 l) + val (src ls 2 l)))
      ∧ (f.ty ≤ 1 ∨ f.ty = 9 ∨ f.ty = 10 →
        Reads s v (.isad f) f (regSrcs f.a e ++ regSrcs f.b e ++ src3 f .n32 [.tag tagN32]) ls fl →
        ∃ r, exec (.isad f) s = .next (s.commitFixed v (.isad f) f.signal 4 ⟨[(f.d, v.active f.guard, ⟨tagN32, r⟩)], fl⟩)
          ∧ (f.ty ≤ 1 → ∀ l, lane r l
              = BitVec.ofNat 32 ((src ls 2 l).toNat + (val (src ls 0 l) - val (src ls 1 l)).natAbs))
          ∧ (f.ty = 10 → ∀ l, lane r l = BitVec.ofNat 32 ((src ls 2 l).toNat + ((List.range 4).map fun i =>
              ((element 8 (src ls 0 l) i).toNat - (element 8 (src ls 1 l) i).toNat : Int).natAbs).sum))
          ∧ (f.ty = 9 → ∀ l, lane r l = BitVec.ofNat 32 ((src ls 2 l).toNat + ((List.range 4).map fun i =>
              ((element 8 (src ls 0 l) i).toInt - (element 8 (src ls 1 l) i).toInt).natAbs).sum)))

/-- AND, OR, XOR, ANDN, SEL and MOV act on bits under any tag and write the tag of their TY: logic on a register or on a pair, SEL the
first source in the lanes whose third is not zero and the second elsewhere, MOV its source (R45, R143). -/
def Obligations.LogicAndMoves : Prop :=
  ∀ (s : State) (v : View) (f : Fields) (ls : List Lanes) (fl : Word),
    let one (i : Instr) (r : Lanes) := exec i s = .next (s.commitFixed v i f.signal 4 ⟨[(f.d, v.active f.guard, ⟨tyTag f.ty, r⟩)], fl⟩)
    let two (i : Instr) (lo hi : Lanes) := exec i s = .next (s.commitFixed v i f.signal 4
      ⟨[(f.d, v.active f.guard, ⟨tagI64L, lo⟩), (operandAdd f.d 1, v.active f.guard, ⟨tagI64H, hi⟩)], fl⟩)
    (∀ c ∈ ([(.and, fun a b => a && b), (.or, fun a b => a || b), (.xor, fun a b => a != b), (.andn, fun a b => a && !b)]
          : List ((Fields → Instr) × (Bool → Bool → Bool))),
      Reads s v (c.1 f) f (logicSrcs f) ls fl →
        (tyWide f.ty = false → ∃ r, one (c.1 f) r ∧ ∀ (l : Fin 32) (i : Nat), i < 32 →
          (lane r l).getLsbD i = c.2 ((src ls 0 l).getLsbD i) ((src ls 1 l).getLsbD i))
        ∧ (tyWide f.ty = true → ∃ lo hi, two (c.1 f) lo hi ∧ ∀ (l : Fin 32) (i : Nat), i < 32 →
          (lane lo l).getLsbD i = c.2 ((src ls 0 l).getLsbD i) ((src ls 2 l).getLsbD i)
            ∧ (lane hi l).getLsbD i = c.2 ((src ls 1 l).getLsbD i) ((src ls 3 l).getLsbD i)))
      ∧ (Reads s v (.sel f) f (regSrcs f.a (anyExpect f.ty) ++ regSrcs f.b (anyExpect f.ty) ++ [.reg (extReg f) .any]) ls fl →
        (tyWide f.ty = false → ∃ r, one (.sel f) r ∧ ∀ l, lane r l = if src ls 2 l = 0#32 then src ls 1 l else src ls 0 l)
        ∧ (tyWide f.ty = true → ∃ lo hi, two (.sel f) lo hi ∧ ∀ l,
            lane lo l = (if src ls 4 l = 0#32 then src ls 2 l else src ls 0 l)
              ∧ lane hi l = if src ls 4 l = 0#32 then src ls 3 l else src ls 1 l))
      ∧ (Reads s v (.mov f) f (if f.ext = .none then regSrcs f.a (anyExpect f.ty) else xWords (srcTyOf f.ty) f.ext) ls fl →
        (tyWide f.ty = false → ∃ r, one (.mov f) r ∧ ∀ l, lane r l = src ls 0 l)
        ∧ (tyWide f.ty = true → ∃ lo hi, two (.mov f) lo hi ∧ ∀ l, lane lo l = src ls 0 l ∧ lane hi l = src ls 1 l))

/-- Shifts and rotates with a count that is not masked: SHL and SHR of 32 or more give zero, SRA then gives the sign in every bit, ROT
takes the count modulo 32, and SHF takes 32 bits of the pair a:b, with a count above 32 acting as 32. Given bit by bit (R144). -/
def Obligations.Shifts : Prop :=
  ∀ (s : State) (v : View) (f : Fields) (ls : List Lanes) (fl : Word),
    let one (i : Instr) (t : Tag) (r : Lanes) := exec i s = .next (s.commitFixed v i f.signal 4 ⟨[(f.d, v.active f.guard, ⟨t, r⟩)], fl⟩)
    let a (l : Fin 32) := src ls 0 l
    let n (l : Fin 32) := (src ls 1 l).toNat
    (Reads s v (.shl f) f (countSrcs f) ls fl → ∃ r, one (.shl f) (tyTag f.ty) r ∧ ∀ (l : Fin 32) (i : Nat), i < 32 →
        (lane r l).getLsbD i = (decide (n l ≤ i) && (a l).getLsbD (i - n l)))
      ∧ (Reads s v (.shr f) f (countSrcs f) ls fl → ∃ r, one (.shr f) (tyTag f.ty) r ∧ ∀ (l : Fin 32) (i : Nat), i < 32 →
        (lane r l).getLsbD i = (decide (i + n l < 32) && (a l).getLsbD (i + n l)))
      ∧ (Reads s v (.sra f) f (countSrcs f) ls fl → ∃ r, one (.sra f) tagS32 r ∧ ∀ (l : Fin 32) (i : Nat), i < 32 →
        (lane r l).getLsbD i = if i + n l < 32 then (a l).getLsbD (i + n l) else (a l).getLsbD 31)
      ∧ (Reads s v (.rot f) f (countSrcs f) ls fl → ∃ r, one (.rot f) tagN32 r ∧ ∀ (l : Fin 32) (i : Nat), i < 32 →
        (lane r l).getLsbD i = if f.var3 = 1 then (a l).getLsbD ((i + n l) % 32) else (a l).getLsbD ((i + 32 - n l % 32) % 32))
      ∧ (Reads s v (.shf f) f (regSrcs f.a [.tag tagN32] ++ regSrcs f.b [.tag tagN32] ++ src3 f .n32 [.tag tagN32]) ls fl →
        ∃ r, one (.shf f) tagN32 r ∧ ∀ (l : Fin 32) (i : Nat), i < 32 →
          let k := min (src ls 2 l).toNat 32
          let pair (j : Nat) : Bool := if j < 32 then (src ls 1 l).getLsbD j else (src ls 0 l).getLsbD (j - 32)
          (lane r l).getLsbD i = if f.var3 = 1 then (decide (i + k < 64) && pair (i + k)) else (decide (k ≤ i + 32) && pair (i + 32 - k)))

/-- Bit fields, with start s, length n and m = min(n, 32 − s): BFX gives m bits of a from s, sign-extended under .s32, and BFI places the low m
bits of a at s of b; a length of 0 or a start above 31 gives 0 and b. POPC, CLZ, CTZ and BREV count and reverse; CLZ and CTZ of 0
give 32 (R145, R146). -/
def Obligations.BitFieldsAndCounts : Prop :=
  ∀ (s : State) (v : View) (f : Fields) (ls : List Lanes) (fl : Word),
    let one (i : Instr) (t : Tag) (r : Lanes) := exec i s = .next (s.commitFixed v i f.signal 4 ⟨[(f.d, v.active f.guard, ⟨t, r⟩)], fl⟩)
    let st (c : Word) := (c.extractLsb' 0 8).toNat
    let m (c : Word) := min (c.extractLsb' 8 8).toNat (32 - st c)
    let a (l : Fin 32) := src ls 0 l
    (Reads s v (.bfx f) f (countSrcs f) ls fl → ∃ r, one (.bfx f) (tyTag f.ty) r ∧ ∀ (l : Fin 32) (i : Nat), i < 32 →
        let c := src ls 1 l
        (lane r l).getLsbD i = if m c = 0 then false else if i < m c then (a l).getLsbD (st c + i)
          else tySigned f.ty && (a l).getLsbD (st c + m c - 1))
      ∧ (Reads s v (.bfi f) f (regSrcs f.a [.tag tagN32] ++ regSrcs f.b [.tag tagN32] ++ src3 f .n32 [.tag tagN32]) ls fl →
        ∃ r, one (.bfi f) tagN32 r ∧ ∀ (l : Fin 32) (i : Nat), i < 32 →
          let c := src ls 2 l
          (lane r l).getLsbD i = if st c ≤ i ∧ i < st c + m c then (a l).getLsbD (i - st c) else (src ls 1 l).getLsbD i)
      ∧ (Reads s v (.popc f) f (unarySrcs f) ls fl → ∃ r, one (.popc f) tagN32 r
        ∧ ∀ l, (lane r l).toNat = ((List.range 32).filter fun i => (a l).getLsbD i).length)
      ∧ (Reads s v (.clz f) f (unarySrcs f) ls fl → ∃ r, one (.clz f) tagN32 r
        ∧ ∀ l, (a l = 0#32 → lane r l = 32#32) ∧ (a l ≠ 0#32 → (lane r l).toNat < 32 ∧ (a l).getLsbD (31 - (lane r l).toNat) = true
          ∧ ∀ j, 31 - (lane r l).toNat < j → (a l).getLsbD j = false))
      ∧ (Reads s v (.ctz f) f (unarySrcs f) ls fl → ∃ r, one (.ctz f) tagN32 r
        ∧ ∀ l, (a l = 0#32 → lane r l = 32#32) ∧ (a l ≠ 0#32 → (lane r l).toNat < 32 ∧ (a l).getLsbD (lane r l).toNat = true
          ∧ ∀ j, j < (lane r l).toNat → (a l).getLsbD j = false))
      ∧ (Reads s v (.brev f) f (unarySrcs f) ls fl → ∃ r, one (.brev f) tagN32 r
        ∧ ∀ (l : Fin 32) (i : Nat), i < 32 → (lane r l).getLsbD i = (a l).getLsbD (31 - i))

/-- ICMP writes 1 or 0 with tag PRED by its relation, on 32-bit values or on pairs, signed or unsigned by its TY. LEA adds to a 64-bit base
a 32-bit index, sign-extended under .s32 and zero-extended under .n32, shifted left by VAR, and a sign-extended offset, modulo 2^64; the
result carries A64L and A64H (R147, R149). -/
def Obligations.ComparesAndAddresses : Prop :=
  ∀ (s : State) (v : View) (f : Fields) (ls : List Lanes) (fl : Word),
    let holds (x y : Int) : Prop := (f.cc = 0 ∧ x = y) ∨ (f.cc = 1 ∧ x ≠ y) ∨ (f.cc = 2 ∧ x < y) ∨ (f.cc = 3 ∧ x ≤ y)
      ∨ (f.cc = 4 ∧ y < x) ∨ (f.cc = 5 ∧ y ≤ x)
    (f.ty ≤ 3 → f.cc ≤ 5 → Reads s v (.icmp f) f (binSrcs f) ls fl →
      ∃ r, exec (.icmp f) s = .next (s.commitFixed v (.icmp f) f.signal 4 ⟨[(f.d, v.active f.guard, ⟨tagPred, r⟩)], fl⟩)
        ∧ ∀ l, (lane r l = 1#32 ∨ lane r l = 0#32)
          ∧ (f.ty = 0 → (lane r l = 1#32 ↔ holds (src ls 0 l).toInt (src ls 1 l).toInt))
          ∧ (f.ty = 1 → (lane r l = 1#32 ↔ holds (src ls 0 l).toNat (src ls 1 l).toNat))
          ∧ (f.ty = 2 → (lane r l = 1#32 ↔ holds (src64 ls 0 l).toInt (src64 ls 2 l).toInt))
          ∧ (f.ty = 3 → (lane r l = 1#32 ↔ holds (src64 ls 0 l).toNat (src64 ls 2 l).toNat)))
      ∧ (f.ty ≤ 1 → Reads s v (.lea f) f (regSrcs f.a [.tag tagA64L, .tag tagA64H] ++ regSrcs f.b [.tag (tyTag f.ty)]
            ++ (if f.ext = .none then [.word 0#32] else xWords .s32 f.ext)) ls fl →
        ∃ lo hi, exec (.lea f) s = .next (s.commitFixed v (.lea f) f.signal 4
            ⟨[(f.d, v.active f.guard, ⟨tagA64L, lo⟩), (operandAdd f.d 1, v.active f.guard, ⟨tagA64H, hi⟩)], fl⟩)
          ∧ ∀ l, lane hi l ++ lane lo l = BitVec.ofInt 64 ((src64 ls 0 l).toNat
              + (if f.ty = 0 then (src ls 2 l).toInt else (src ls 2 l).toNat) * 2 ^ f.var3 + (src ls 3 l).toInt))

/-- IDIV is sent to the special-function unit with the result of its sources at issue: the quotient truncated towards zero or, under .rem,
the remainder with the dividend's sign; a divisor of 0 gives all ones and the dividend, and the most negative number divided by −1
gives itself and 0; pairs under the 64-bit types. Its counter rises. With no active lane nothing is sent, and the
counter and the flags of the reads take their place in the counter's order (R42, R142, R167). -/
def Obligations.Divide : Prop :=
  ∀ (s : State) (v : View) (f : Fields) (ls : List Lanes) (fl : Word) (k : Nat), f.ty ≤ 3 → f.var3 ≤ 1 → f.signal = some k →
    Reads s v (.idiv f) f (binSrcs f) ls fl →
    let sg := f.ty == 0 || f.ty == 2
    let good (w : Nat) (a b r : BitVec w) : Prop :=
      let x := elementValue sg a
      let y := elementValue sg b
      (y = 0 → r = if f.var3 = 1 then a else BitVec.allOnes w)
        ∧ (sg = true → x = -(2 ^ (w - 1)) → y = -1 → r = if f.var3 = 1 then 0#w else a)
        ∧ (y ≠ 0 → ¬ (sg = true ∧ x = -(2 ^ (w - 1)) ∧ y = -1) →
            elementValue sg r = if f.var3 = 1 then x.tmod y else x.tdiv y)
    (v.active f.guard = 0#32 → ∃ t, exec (.idiv f) s = .next t ∧ Idle s t v k fl ∧ ((t.core v.g.core).sub v.g.sub).sfu = v.sub.sfu)
      ∧ (v.active f.guard ≠ 0#32 → ∃ t g o, exec (.idiv f) s = .next t ∧ Queued t v g k ∧ SameOutsideCore s t v.g.core
        ∧ o ∈ ((t.core v.g.core).sub v.g.sub).sfu ∧ o.slot = v.g.slot ∧ o.fib = v.g.fib ∧ o.id = v.fib.nextId
        ∧ o.instr = .idiv f ∧ o.flags = fl
        ∧ (f.ty ≤ 1 → ∃ r, o.writes = [⟨v.place f.d, v.active f.guard, ⟨tyTag f.ty, r⟩⟩]
            ∧ ∀ l, good 32 (src ls 0 l) (src ls 1 l) (lane r l))
        ∧ (2 ≤ f.ty → ∃ lo hi, o.writes = [⟨v.place f.d, v.active f.guard, ⟨tagI64L, lo⟩⟩,
              ⟨v.place (operandAdd f.d 1), v.active f.guard, ⟨tagI64H, hi⟩⟩]
            ∧ ∀ l, good 64 (src64 ls 0 l) (src64 ls 2 l) (lane hi l ++ lane lo l)))

/-! ### Floating point and the special-function unit (R151-R172) -/

/-- Every fixed-latency word of the floating class carries out its lane function on the sources of its shape, writes the tag of its row, lands
after 4 clocks, and raises the flags of its active lanes only: FADD, FSUB, FMUL, FMIN, FMAX, FCMP, FSCALE, the packed HADD2, HMUL2, HMNX2 and
HCMP2, FRND and FCLASS, and the three-source FFMA, HFMA2, FDOT2 and FDOT4. What the lane functions give stands in RoundedArithmetic, for
every operand and rounding mode, and in FloatingSpecialOperands (R155, R157-R166). -/
def Obligations.FloatingWords : Prop :=
  ∀ (s : State) (v : View) (f : Fields) (ls : List Lanes) (fl : Word),
    let z := v.fib.ftz
    let m := rmodeOf f.rmF 0#32
    let p := if f.ty = 5 then fmtF16 else fmtBf16
    let done (i : Instr) (t : Tag) (g : Fin 32 → Word × Word) :=
      ∃ r w, exec i s = .next (s.commitFixed v i f.signal 4 ⟨[(f.d, v.active f.guard, ⟨t, r⟩)], w⟩) ∧ (∀ l, lane r l = (g l).1)
        ∧ ∀ b : Nat, w.getLsbD b = true ↔ fl.getLsbD b = true ∨ ∃ l : Fin 32, (v.active f.guard).getLsbD l = true ∧ (g l).2.getLsbD b = true
    (∀ c ∈ ([(.fadd, fbinSrcs f .f32 tagF32, tagF32, faddLane z m), (.fsub, fbinSrcs f .f32 tagF32, tagF32, fsubLane z m),
             (.fmul, fbinSrcs f .f32 tagF32, tagF32, fmulLane z m), (.fmin, fbinSrcs f .f32 tagF32, tagF32, fminmaxLane z false),
             (.fmax, fbinSrcs f .f32 tagF32, tagF32, fminmaxLane z true), (.fcmp, fbinSrcs f .f32 tagF32, tagPred, fcmpLane z f.cc),
             (.fscale, regSrcs f.a [.tag tagF32] ++ srcB f .s32 [.tag tagS32], tagF32, fscaleLane z m),
             (.hadd2, fbinSrcs f .p16 (tyTag f.ty), tyTag f.ty, hadd2Lane p m), (.hmul2, fbinSrcs f .p16 (tyTag f.ty), tyTag f.ty, hmul2Lane p m),
             (.hmnx2, fbinSrcs f .p16 (tyTag f.ty), tyTag f.ty, hmnx2Lane p f.varF),
             (.hcmp2, fbinSrcs f .p16 (tyTag f.ty), tagN32, hcmp2Lane p f.cc)]
          : List ((Fields → Instr) × List Src × Tag × (Word → Word → Word × Word))),
      Reads s v (c.1 f) f c.2.1 ls fl → done (c.1 f) c.2.2.1 fun l => c.2.2.2 (src ls 0 l) (src ls 1 l))
      ∧ (∀ c ∈ ([(.frnd, tagF32, frndLane z m), (.fclass, tagN32, fun x => (classMask x, 0#32))]
          : List ((Fields → Instr) × Tag × (Word → Word × Word))),
        Reads s v (c.1 f) f (regSrcs f.a [.tag tagF32]) ls fl → done (c.1 f) c.2.1 fun l => c.2.2 (src ls 0 l))
      ∧ (∀ c ∈ ([(.ffma, fternSrcs f tagF32 .f32 tagF32, tagF32, ffmaLane z m),
                 (.hfma2, fternSrcs f (tyTag f.ty) .p16 (tyTag f.ty), tyTag f.ty, hfma2Lane p m),
                 (.fdot2, fternSrcs f (tyTag f.ty) .f32 tagF32, tagF32, fdot2Lane z p m),
                 (.fdot4, fternSrcs f (BitVec.ofNat 6 (32 + f.qIndex)) .f32 tagF32, tagF32,
                   fdot4Lane z (fmtBinary8 f.qIndex) (rmodeOf (f.sub.toNat % 8) 0#32))]
          : List ((Fields → Instr) × List Src × Tag × (Word → Word → Word → Word × Word))),
        Reads s v (c.1 f) f c.2.1 ls fl → done (c.1 f) c.2.2.1 fun l => c.2.2.2 (src ls 0 l) (src ls 1 l) (src ls 2 l))

/-- FP32 arithmetic on special operands, for every rounding mode and with or without FTZ, in terms of the bits: a NaN operand gives the
canonical NaN, with NV when one is signalling; unlike infinities added, a zero times an infinity, zero over zero and infinity over infinity
give the canonical NaN with NV; a finite nonzero number over a zero gives an infinity of the XOR of the signs with DZ; the square root of a
negative number is NaN with NV; FADD and FMUL commute; minimumNumber and maximumNumber return the operand that is no NaN, and put −0
below +0; a comparison with a NaN fails under CC 0-5 and 12 and holds under 6-11 and 13 (R153, R154, R159, R160, R161, R170). -/
def Obligations.FloatingSpecialOperands : Prop :=
  ∀ (z : Bool) (m : RMode) (x y : Word),
    let mag (w : Word) := w &&& 0x7FFF_FFFF#32
    let nan (w : Word) : Prop := (0x7F80_0000#32).ult (mag w) = true
    let sig (w : Word) : Prop := nan w ∧ w.getLsbD 22 = false
    let inf (w : Word) : Prop := mag w = 0x7F80_0000#32
    let zero (w : Word) : Prop := mag w = 0#32
    let normal (w : Word) : Prop := (mag w).ult 0x7F80_0000#32 = true ∧ (0x007F_FFFF#32).ult (mag w) = true
    let sgn (a b : Word) : Word := (a ^^^ b) &&& 0x8000_0000#32
    let qnan : Word := 0x7FC0_0000#32
    (∀ g ∈ [faddLane z m, fsubLane z m, fmulLane z m, fdivLane z m],
      (nan x ∨ nan y → (g x y).1 = qnan ∧ ((sig x ∨ sig y) → (g x y).2 = flagNV) ∧ (¬ (sig x ∨ sig y) → (g x y).2 = 0#32)))
      ∧ faddLane z m x y = faddLane z m y x ∧ fmulLane z m x y = fmulLane z m y x
      ∧ (inf x → inf y → x ≠ y → faddLane z m x y = (qnan, flagNV))
      ∧ (inf x → ¬ nan y → ¬ inf y → faddLane z m x y = (x, 0#32))
      ∧ (zero x → inf y → fmulLane z m x y = (qnan, flagNV))
      ∧ ((zero x ∧ zero y) ∨ (inf x ∧ inf y) → fdivLane z m x y = (qnan, flagNV))
      ∧ (normal x → zero y → fdivLane z m x y = (sgn x y ||| 0x7F80_0000#32, flagDZ))
      ∧ (normal x → inf y → fdivLane z m x y = (sgn x y, 0#32))
      ∧ (normal x → x.getLsbD 31 = true → fsqrtLane z m x = (qnan, flagNV))
      ∧ (zero x → fsqrtLane z m x = (x, 0#32))
      ∧ (∀ b, nan x → normal y → (fminmaxLane z b x y).1 = y ∧ (fminmaxLane z b y x).1 = y)
      ∧ fminmaxLane z false 0x8000_0000#32 0#32 = (0x8000_0000#32, 0#32) ∧ fminmaxLane z true 0x8000_0000#32 0#32 = (0#32, 0#32)
      ∧ (∀ cc, cc ≤ 13 → nan x ∨ nan y → (fcmpLane z cc x y).1 = if cc ≤ 5 ∨ cc = 12 then 0#32 else 1#32)
      ∧ (∀ cc, cc ≤ 5 → zero x → zero y → (fcmpLane z cc x y).1 = if cc = 0 ∨ cc = 3 ∨ cc = 5 then 1#32 else 0#32)

/-- The numbers of the specification's examples and corner values. Arithmetic: FSCALE of 2^-126 by -2 and by -24 (R164), HADD2 with its inexact element
(R165), FDIV of 1 by 3 in each mode (R170), FRND of −0.7 towards zero (R162), the classes of R163, and that overflow goes to infinity or to
the largest number by the mode (R152). Conversion: the four columns of the table of R185, the stochastic rounding of 0.3 with the two
states that follow 1 (R182), the codes of binary6p3 (R177), and the block scale of 300 for a largest finite value of 224 (R190). -/
def Obligations.ArithmeticExamples : Prop :=
  (fscaleLane false .rne 0x0080_0000#32 0xFFFF_FFFE#32 = (0x0020_0000#32, 0#32)
    ∧ fscaleLane false .rne 0x0080_0000#32 0xFFFF_FFE8#32 = (0#32, flagUF ||| flagNX)
    ∧ hadd2Lane fmtF16 .rne 0x7BFF_3C00#32 0x0400_3C00#32 = (0x7BFF_4000#32, flagNX)
    ∧ (∀ m, m = .rne ∨ m = .rup ∨ m = .rna → fdivLane false m 0x3F80_0000#32 0x4040_0000#32 = (0x3EAA_AAAB#32, flagNX))
    ∧ (∀ m, m = .rtz ∨ m = .rdn → fdivLane false m 0x3F80_0000#32 0x4040_0000#32 = (0x3EAA_AAAA#32, flagNX))
    ∧ (frndLane false .rtz 0xBF33_3333#32).1 = 0x8000_0000#32
    ∧ fmulLane false .rne 0x7F7F_FFFF#32 0x4000_0000#32 = (0x7F80_0000#32, flagOF ||| flagNX)
    ∧ fmulLane false .rtz 0x7F7F_FFFF#32 0x4000_0000#32 = (0x7F7F_FFFF#32, flagOF ||| flagNX)
    ∧ fmulLane true .rne 0x0080_0000#32 0x3F00_0000#32 = (0#32, flagUF ||| flagNX)
    ∧ (∀ w : Word, classMask w = 1#32 ∨ classMask w = 2#32 ∨ classMask w = 4#32 ∨ classMask w = 8#32 ∨ classMask w = 16#32
        ∨ classMask w = 32#32 ∨ classMask w = 64#32 ∨ classMask w = 128#32 ∨ classMask w = 256#32 ∨ classMask w = 512#32)
    ∧ classMask 0x7F80_0001#32 = 1#32 ∧ classMask 0x7FC0_0000#32 = 2#32 ∧ classMask 0xFF80_0000#32 = 4#32
    ∧ classMask 0x8000_0000#32 = 32#32 ∧ classMask 0#32 = 64#32 ∧ classMask 1#32 = 128#32 ∧ classMask 0x8000_0001#32 = 16#32)
  ∧ (let cv (fc : Nat) (m : RMode) (sat : Bool) (c : Nat) := convElem false 3 fc m sat c
  let un := flagUF ||| flagNX
  let ov := flagOF ||| flagNX
  (∀ c ∈ ([(0x3F80_0000, (0x40, 0#32), (0x40, 0#32), (0x40, 0#32), (0x40, 0#32)),
           (0x3E99_999A, (0x32, flagNX), (0x31, flagNX), (0x32, flagNX), (0x32, flagNX)),
           (0x8000_0000, (0, 0#32), (0, 0#32), (0, 0#32), (0, 0#32)),
           (0x4366_0000, (0x7E, flagNX), (0x7E, flagNX), (0x7E, flagNX), (0x7E, flagNX)),
           (0x436B_0000, (0x7F, ov), (0x7E, flagNX), (0x7E, ov), (0x7F, flagNX)),
           (0x4396_0000, (0x7F, ov), (0x7E, ov), (0x7E, ov), (0x80, flagNV)),
           (0x3A00_0000, (0, un), (0, un), (0, un), (0, un)),
           (0x7F80_0000, (0x7F, 0#32), (0x7F, 0#32), (0x7F, 0#32), (0x80, flagNV)),
           (0x7FC0_0000, (0x80, 0#32), (0x80, 0#32), (0x80, 0#32), (0x80, 0#32))]
        : List (Nat × (Nat × Word) × (Nat × Word) × (Nat × Word) × (Nat × Word))),
      cv 36 .rne false c.1 = c.2.1 ∧ cv 36 .rtz false c.1 = c.2.2.1 ∧ cv 36 .rne true c.1 = c.2.2.2.1 ∧ cv 44 .rne false c.1 = c.2.2.2.2)
    ∧ rsrStep 1#32 = 0x0004_2021#32 ∧ rsrStep 0x0004_2021#32 = 0x0408_0601#32
    ∧ cv 36 (.rsr 0x0004_2021#32) false 0x3E99_999A = (0x32, flagNX)
    ∧ cv 21 .rne false 0x3D00_0000 = (1, 0#32) ∧ cv 21 .rne false 0x3F80_0000 = (0x10, 0#32) ∧ cv 21 .rne false 0xFF80_0000 = (0x3F, 0#32)
    ∧ (blockScale (fmtOfFc 36) [in32 false 0x4396_0000#32, in32 false 0x3F80_0000#32]).1 = 0x81)

/-- RCP, RSQ, SQRT, EXP2, LOG2, SIN, COS, TANH and FDIV are sent to the sub-partition's special-function unit with the results of their
sources at issue: one destination with tag F32 in the active lanes, flags from active lanes only; the counter rises and no register is
written. With no active lane nothing is sent, and the counter and the flags of the reads take their place in the counter's order (R42, R107,
R158, R167). -/
def Obligations.SpecialFunctionIssue : Prop :=
  ∀ (s : State) (v : View) (f : Fields) (ls : List Lanes) (fl : Word) (k : Nat), f.signal = some k →
    let z := v.fib.ftz
    let m := rmodeOf f.rmF 0#32
    ∀ c ∈ ([(.rcp, regSrcs f.a [.tag tagF32], fun x _ => rcpLane z x), (.rsq, regSrcs f.a [.tag tagF32], fun x _ => rsqLane z x),
            (.sqrt, regSrcs f.a [.tag tagF32], fun x _ => fsqrtLane z m x), (.exp2, regSrcs f.a [.tag tagF32], fun x _ => exp2Lane z x),
            (.log2, regSrcs f.a [.tag tagF32], fun x _ => log2Lane z x), (.sin, regSrcs f.a [.tag tagF32], fun x _ => sincosLane 0x66 z x),
            (.cos, regSrcs f.a [.tag tagF32], fun x _ => sincosLane 0x67 z x), (.tanh, regSrcs f.a [.tag tagF32], fun x _ => tanhLane z x),
            (.fdiv, fbinSrcs f .f32 tagF32, fun x y => fdivLane z m x y)]
          : List ((Fields → Instr) × List Src × (Word → Word → Word × Word))),
      Reads s v (c.1 f) f c.2.1 ls fl →
        (v.active f.guard = 0#32 → ∃ t, exec (c.1 f) s = .next t ∧ Idle s t v k fl ∧ ((t.core v.g.core).sub v.g.sub).sfu = v.sub.sfu)
        ∧ (v.active f.guard ≠ 0#32 → ∃ t g o r, exec (c.1 f) s = .next t ∧ Queued t v g k ∧ SameOutsideCore s t v.g.core
          ∧ ((t.core v.g.core).sub v.g.sub).bank = v.sub.bank
          ∧ o ∈ ((t.core v.g.core).sub v.g.sub).sfu ∧ o.slot = v.g.slot ∧ o.fib = v.g.fib ∧ o.id = v.fib.nextId ∧ o.instr = c.1 f
          ∧ o.writes = [⟨v.place f.d, v.active f.guard, ⟨tagF32, r⟩⟩]
          ∧ (∀ l, lane r l = (c.2.2 (src ls 0 l) (src ls 1 l)).1)
          ∧ ∀ b : Nat, o.flags.getLsbD b = true ↔ fl.getLsbD b = true
              ∨ ∃ l : Fin 32, (v.active f.guard).getLsbD l = true ∧ (c.2.2 (src ls 0 l) (src ls 1 l)).2.getLsbD b = true)

/-- The special operands of R169, for RCP, RSQ, EXP2, LOG2, SIN, COS and TANH, whatever the free function of R168 is, for every NaN, infinity
and zero, every negative operand of RSQ and LOG2, every operand of EXP2 from 128 up and every one whose reciprocal is too large for FP32; under FTZ
a subnormal operand is a zero. And the results that R168 makes exact: RCP of a power of two with a normal reciprocal, RSQ of a power of four,
EXP2 of an integer with a normal result, LOG2 of a power of two outside [0.5, 2] and of 1, TANH below 2^-12. -/
def Obligations.SpecialFunctionOperands : Prop :=
  ∀ (z : Bool) (x : Word),
    let pinf : Word := 0x7F80_0000#32
    let ninf : Word := 0xFF80_0000#32
    let one : Word := 0x3F80_0000#32
    let qnan : Word := 0x7FC0_0000#32
    let bad : Word × Word := (qnan, flagNV)
    let mag := x &&& 0x7FFF_FFFF#32
    let sign := x &&& 0x8000_0000#32
    let nan : Prop := 0x7F80_0000 < mag.toNat
    let inf : Prop := mag = pinf
    let zero : Prop := mag = 0#32 ∨ (z = true ∧ mag.toNat < 0x0080_0000)
    let power (e : Nat) : Prop := 1 ≤ e ∧ mag.toNat = e * 2 ^ 23
    let gs := [rcpLane z, rsqLane z, exp2Lane z, log2Lane z, sincosLane 0x66 z, sincosLane 0x67 z, tanhLane z]
    (nan → ∀ g ∈ gs, g x = (qnan, if x.getLsbD 22 then 0#32 else flagNV))
      ∧ (inf → rcpLane z x = (sign, 0#32) ∧ rsqLane z x = (if sign = 0#32 then (0#32, 0#32) else bad)
        ∧ exp2Lane z x = (if sign = 0#32 then pinf else 0#32, 0#32) ∧ log2Lane z x = (if sign = 0#32 then (pinf, 0#32) else bad)
        ∧ sincosLane 0x66 z x = bad ∧ sincosLane 0x67 z x = bad ∧ tanhLane z x = (sign ||| one, 0#32))
      ∧ (zero → rcpLane z x = (sign ||| pinf, flagDZ) ∧ rsqLane z x = (sign ||| pinf, flagDZ) ∧ exp2Lane z x = (one, 0#32)
        ∧ log2Lane z x = (ninf, flagDZ) ∧ sincosLane 0x66 z x = (sign, 0#32) ∧ sincosLane 0x67 z x = (one, 0#32)
        ∧ tanhLane z x = (sign, 0#32))
      ∧ (sign ≠ 0#32 → ¬ nan → ¬ zero → rsqLane z x = bad ∧ log2Lane z x = bad)
      ∧ (sign = 0#32 → 0x4300_0000 ≤ mag.toNat → mag.toNat < 0x7F80_0000 → exp2Lane z x = (pinf, flagOF))
      ∧ (¬ zero → mag.toNat ≤ 0x0020_0000 → rcpLane z x = (sign ||| pinf, flagOF))
      ∧ (∀ e, power e → e ≤ 253 → rcpLane z x = (sign ||| BitVec.ofNat 32 ((254 - e) * 2 ^ 23), 0#32))
      ∧ (∀ e, power e → e ≤ 253 → e % 2 = 1 → sign = 0#32 → rsqLane z x = (BitVec.ofNat 32 ((381 - e) / 2 * 2 ^ 23), 0#32))
      ∧ (∀ n : Int, -126 ≤ n → n ≤ 127 → mag.toNat < 0x7F80_0000 → fmtF32.real x.toNat = n →
        exp2Lane z x = (BitVec.ofNat 32 ((n + 127).toNat * 2 ^ 23), 0#32))
      ∧ (∀ e, power e → e ≤ 254 → e ≠ 126 → e ≠ 128 → sign = 0#32 → let r := log2Lane z x
        r.2 = 0#32 ∧ (fmtF32.decode r.1.toNat).isInf = false ∧ fmtF32.real r.1.toNat = (e : Int) - 127)
      ∧ (¬ zero → mag.toNat < 0x3980_0000 → tanhLane z x = (x, 0#32))

/-- The special-function unit accepts the first waiting operation of its queue in a clock 4 or more after its last acceptance, and that
operation completes at the end of the clock 12, 16, 20, 24 or 36 later by its instruction; SFU_COMPLETE then writes
its one destination, joins its flags to %gst (with those of the idle words that fall with it), takes the operation out of the unit and lowers the counter in its place in issue
order (R108, R142, R167). -/
def Obligations.SpecialFunctionUnit : Prop :=
  (∀ (s : State) (c b : Nat) (pre post : List SfuOp) (o : SfuOp), ((s.core c).sub b).sfu = pre ++ o :: post →
    (∀ p ∈ pre, p.due ≠ none) → o.due = none → (∀ p ∈ pre ++ post, ¬ (p.slot = o.slot ∧ p.fib = o.fib ∧ p.id = o.id)) →
    ((s.core c).sub b).sfuNext ≤ (s.core c).clock →
    let n := match o.instr with
      | .rcp _ | .rsq _ | .exp2 _ | .log2 _ => 12
      | .sin _ | .cos _ | .tanh _ => 16
      | .fdiv _ => 24
      | .idiv f => if f.ty = 2 ∨ f.ty = 3 then 36 else 20
      | _ => 20
    ∃ t, exec (.sfuAccept c b) s = .next t
      ∧ ((t.core c).sub b).sfu = pre ++ { o with due := some ((s.core c).clock + n) } :: post
      ∧ ((t.core c).sub b).sfuNext = (s.core c).clock + 4 ∧ ((t.core c).sub b).bank = ((s.core c).sub b).bank)
  ∧ (∀ (s : State) (v : View) (o : SfuOp) (d n : Nat) (m : Mask) (r : Reg), s.view v.g = some v → o ∈ v.sub.sfu → o.slot = v.g.slot →
    o.fib = v.g.fib → o.due = some d → d ≤ v.core.clock → (∀ p ∈ v.sub.sfu, p.id = o.id → p = o) → o.writes = [⟨.bank n, m, r⟩] →
    v.fib.aborting = false →
    ∃ t g, exec (.sfuComplete v.g.core v.g.sub o.id) s = .next t ∧ t.fibre? v.g = some g
      ∧ g.outstanding = (v.fib.complete o.id).outstanding ∧ g.gst = (v.fib.complete o.id).gst ||| o.flags ∧ g.off = v.fib.off ∧ g.y0 = v.fib.y0
      ∧ ((t.core v.g.core).sub v.g.sub).sfu = v.sub.sfu.filter (fun p => p ≠ o)
      ∧ ((t.core v.g.core).sub v.g.sub).bank.get n Reg.zero = (v.sub.bank.get n Reg.zero).merge m r
      ∧ (∀ j, j ≠ n → ((t.core v.g.core).sub v.g.sub).bank.get j Reg.zero = v.sub.bank.get j Reg.zero)
      ∧ SameOutsideCore s t v.g.core)

/-- FP32 and packed 16-bit arithmetic as numbers, in every rounding mode of R152, with and without FTZ. A code of FP32, FP16 or BF16 stands
for the number of its fields, an infinity or a NaN (R151); an FP32 operand or result that is subnormal is flushed under FTZ (R153). FADD, FSUB,
FMUL and FFMA, and HADD2, HMUL2 and HFMA2 on both elements, give the exact result rounded once (R159, R165); FDIV, SQRT and FSCALE
round the exact quotient, root and product once (R164, R170); FDOT2 and FDOT4 round the exact sum of their products and addend once
(R166); FRND rounds to an integer and never sets NX (R162); FMIN, FMAX and HMNX2 are minimumNumber and maximumNumber (R160); FCMP and
HCMP2 hold by the table of R161. -/
def Obligations.RoundedArithmetic : Prop :=
  (∀ f ∈ [fmtF32, fmtF16, fmtBf16], ∀ c < 2 ^ f.k,
    let neg := decide (c / 2 ^ (f.k - 1) = 1)
    let m := c % 2 ^ f.t
    let top := c / 2 ^ f.t % 2 ^ (f.k - f.p) = 2 ^ (f.k - f.p) - 1
    (top → m ≠ 0 → f.decode c = .nan (m / 2 ^ (f.t - 1) == 0)) ∧ (top → m = 0 → f.decode c = .inf neg)
      ∧ (¬ top → ∃ n e, f.decode c = .fin neg n e ∧ (f.decode c).rat = f.real c))
  ∧ (∀ (z : Bool) (w : Word) (r : Nat × Word), r.1 < 2 ^ 32 →
    let sub (c : Nat) : Prop := c / 2 ^ 23 % 256 = 0 ∧ c % 2 ^ 23 ≠ 0
    (z = true → sub w.toNat → in32 z w = .fin (w.getLsbD 31) 0 0) ∧ (¬ (z = true ∧ sub w.toNat) → in32 z w = fmtF32.decode w.toNat)
      ∧ (z = true → sub r.1 → out32 z r = (BitVec.ofNat 32 r.1 &&& 0x8000_0000#32, r.2 ||| flagUF ||| flagNX))
      ∧ (¬ (z = true ∧ sub r.1) → out32 z r = (BitVec.ofNat 32 r.1, r.2)))
  ∧ (∀ m ∈ [RMode.rne, .rtz, .rup, .rdn, .rna], ∀ (z : Bool) (x y c : Word),
    let X := in32 z x
    let Y := in32 z y
    let C := in32 z c
    let once (ops : List FVal) (terms : List (Option FVal)) (out : Word × Word) := ∃ r, OneRounding fmtF32 m ops terms true r ∧ out = out32 z r
    let rounds (v : ℝ) (out : Word × Word) := ∃ r, RoundsTo fmtF32 m v r ∧ out = out32 z r
    let finite (v : FVal) := v.isNan = false ∧ v.isInf = false
    let nonzero (v : FVal) := finite v ∧ v.isZero = false
    once [X, Y] [some X, some Y] (faddLane z m x y)
      ∧ once [X, Y] [some X, some Y.negate] (fsubLane z m x y)
      ∧ once [X, Y] [X.times Y] (fmulLane z m x y)
      ∧ once [X, Y, C] [X.times Y, some C] (ffmaLane z m x y c)
      ∧ (nonzero X → nonzero Y → rounds (X.rat / Y.rat : ℚ) (fdivLane z m x y))
      ∧ (nonzero X → X.neg? = false → rounds (Real.sqrt X.rat) (fsqrtLane z m x))
      ∧ (nonzero X → rounds (X.rat * 2 ^ y.toInt : ℚ) (fscaleLane z m x y))
      ∧ (finite X → let r := frndLane z m x
        r.2 = 0#32 ∧ r.1.getLsbD 31 = x.getLsbD 31 ∧ finite (fmtF32.decode r.1.toNat) ∧ fmtF32.real r.1.toNat = m.int X.rat)
      ∧ (∀ b, ∃ r, Lesser fmtF32 b (flush32 z x).toNat (flush32 z y).toNat r ∧ fminmaxLane z b x y = (BitVec.ofNat 32 r.1, r.2))
      ∧ (∀ cc, cc ≤ 13 → ((fcmpLane z cc x y).1 = 1#32 ↔ Compares cc X Y) ∧ ((fcmpLane z cc x y).1 = 0#32 ↔ ¬ Compares cc X Y)
        ∧ (fcmpLane z cc x y).2 = if X.isSnan || Y.isSnan then flagNV else 0#32)
      ∧ ∀ p ∈ [fmtF16, fmtBf16],
        let e (w : Word) (i : Nat) := p.decode (element 16 w i).toNat
        let both (g : Nat → Nat × Word → Prop) (out : Word × Word) :=
          ∃ r0 r1, g 0 r0 ∧ g 1 r1 ∧ out = (BitVec.ofNat 16 r1.1 ++ BitVec.ofNat 16 r0.1, r0.2 ||| r1.2)
        both (fun i => OneRounding p m [e x i, e y i] [some (e x i), some (e y i)] true) (hadd2Lane p m x y)
          ∧ both (fun i => OneRounding p m [e x i, e y i] [(e x i).times (e y i)] true) (hmul2Lane p m x y)
          ∧ both (fun i => OneRounding p m [e x i, e y i, e c i] [(e x i).times (e y i), some (e c i)] true) (hfma2Lane p m x y c)
          ∧ (∀ b, both (fun i => Lesser p b (element 16 x i).toNat (element 16 y i).toNat) (hmnx2Lane p b x y))
          ∧ (∀ cc, cc ≤ 13 → let r := hcmp2Lane p cc x y
            (∀ i, r.1.getLsbD i = true ↔ i < 2 ∧ Compares cc (e x i) (e y i))
              ∧ r.2 = if (e x 0).isSnan || (e x 1).isSnan || (e y 0).isSnan || (e y 1).isSnan then flagNV else 0#32)
          ∧ (∃ r, OneRounding fmtF32 m [e x 0, e x 1, e y 0, e y 1, C] [some C, (e x 0).times (e y 0), (e x 1).times (e y 1)] false r
            ∧ fdot2Lane z p m x y c = out32 z r)
          ∧ ∀ q, let b (w : Word) (i : Nat) := (fmtBinary8 q).decode (element 8 w i).toNat
            ∃ r, OneRounding fmtF32 m (C :: (List.range 4).flatMap fun i => [b x i, b y i])
                (some C :: (List.range 4).map fun i => (b x i).times (b y i)) false r
              ∧ fdot4Lane z (fmtBinary8 q) m x y c = out32 z r)

/-! ### Narrow formats and conversion (R173-R191) -/

/-- CVT, CVTQ and CVTD, under RM 0-4: each element of the result is the conversion of its source element, the old elements 0 and 1 of D become
elements 2 and 3 in the shift form of CVTQ, CVTD writes D and D+1, and 64-bit formats take and give pairs; the result carries the tag of the
destination format, lands after 4 clocks, and the flags are those of the active lanes' elements. Under .rsr the generator of each active lane
steps once for each of its elements, whatever the elements are, and no other generator moves. The order of those steps and NV on the rounded
integer are the model's readings (assumptions 20 and 21; R178, R181, R182, R184, R185). -/
def Obligations.Conversions : Prop :=
  ∀ (s : State) (v : View) (f : Fields) (ls : List Lanes) (fl : Word),
    let ns := fcCount f.fcCtl
    let nd := fcCount f.fc
    let dw := fcWidth f.fc
    let wideS := f.fcCtl = 18 ∨ f.fcCtl = 19
    let wideD := f.fc = 18 ∨ f.fc = 19
    let conv (c : Nat) := convElem v.fib.ftz f.fcCtl f.fc (rmodeOf f.rmCtl 0#32) f.ov c
    let elem (n : Nat) (l : Fin 32) (i : Nat) : Nat := (element (fcWidth f.fcCtl) (src ls n l) i).toNat
    let act := v.active f.guard
    let e := fcExpect f.fcCtl
    let t := (fcTags f.fc).headD tagRaw
    let flags (w : Word) (n : Nat) (c : Fin 32 → Nat → Nat) := ∀ b : Nat, w.getLsbD b = true ↔ fl.getLsbD b = true
      ∨ ∃ (l : Fin 32) (i : Nat), act.getLsbD l = true ∧ i < n ∧ (conv (c l i)).2.getLsbD b = true
    let steps (i : Instr) (n : Nat) := ∃ u g, exec i s = .next u ∧ u.fibre? v.g = some g ∧ g.off = v.fib.off + 1
      ∧ ∀ l : Fin 32, lane g.srseed l = if act.getLsbD l = true then Nat.iterate rsrStep n (lane v.fib.srseed l) else lane v.fib.srseed l
    let xs := regSrcs f.a e ++ regSrcs f.b e
    (nd = ns → Reads s v (.cvt f) f (regSrcs f.a e) ls fl →
      (f.rmCtl ≤ 4 →
        let c (l : Fin 32) (i : Nat) := if wideS then (src64 ls 0 l).toNat else elem 0 l i
        (¬ wideD → ∃ r w, exec (.cvt f) s = .next (s.commitFixed v (.cvt f) f.signal 4 ⟨[(f.d, act, ⟨t, r⟩)], w⟩) ∧ flags w ns c
            ∧ ∀ (l : Fin 32) (i : Nat), i < nd → element dw (lane r l) i = BitVec.ofNat dw (conv (c l i)).1)
          ∧ (wideD → ∃ lo hi w, exec (.cvt f) s = .next (s.commitFixed v (.cvt f) f.signal 4
              ⟨[(f.d, act, ⟨tagI64L, lo⟩), (operandAdd f.d 1, act, ⟨tagI64H, hi⟩)], w⟩) ∧ flags w ns c
            ∧ ∀ l, lane hi l ++ lane lo l = BitVec.ofNat 64 (conv (c l 0)).1))
      ∧ (f.rmCtl = 5 → steps (.cvt f) ns))
    ∧ (¬ wideS → ¬ wideD → 2 * ns = nd → Reads s v (.cvtq f) f xs ls fl →
      (f.rmCtl ≤ 4 →
        let c (l : Fin 32) (i : Nat) := if i < ns then elem 0 l i else elem 1 l (i - ns)
        ∃ r w, exec (.cvtq f) s = .next (s.commitFixed v (.cvtq f) f.signal 4 ⟨[(f.d, act, ⟨t, r⟩)], w⟩) ∧ flags w nd c
          ∧ ∀ (l : Fin 32) (i : Nat), i < nd → element dw (lane r l) i = BitVec.ofNat dw (conv (c l i)).1)
      ∧ (f.rmCtl = 5 → steps (.cvtq f) nd))
    ∧ (¬ wideS → ns = 1 → nd = 4 → Reads s v (.cvtq f) f (xs ++ [.reg f.d .any]) ls fl →
      (f.rmCtl ≤ 4 →
        ∃ r w, exec (.cvtq f) s = .next (s.commitFixed v (.cvtq f) f.signal 4 ⟨[(f.d, act, ⟨t, r⟩)], w⟩) ∧ flags w 2 (fun l i => elem i l 0)
          ∧ ∀ l : Fin 32, element 8 (lane r l) 0 = BitVec.ofNat 8 (conv (elem 0 l 0)).1
            ∧ element 8 (lane r l) 1 = BitVec.ofNat 8 (conv (elem 1 l 0)).1
            ∧ element 8 (lane r l) 2 = element 8 (src ls 2 l) 0 ∧ element 8 (lane r l) 3 = element 8 (src ls 2 l) 1)
      ∧ (f.rmCtl = 5 → steps (.cvtq f) 2))
    ∧ (¬ wideS → ¬ wideD → ns = 2 * nd → Reads s v (.cvtd f) f (regSrcs f.a e) ls fl →
      (f.rmCtl ≤ 4 →
        ∃ r q w, exec (.cvtd f) s = .next (s.commitFixed v (.cvtd f) f.signal 4 ⟨[(f.d, act, ⟨t, r⟩), (operandAdd f.d 1, act, ⟨t, q⟩)], w⟩)
          ∧ flags w ns (elem 0)
          ∧ ∀ (l : Fin 32) (i : Nat), i < nd → element dw (lane r l) i = BitVec.ofNat dw (conv (elem 0 l i)).1
            ∧ element dw (lane q l) i = BitVec.ofNat dw (conv (elem 0 l (nd + i))).1)
      ∧ (f.rmCtl = 5 → steps (.cvtd f) ns))

/-- PACK6 gathers the low six bits of the active lanes into a stream of 192 bits in lanes 0 to 5, with zeros for the inactive lanes, and writes all 32
lanes of D when any is active, while y0 takes zero in the inactive lanes (R32); UNPK6 gives each lane its six bits of the stream back. PRMT fills byte j by nibble j of its selector from the eight
bytes of A and B, or by the byte's top bit. TAG changes only the tag. BSCALE writes 0xFF for a block with a NaN or an infinity, 0x01 for zeros, and
else 128 plus the least k, held to −127 … 125, for which every magnitude over 2^k is at most the target's largest finite value (R186-R190). That PRMT's selector is
read untyped is the model's choice (assumption 115). -/
def Obligations.PacksPermutesAndScales : Prop :=
  ∀ (s : State) (v : View) (f : Fields) (ls : List Lanes) (fl : Word),
    let act := v.active f.guard
    let one (i : Instr) (n : Nat) (m : Mask) (t : Tag) (r : Lanes) := exec i s = .next (s.commitFixed v i f.signal n ⟨[(f.d, m, ⟨t, r⟩)], fl⟩)
    (Reads s v (.pack6 f) f (regSrcs f.a [.tag tagN32]) ls fl →
      ∃ r, exec (.pack6 f) s = .next (s.commitYs v (.pack6 f) f.signal 6
          ⟨[(f.d, if act = 0#32 then 0#32 else 0xFFFF_FFFF#32, ⟨tagP6s, r⟩)], fl⟩ [(act, ⟨tagP6s, r⟩)])
        ∧ ∀ (j : Fin 32) (b : Nat), b < 32 → ((lane r j).getLsbD b = true ↔ j.val < 6
          ∧ ∃ i : Fin 32, i.val = (32 * j.val + b) / 6 ∧ act.getLsbD i = true ∧ (src ls 0 i).getLsbD ((32 * j.val + b) % 6) = true))
    ∧ (Reads s v (.unpk6 f) f (regSrcs f.a [.tag tagP6s]) ls fl →
      ∃ r, one (.unpk6 f) 6 act tagN32 r
        ∧ ∀ (i : Fin 32) (b : Nat), b < 32 → ((lane r i).getLsbD b = true ↔ b < 6
          ∧ ∃ j : Fin 32, j.val = (6 * i.val + b) / 32 ∧ (src ls 0 j).getLsbD ((6 * i.val + b) % 32) = true))
    ∧ (Reads s v (.prmt f) f ([.reg f.a .any, .reg f.b .any] ++ src3 f .n32 [.any]) ls fl →
      ∃ r, one (.prmt f) 4 act tagRaw r ∧ ∀ (l : Fin 32) (j : Nat), j < 4 →
        let n := (element 4 (src ls 2 l) j).toNat
        let x := if n % 8 < 4 then element 8 (src ls 0 l) (n % 8) else element 8 (src ls 1 l) (n % 8 - 4)
        element 8 (lane r l) j = if n < 8 then x else if x.getLsbD 7 then 0xFF#8 else 0#8)
    ∧ (Reads s v (.tag f) f [.reg f.a .any] ls fl →
      ∃ r, one (.tag f) 4 act (BitVec.ofNat 6 f.fc) r ∧ ∀ l, lane r l = src ls 0 l)
    ∧ (Reads s v (.bscale f) f (regSrcs f.a [.tag tagF32]) ls fl →
      ∃ r w c, exec (.bscale f) s = .next (s.commitFixed v (.bscale f) f.signal 6 ⟨[(f.d, act, ⟨49#6, r⟩)], w⟩)
        ∧ (∀ l, lane r l = BitVec.ofNat 32 (c * 0x0101_0101))
        ∧ ((∃ l : Fin 32, act.getLsbD l = true ∧ (in32 v.fib.ftz (src ls 0 l)).isNan = true) → c = 0xFF)
        ∧ ((∃ l : Fin 32, act.getLsbD l = true ∧ (in32 v.fib.ftz (src ls 0 l)).isInf = true) → c = 0xFF)
        ∧ ((∀ l : Fin 32, act.getLsbD l = true → (in32 v.fib.ftz (src ls 0 l)).isZero = true) → c = 1)
        ∧ ((∀ l : Fin 32, act.getLsbD l = true → ∃ b n e, in32 v.fib.ftz (src ls 0 l) = .fin b n e) →
            (∃ l : Fin 32, act.getLsbD l = true ∧ (in32 v.fib.ftz (src ls 0 l)).isZero = false) →
            ∀ a b, (fmtOfFc f.fc).finite false (fmtOfFc f.fc).maxCode = .fin false a b → a ≠ 0 →
            1 ≤ c ∧ c ≤ 253
              ∧ (c ≠ 253 → ∀ (l : Fin 32) g n e, act.getLsbD l = true → in32 v.fib.ftz (src ls 0 l) = .fin g n e →
                  dyLt a (b + ((c : Int) - 128)) n e = false)
              ∧ (c ≠ 1 → ∃ (l : Fin 32) (g : Bool) (n : Nat) (e : Int), act.getLsbD l = true ∧ in32 v.fib.ftz (src ls 0 l) = .fin g n e
                  ∧ dyLt a (b + ((c : Int) - 129)) n e = true)))

/-! ### Moves and combinations between lanes (R192-R202), and the paired word (R50-R53) -/

/-- SHFL, BCST, VOTE and MATCH: the source lane of each mode, an inactive lane still giving its value; the votes of the active lanes; and the mask of the
active lanes with the same value. Results land after 6 clocks with the tag of A, PRED, or N32 (R192, R194-R197). -/
def Obligations.LaneMovesAndVotes : Prop :=
  ∀ (s : State) (v : View) (f : Fields) (ls : List Lanes) (fl : Word), f.sub.toNat ≤ 3 →
    let act := v.active f.guard
    let one (i : Instr) (t : Tag) (r : Lanes) := exec i s = .next (s.commitFixed v i f.signal 6 ⟨[(f.d, act, ⟨t, r⟩)], fl⟩)
    let votes (l : Fin 32) : Prop := act.getLsbD l = true ∧ src ls 0 l ≠ 0#32
    let all := ∀ l : Fin 32, act.getLsbD l = true → src ls 0 l ≠ 0#32
    let none := ∀ l : Fin 32, ¬ votes l
    (Reads s v (.shfl f) f (selSrcs f) ls fl → ∃ r, one (.shfl f) (v.reg f.a).tag r ∧ ∀ l : Fin 32,
      let n := (src ls 1 l).toNat
      let from_ (j : Nat) := ∃ k : Fin 32, k.val = j ∧ lane r l = src ls 0 k
      (f.sub = 0#8 → from_ (n % 32))
        ∧ (f.sub = 1#8 → from_ (if n ≤ l.val then l.val - n else l.val))
        ∧ (f.sub = 2#8 → from_ (if l.val + n ≤ 31 then l.val + n else l.val))
        ∧ (f.sub = 3#8 → from_ (Nat.xor l.val (n % 32))))
    ∧ (Reads s v (.bcst f) f (selSrcs f) ls fl → ∃ r, one (.bcst f) (v.reg f.a).tag r ∧ ∀ l : Fin 32,
      ∃ k : Fin 32, k.val = (src ls 1 v.leader).toNat % 32 ∧ lane r l = src ls 0 k)
    ∧ (Reads s v (.vote f) f (regSrcs f.a [.tag tagPred]) ls fl → ∃ r, one (.vote f) (if f.sub = 2#8 then tagN32 else tagPred) r
      ∧ ∀ l : Fin 32, (f.sub ≠ 2#8 → lane r l = 0#32 ∨ lane r l = 1#32)
        ∧ (f.sub = 0#8 → (lane r l = 1#32 ↔ ¬ none)) ∧ (f.sub = 1#8 → (lane r l = 1#32 ↔ all))
        ∧ (f.sub = 3#8 → (lane r l = 1#32 ↔ all ∨ none))
        ∧ (f.sub = 2#8 → ∀ j : Fin 32, (lane r l).getLsbD j = true ↔ votes j))
    ∧ (Reads s v (.matchLanes f) f (regSrcs f.a [.tag tagN32]) ls fl → f.sub.toNat ≤ 1 → ∃ r, one (.matchLanes f) tagN32 r
      ∧ ∀ l : Fin 32, (f.sub = 0#8 → ∀ j : Fin 32, (lane r l).getLsbD j = true ↔ act.getLsbD j = true ∧ src ls 0 j = src ls 0 l)
        ∧ (f.sub = 1#8 → lane r l = if ∀ j : Fin 32, act.getLsbD j = true → src ls 0 j = src ls 0 l then act else 0#32))

/-- RED over the fixed pairwise tree, SCAN over the lanes in rising order, with the identity for the inactive lanes, for integers of 32 and 64 bits
and for F32, where a node is FADD under .rne, FMIN or FMAX; and REDMI: the value and the index that no contribution beats, a NaN written as the
canonical NaN (R198-R201). Results go to all active lanes, 64-bit ones and REDMI's in pairs, after 6 clocks. -/
def Obligations.ReductionsAndScans : Prop :=
  ∀ (s : State) (v : View) (f : Fields) (ls : List Lanes) (fl : Word),
    let act := v.active f.guard
    let z := v.fib.ftz
    let isActive (l : Nat) : Bool := act.getLsbD l
    let bits {w : Nat} (x y : BitVec w) (lt : Bool) : BitVec w := match f.var3 with
      | 0 => x + y
      | 1 => if lt then x else y
      | 2 => if lt then y else x
      | 3 => x &&& y
      | 4 => x ||| y
      | _ => x ^^^ y
    let op (x y : Word) : Word := if f.ty = 4 then (if f.var3 = 0 then faddLane z .rne x y else fminmaxLane z (f.var3 == 2) x y).1
      else bits x y (if f.ty = 0 then x.slt y else x.ult y)
    let op64 (x y : DWord) : DWord := bits x y (if f.ty = 2 then x.slt y else x.ult y)
    let x (l : Nat) : Word := if isActive l then (if f.ty = 4 then flush32 z (src ls 0 (Fin.ofNat 32 l)) else src ls 0 (Fin.ofNat 32 l))
      else (laneIdentity f.ty f.var3).setWidth 32
    let x64 (l : Nat) : DWord := if isActive l then src64 ls 0 (Fin.ofNat 32 l) else laneIdentity f.ty f.var3
    let tree {α : Type} (g : α → α → α) (leaf : Nat → α) (root : α) := ∃ t : Nat → Nat → α, (∀ l, l < 32 → t 0 l = leaf l)
      ∧ (∀ k i, k < 5 → i < 16 / 2 ^ k → t (k + 1) i = g (t k (2 * i)) (t k (2 * i + 1))) ∧ t 5 0 = root
    let run {α : Type} (g : α → α → α) (leaf : Nat → α) (id : α) (out : Fin 32 → α) := ∃ u : Nat → α, u 0 = id
      ∧ (∀ l, l < 32 → u (l + 1) = g (u l) (leaf l)) ∧ ∀ l : Fin 32, out l = if f.exc then u l.val else u (l.val + 1)
    let narrow (i : Instr) (p : Lanes → Prop) := tyWide f.ty = false → ∃ r w,
      exec i s = .next (s.commitFixed v i f.signal 6 ⟨[(f.d, act, ⟨tyTag f.ty, r⟩)], w⟩) ∧ p r
    let wide (i : Instr) (p : (Fin 32 → DWord) → Prop) := tyWide f.ty = true → ∃ lo hi w,
      exec i s = .next (s.commitFixed v i f.signal 6 ⟨[(f.d, act, ⟨tagI64L, lo⟩), (operandAdd f.d 1, act, ⟨tagI64H, hi⟩)], w⟩)
        ∧ p fun l => lane hi l ++ lane lo l
    (Reads s v (.red f) f (regSrcs f.a (tyExpect f.ty)) ls fl →
      narrow (.red f) (fun r => ∀ l, tree op x (lane r l)) ∧ wide (.red f) fun r => ∀ l, tree op64 x64 (r l))
    ∧ (Reads s v (.scan f) f (regSrcs f.a (tyExpect f.ty)) ls fl →
      narrow (.scan f) (fun r => run op x ((laneIdentity f.ty f.var3).setWidth 32) (lane r))
        ∧ wide (.scan f) fun r => run op64 x64 (laneIdentity f.ty f.var3) r)
    ∧ (f.var3 ≤ 1 → Reads s v (.redmi f) f (regSrcs f.a [.tag (tyTag f.ty)] ++ regSrcs f.b [.tag tagN32]) ls fl →
      let e (l : Fin 32) : Word × Word := if isActive l then ((if f.ty = 4 then flush32 z (src ls 0 l) else src ls 0 l), src ls 1 l)
        else ((laneIdentity f.ty (f.var3 + 1)).setWidth 32, 0xFFFF_FFFF#32)
      ∃ (k : Fin 32) (w : Word), (∀ l, beats f.ty (f.var3 == 1) (e l) (e k) = false)
        ∧ exec (.redmi f) s = .next (s.commitFixed v (.redmi f) f.signal 6
            ⟨[(f.d, act, ⟨tyTag f.ty, lanesAll (if f.ty = 4 ∧ nanWord (e k).1 = true then 0x7FC0_0000#32 else (e k).1)⟩),
              (operandAdd f.d 1, act, ⟨tagN32, lanesAll (e k).2⟩)], w⟩))
    ∧ (laneIdentity 4 0 = 0x8000_0000#64 ∧ laneIdentity 4 1 = 0x7FC0_0000#64 ∧ laneIdentity 4 2 = 0x7FC0_0000#64
      ∧ laneIdentity 0 1 = 0x7FFF_FFFF#64 ∧ (laneIdentity 0 2).setWidth 32 = 0x8000_0000#32 ∧ laneIdentity 1 2 = 0#64
      ∧ laneIdentity 2 1 = 0x7FFF_FFFF_FFFF_FFFF#64 ∧ laneIdentity 2 2 = 0x8000_0000_0000_0000#64
      ∧ beats 4 false (0x8000_0000#32, 5#32) (0#32, 1#32) = true ∧ beats 4 true (0x3F80_0000#32, 5#32) (0x7FC0_0000#32, 1#32) = true
      ∧ beats 1 false (3#32, 5#32) (3#32, 37#32) = true ∧ beats 1 false (3#32, 37#32) (3#32, 5#32) = false)

/-- PAIR carries out one operation of each pipe, or of one pipe when the other's code is 0, on sources all read before either result is written;
the results land after 4 clocks, that of pipe V0 first; the operations are those of R51, the floating ones under .rne and MOV with its source's
tag (R50-R53). -/
def Obligations.PairedWord : Prop :=
  ∀ (s : State) (v : View) (p : PairFields) (ls : List Lanes) (fl : Word),
    let z := v.fib.ftz
    let act := v.active p.guard
    let s0 := if p.p0 = 0#5 then [] else (pairOp0 p.p0.toNat).srcs p.a0 p.b0 p.d0
    let s1 := if p.p1 = 0#5 then [] else (pairOp1 p.p1.toNat).srcs p.a1 p.b1 p.d1
    let fix (t : Tag) : Tag → Tag := fun _ => t
    let v0 : List (Nat × Nat × (Tag → Tag) × (Word → Word → Word → Word)) :=
      [(1, 2, fix tagF32, fun a b _ => (faddLane z .rne a b).1), (2, 2, fix tagF32, fun a b _ => (fsubLane z .rne a b).1),
       (3, 2, fix tagF32, fun a b _ => (fmulLane z .rne a b).1), (4, 3, fix tagF32, fun a b d => (ffmaLane z .rne a b d).1),
       (5, 2, fix tagF32, fun a b _ => (fminmaxLane z false a b).1), (6, 2, fix tagF32, fun a b _ => (fminmaxLane z true a b).1),
       (7, 2, fix tagF16, fun a b _ => (hadd2Lane fmtF16 .rne a b).1), (8, 2, fix tagF16, fun a b _ => (hmul2Lane fmtF16 .rne a b).1),
       (9, 3, fix tagF16, fun a b d => (hfma2Lane fmtF16 .rne a b d).1), (10, 2, fix tagBf16, fun a b _ => (hadd2Lane fmtBf16 .rne a b).1),
       (11, 2, fix tagBf16, fun a b _ => (hmul2Lane fmtBf16 .rne a b).1), (12, 3, fix tagBf16, fun a b d => (hfma2Lane fmtBf16 .rne a b d).1),
       (13, 1, fun t => t, fun a _ _ => a)]
    let v1 : List (Nat × (Tag → Tag) × (Word → Word → Word)) :=
      [(1, fix tagS32, fun a b => a + b), (2, fix tagS32, fun a b => a - b), (3, fix tagN32, fun a b => a &&& b),
       (4, fix tagN32, fun a b => a ||| b), (5, fix tagN32, fun a b => a ^^^ b), (6, fix tagN32, fun a b => a &&& ~~~b),
       (7, fix tagN32, fun a b => a <<< b.toNat), (8, fix tagN32, fun a b => a >>> b.toNat), (9, fix tagS32, fun a b => a.sshiftRight b.toNat),
       (10, fix tagS32, fun a b => if a.slt b then a else b), (11, fix tagS32, fun a b => if a.slt b then b else a),
       (12, fix tagN32, fun a b => if a.ult b then a else b), (13, fix tagN32, fun a b => if a.ult b then b else a),
       (14, fun t => t, fun a _ => a), (15, fix tagF32, fun a b => (fminmaxLane z false a b).1),
       (16, fix tagF32, fun a b => (fminmaxLane z true a b).1)]
    Reads s v (.pair p) (pairGuardFields p) (s0 ++ s1) ls fl →
    let goes (rs : List (Operand × Mask × Reg)) := ∃ w, exec (.pair p) s = .next (s.commitFixed v (.pair p) (pairGuardFields p).signal 4 ⟨rs, w⟩)
    (∀ c ∈ v0, p.p0.toNat = c.1 →
      ∃ r0, (∀ l, lane r0 l = c.2.2.2 (src ls 0 l) (src ls 1 l) (src ls 2 l))
        ∧ (p.p1 = 0#5 → goes [(pairReg p.d0, act, ⟨c.2.2.1 (v.reg (pairReg p.a0)).tag, r0⟩)])
        ∧ ∀ d ∈ v1, p.p1.toNat = d.1 → ∃ r1, (∀ l, lane r1 l = d.2.2 (src ls c.2.1 l) (src ls (c.2.1 + 1) l))
            ∧ goes [(pairReg p.d0, act, ⟨c.2.2.1 (v.reg (pairReg p.a0)).tag, r0⟩), (pairReg p.d1, act, ⟨d.2.1 (v.reg (pairReg p.a1)).tag, r1⟩)])
      ∧ (p.p0 = 0#5 → ∀ d ∈ v1, p.p1.toNat = d.1 → ∃ r1, (∀ l, lane r1 l = d.2.2 (src ls 0 l) (src ls 1 l))
          ∧ goes [(pairReg p.d1, act, ⟨d.2.1 (v.reg (pairReg p.a1)).tag, r1⟩)])

/-! ### Memory (R203-R233) -/

/-- The words of the memory class take what they need at issue and go on: the addresses of all lanes (a 64-bit pair plus a sign-extended byte offset, or a
32-bit offset), the data of stores and atomics, and the destination; one operation is in flight on the word's counter, with the lowest free
log entry but for LDC and PREF; no memory, register or flag changes yet. With no active lane nothing is started; with no free log entry the
word waits (R29, R42, R203-R205, R215, R218-R220, R222, R224, R228, R229). -/
def Obligations.MemoryIssue : Prop :=
  ∀ (s : State) (v : View) (f : Fields) (ls : List Lanes) (fl : Word) (k : Nat), f.signal = some k →
    let act := v.active f.guard
    let glob (l : Fin 32) : DWord := src64 ls 0 l + f.imm20.signExtend 64
    let offs (l : Fin 32) : DWord := (src ls 0 l + f.imm20.signExtend 32).setWidth 64
    let base (l : Fin 32) : DWord := src64 ls 0 l
    let n32 := [Expect.tag tagN32]
    let d := fieldRegs f.d (szRegs f.sz)
    let old := fieldRegs f.d (atomRegs f)
    let leader : Mask := 1#32 <<< v.leader.val
    let takes (log : Option Nat) (c : (Fields → Instr) × List Src × (Fin 32 → DWord) × List Lanes × List Operand × Mask) :=
      ∃ t o, exec (c.1 f) s = .next t ∧ Started s t v k o ∧ o.instr = c.1 f ∧ o.logSlot = log ∧ o.active = act
        ∧ (∀ l, o.addr l = c.2.2.1 l) ∧ o.data = c.2.2.2.1 ∧ o.dest = c.2.2.2.2.1.map v.place ∧ o.pending = c.2.2.2.2.2 ∧ o.flags = fl
        ∧ o.leader = v.leader.val
    (∀ c ∈ ([(.ld, pairSrcs f.a, glob, [], d, act), (.st, pairSrcs f.a ++ dataSrcs f (szRegs f.sz), glob, ls.drop 2, [], act),
             (.lds, regSrcs f.a n32, offs, [], d, act), (.sts, regSrcs f.a n32 ++ dataSrcs f (szRegs f.sz), offs, ls.drop 1, [], act),
             (.ldr, regSrcs f.a n32, offs, [], d, act), (.str, regSrcs f.a n32 ++ dataSrcs f (szRegs f.sz), offs, ls.drop 1, [], act),
             (.atom, pairSrcs f.a ++ atomSrcs f, base, ls.drop 2, old, act), (.atoms, regSrcs f.a n32 ++ atomSrcs f, offs, ls.drop 1, old, act),
             (.cinv, pairSrcs f.a ++ regSrcs f.b n32, base, ls.drop 2, [], leader), (.cwb, pairSrcs f.a ++ regSrcs f.b n32, base, ls.drop 2, [], leader)]
          : List ((Fields → Instr) × List Src × (Fin 32 → DWord) × List Lanes × List Operand × Mask)),
      Reads s v (c.1 f) f c.2.1 ls fl →
        (act = 0#32 → ∃ t, exec (c.1 f) s = .next t ∧ Idle s t v k fl)
        ∧ (act ≠ 0#32 → v.fib.freeLog = none → exec (c.1 f) s = .next s)
        ∧ (act ≠ 0#32 → ∀ n, v.fib.freeLog = some n → takes (some n) c))
    ∧ (∀ c ∈ ([(.ldc, regSrcs f.a n32, fun l => (src ls 0 l).setWidth 64, [], d, act), (.pref, pairSrcs f.a, glob, [], [], act)]
          : List ((Fields → Instr) × List Src × (Fin 32 → DWord) × List Lanes × List Operand × Mask)),
      Reads s v (c.1 f) f c.2.1 ls fl →
        (act = 0#32 → ∃ t, exec (c.1 f) s = .next t ∧ Idle s t v k fl) ∧ (act ≠ 0#32 → takes none c))

/-- MEMORY_ACCESS_COMPLETE for one lane of 32 bits: an LD whose line its core does not hold gives the memory's four bytes, and one with a cached line
those of the line under the default hint, and memory is as it was when the cache has room for the line (the cache can take the line); an ST that bypasses the cache stores its four bytes and nothing else, writes the line's OWNER, and one under the
default hint leaves them in the line, dirty, with memory as it was; ATOM .add leaves the sum and returns what stood there; LDS and STS act on
the team's scratchpad. The operation completes (R211, R213, R217, R219-R221, R225, R236).
MEMORY_ACCESS_COMPLETE for one lane of every size and kind. LD, LDS and LDR give their 1 to 16 bytes by SZ, extended under .w8 and .w16, with the
tags of R217; ST, STS and STR store theirs, little-endian, and nothing else. ATOM and ATOMS leave the value that AOP gives and return what
stood there, with the tags of R220, and the line has left the core's cache (R221). LDC gives the words of its window, zero where R218 says so,
from the constant cache or, missing there, from memory. PREF fills, pins or unpins the line, or drops the lane and counts it (R222, R223). CWB
leaves every line that its page overlaps clean with its bytes in memory, and CINV drops them (R224). The operation completes. The model's choices:
an access performs at one instant (assumption 25), a pin of a pinned line and where a drop counts (assumption 139), and both words of
an LDC of a negative index are zero (assumption 140). -/
def Obligations.AccessesPerform : Prop :=
  (∀ (s : State) (v : View) (o : Op) (f : Fields) (l : Fin 32) (pa n : Nat) (e : TlbEntry) (d : Lanes), s.Sound → InFlight s v o →
    o.pending = 1#32 <<< l.val → s.checkLane v o l = .ready pa e →
    let a := pa / 128 * 128 + (o.addr l).toNat % 128
    let one : Mask := 1#32 <<< l.val
    let line := pa / 128
    let takes := s.l1Room v.g.core ≠ 0 ∧ s.l1Takes v.g.core line = true
    let free := v.core.watches = .empty ∧ v.core.launchView = .empty ∧ v.team.part = s.partOf v.g.core ∧ s.violation v.team.part pa = none
      ∧ s.way (sliceOf v.g.core) v.team.part pa = .free ∧ (s.line v.team.part pa).poison = false ∧ (o.addr l).toNat % 4 = 0
      ∧ s.waitsFor v o [((o.addr l).toNat / 128, (o.addr l).toNat / 128)] [(pa / 128, pa / 128)] = false
    let freeRow := s.waitsFor v o [((o.addr l).toNat, (o.addr l).toNat)] [] = false
    let room := (v.core.l1.find line).isSome = true ∨ v.core.l1.cells.length < s.l1Room v.g.core
    let done (p : State → Prop) := ∃ t, exec (.memoryAccessComplete v.g o.id l) s = .next t ∧ Completed t v o ∧ p t
    (o.instr = .ld f → f.sz = 2 → free → takes → o.dest = [.bank n] →
      (v.core.l1.find (pa / 128) = none → done fun t => (room → t.mem = s.mem)
        ∧ BankGains s t v n one ⟨tagRaw, lanesAll (BitVec.ofNat 32 (leNat (s.readMem v.team.part a 4)))⟩)
      ∧ (∀ x w, v.core.l1.find (pa / 128) = some x → f.ch = 0 →
          (∀ i : Fin 4, ∃ y, x.cells.find (a % 128 + i.val) = some (element 8 w i.val, y)) → done fun t => t.mem = s.mem
            ∧ BankGains s t v n one ⟨tagRaw, lanesAll w⟩))
    ∧ (o.instr = .st f → f.sz = 2 → free → o.data = [d] →
      (f.ch = 3 → v.core.l1.find (pa / 128) = none → done fun t => t.readMem v.team.part a 4 = leBytes 4 (lane d l).toNat
        ∧ MemoryElsewhere s t v.team.part a 4 ∧ (t.line v.team.part pa).owner = v.team.asid
        ∧ ∀ b, ((t.core v.g.core).sub b).bank = ((s.core v.g.core).sub b).bank)
      ∧ (f.ch = 0 → takes → done fun t => (room → t.mem = s.mem) ∧ (∀ b, ((t.core v.g.core).sub b).bank = ((s.core v.g.core).sub b).bank)
        ∧ ∃ x, (t.core v.g.core).l1.find (pa / 128) = some x
          ∧ ∀ i : Fin 4, x.cells.find (a % 128 + i.val) = some (element 8 (lane d l) i.val, true)))
    ∧ (o.instr = .atom f → free → o.data = [d] → o.dest = [.bank n] → f.aop = 0 → f.w64 = false → f.semA = 0 →
      v.core.l1.find (pa / 128) = none →
      let was := BitVec.ofNat 32 (leNat (s.readMem v.team.part a 4))
      done fun t => t.readMem v.team.part a 4 = leBytes 4 (was + lane d l).toNat ∧ MemoryElsewhere s t v.team.part a 4
        ∧ BankGains s t v n one ⟨tagN32, lanesAll was⟩)
    ∧ (o.instr = .lds f → f.sz = 2 → freeRow → o.dest = [.bank n] → pa < 2 ^ 21 → done fun t => t.mem = s.mem ∧ (t.core v.g.core).scratch = v.core.scratch
      ∧ BankGains s t v n one ⟨tagRaw, lanesAll (BitVec.ofNat 32 (leNat (v.core.scratchBytes pa 4)))⟩)
    ∧ (o.instr = .sts f → f.sz = 2 → freeRow → o.data = [d] → pa < 2 ^ 21 → v.core.scratchHeld pa 4 = false →
      v.core.rowPassed v.g.sub [pa / 4] = false → done fun t => t.mem = s.mem
      ∧ (t.core v.g.core).scratchBytes pa 4 = leBytes 4 (lane d l).toNat
      ∧ (∀ b, ((t.core v.g.core).sub b).bank = ((s.core v.g.core).sub b).bank)
      ∧ ∀ q, (q < pa ∨ pa + 4 ≤ q) → (t.core v.g.core).scratch.get q 0#8 = v.core.scratch.get q 0#8))
  ∧ (∀ (s : State) (v : View) (o : Op) (f : Fields) (l : Fin 32) (ms : List Nat), s.Sound → InFlight s v o → o.pending = 1#32 <<< l.val →
    ms.Nodup → o.dest = ms.map .bank → v.core.watches = .empty → v.core.launchView = .empty → v.team.part = s.partOf v.g.core →
    let one : Mask := 1#32 <<< l.val
    let part := v.team.part
    let here := sliceOf v.g.core
    let size := 2 ^ f.sz
    let done (p : State → Prop) := ∃ t, exec (.memoryAccessComplete v.g o.id l) s = .next t ∧ Completed t v o ∧ p t
    let bank (t : State) (k : Nat) := ((t.core v.g.core).sub v.g.sub).bank.get k Reg.zero
    let gains (t : State) (tags : List Tag) (ws : List Word) := ws.length = ms.length
      ∧ (∀ p ∈ ms.zip (tags.zip ws), bank t p.1 = (v.sub.bank.get p.1 Reg.zero).merge one ⟨p.2.1, lanesAll p.2.2⟩)
      ∧ ∀ k, k ∉ ms → bank t k = v.sub.bank.get k Reg.zero
    let sameBanks (t : State) := ∀ b, ((t.core v.g.core).sub b).bank = ((s.core v.g.core).sub b).bank
    let raw (n : Nat) := List.replicate n tagRaw
    let loads (t : State) (bs : List Byte) :=
      if f.sz ≤ 1 then
        gains t [if f.sx then tagS32 else tagN32]
          [if f.sx then (if f.sz = 0 then (BitVec.ofNat 8 (leNat bs)).signExtend 32 else (BitVec.ofNat 16 (leNat bs)).signExtend 32)
            else BitVec.ofNat 32 (leNat bs)]
      else gains t (raw 4) ((List.range (szRegs f.sz)).map fun k => BitVec.ofNat 32 (leNat ((bs.drop (4 * k)).take 4)))
    let stored := (o.data.flatMap fun d => leBytes 4 (lane d l).toNat).take size
    let data := o.data.length = szRegs f.sz
    let becomes (n : Nat) (old b c x : BitVec n) : Prop :=
      (f.aop = 0 → x = old + b) ∧ (f.aop = 1 → x.toInt = min old.toInt b.toInt) ∧ (f.aop = 2 → x.toInt = max old.toInt b.toInt)
        ∧ (f.aop = 3 → x.toNat = min old.toNat b.toNat) ∧ (f.aop = 4 → x.toNat = max old.toNat b.toNat)
        ∧ (f.aop = 5 → x = old &&& b) ∧ (f.aop = 6 → x = old ||| b) ∧ (f.aop = 7 → x = old ^^^ b) ∧ (f.aop = 8 → x = b)
        ∧ (f.aop = 9 → x = if old = c then b else old)
        ∧ (f.aop = 10 → let X := fmtF32.decode old.toNat
            let Y := fmtF32.decode b.toNat
            ∃ r, OneRounding fmtF32 .rne [X, Y] [some X, some Y] true r ∧ x.toNat = r.1)
    let atomic (bytes : List Byte) (p : State → List Byte → Prop) :=
      (f.w64 = false → ms.length = 1 → let old := BitVec.ofNat 32 (leNat bytes)
        ∃ x, becomes 32 old (src o.data 0 l) (src o.data 1 l) x ∧ done fun t => p t (leBytes 4 x.toNat)
          ∧ gains t [if f.aop = 1 ∨ f.aop = 2 then tagS32 else if f.aop = 10 then tagF32 else tagN32] [old])
      ∧ (f.w64 = true → f.aop ≤ 9 → ms.length = 2 → let old := BitVec.ofNat 64 (leNat bytes)
        ∃ x, becomes 64 old (src64 o.data 0 l) (src64 o.data 2 l) x ∧ done fun t => p t (leBytes 8 x.toNat)
          ∧ gains t [tagI64L, tagI64H] [old.extractLsb' 0 32, old.extractLsb' 32 32])
    let wide := if f.w64 then 8 else 4
    (∀ pa e, s.checkLane v o l = .ready pa e → s.violation part pa = none → s.way here part pa = .free → (s.line part pa).poison = false →
      s.waitsFor v o [((o.addr l).toNat / 128, (o.addr l).toNat / 128)] [(pa / 128, pa / 128)] = false →
      let a := pa / 128 * 128 + (o.addr l).toNat % 128
      let away := v.core.l1.find (pa / 128) = none
      let takes := s.l1Room v.g.core ≠ 0 ∧ s.l1Takes v.g.core (pa / 128) = true
      (o.instr = .ld f → f.sz ≤ 4 → (o.addr l).toNat % size = 0 → ms.length = szRegs f.sz → away → takes →
          done fun t => loads t (s.readMem part a size))
        ∧ (o.instr = .st f → f.sz ≤ 4 → (o.addr l).toNat % size = 0 → data → f.ch = 3 → away → done fun t => t.readMem part a size = stored
          ∧ MemoryElsewhere s t part a size ∧ sameBanks t)
        ∧ (o.instr = .atom f → (o.addr l).toNat % wide = 0 → f.semA = 0 → f.aop ≤ 10 → away →
          atomic (s.readMem part a wide) fun t bs => t.readMem part a wide = bs ∧ MemoryElsewhere s t part a wide)
        ∧ (o.instr = .atom f → f.semA = 0 → done fun t => (t.core v.g.core).l1.find (pa / 128) = none))
    ∧ (∀ pa e, s.checkLane v o l = .ready pa e →
      let remote := o.instr = .ldr f ∨ o.instr = .str f
      let c := if remote then pa / 2 ^ 21 else v.g.core
      let q := pa % 2 ^ 21
      let span := if remote then (o.addr l).toNat / 128 else (o.addr l).toNat
      let open_ := s.waitsFor v o [(span, span)] [] = false ∧ s.wayTo part here (sliceOf c) = .free
      let puts (n : Nat) := (s.core c).scratchHeld q n = false
        ∧ (s.core c).rowPassed (if remote then remoteRank else v.g.sub) (wordsOf [q] n) = false
      let holds (t : State) (bs : List Byte) := t.mem = s.mem ∧ (t.core c).scratchBytes q bs.length = bs
        ∧ ∀ x i, (x ≠ c ∨ i < q ∨ q + bs.length ≤ i) → (t.core x).scratch.get i 0#8 = (s.core x).scratch.get i 0#8
      (o.instr = .lds f ∨ o.instr = .ldr f → f.sz ≤ 4 → open_ → ms.length = szRegs f.sz → done fun t => t.mem = s.mem
          ∧ (∀ x, (t.core x).scratch = (s.core x).scratch) ∧ loads t ((s.core c).scratchBytes q size))
        ∧ (o.instr = .sts f ∨ o.instr = .str f → f.sz ≤ 4 → open_ → puts size → data → done fun t => holds t stored ∧ sameBanks t)
        ∧ (o.instr = .atoms f → open_ → puts wide → f.aop ≤ 10 → atomic ((s.core c).scratchBytes q wide) holds))
    ∧ (o.instr = .ldc f → (f.sz = 2 ∨ f.sz = 3) → ms.length = szRegs f.sz →
      let a := (o.addr l).toNat
      let i : Int := (a % 2 ^ 17 : Nat) + f.imm20.toInt
      let none_ := a / 2 ^ 20 ≠ 0 ∨ i < 0
      let at_ (k : Nat) := s.constAt v.g.core v.team o.sup (a / 2 ^ 17) (i.toNat + k)
      (∀ ws : List Word, ws.length = ms.length →
          (∀ k < ms.length, (none_ → ws[k]? = some 0#32) ∧ (¬ none_ → (at_ k = .zero ∧ ws[k]? = some 0#32) ∨ ∃ w, at_ k = .hit w ∧ ws[k]? = some w)) →
          done fun t => t.mem = s.mem ∧ gains t (raw 4) ws)
        ∧ (f.sz = 2 → ¬ none_ → at_ 0 = .miss → ∀ va e, v.team.constAddress (a / 2 ^ 17) i.toNat = some va → v.core.lookup2 v.team va = some e →
          s.way here part (e.phys va) = .free → (s.line part (e.phys va)).poison = false →
          done fun t => t.mem = s.mem ∧ gains t (raw 4) [BitVec.ofNat 32 (leNat (s.readMem part (e.phys va) 4))])
        ∧ ∀ k off, (v.team.hdr.windows.getD k (0, 0)).2 ≤ off → s.constAt v.g.core v.team o.sup k off = .zero)
    ∧ (o.instr = .pref f →
      let drops (t : State) := t.mem = s.mem ∧ t.pins = s.pins ∧ (t.slice here).prefdrop
        = if (s.slice here).prefdrop = 0xFFFF_FFFF#32 then 0xFFFF_FFFF#32 else (s.slice here).prefdrop + 1#32
      (∀ c, s.prefXlate v o l = .fault c → done drops)
        ∧ ∀ e, s.prefXlate v o l = .ok e →
          let pa := e.phys (o.addr l)
          let key := lineKey part pa
          let passes := permCause e o.sup true false v.team.desc.world = none ∧ s.way here part pa = .free ∧ s.aliasCause part pa e = none
            ∧ (s.line part pa).poison = false
          (¬ passes → s.way here part pa ≠ .held → done drops)
            ∧ (passes → f.sub = 0#8 → s.l1Room v.g.core ≠ 0 → s.l1Takes v.g.core (pa / 128) = true → done fun t => ∃ x,
              (t.core v.g.core).l1.find (pa / 128) = some x ∧ ∀ i < 128, x.cells.find i
                = match (v.core.l1.find (pa / 128)).bind fun y => y.cells.find i with
                  | some (b, true) => some (b, true)
                  | _ => some (BitVec.ofNat 8 (leNat (s.readMem part (pa / 128 * 128 + i) 1)), false))
            ∧ (passes → f.sub = 1#8 → done fun t => t.mem = s.mem ∧ t.pins = s.pins ∧ (t.core v.g.core).l1 = v.core.l1)
            ∧ (passes → f.sub = 2#8 → s.pinRefused part pa = some true → done drops)
            ∧ (passes → f.sub = 2#8 → s.pinRefused part pa = some false → done fun t => t.mem = s.mem ∧ t.pins = s.pins.set key v.team.asid)
            ∧ (passes → f.sub = 3#8 → done fun t => t.mem = s.mem ∧ t.pins = s.pins.erase key))
    ∧ (∀ drop : Bool, o.instr = (if drop then Instr.cinv f else .cwb f) → o.leaderLane = l → s.cacheTurn v o = true →
      (o.pagesLeft = [] → done fun t => t.mem = s.mem ∧ (t.core v.g.core).l1 = v.core.l1)
        ∧ ∀ p pa e, o.pagesLeft = [p] → s.checkPage v o p.1 drop true = .ready pa e →
          s.waitsFor v o [(p.1.toNat / 128, (p.1.toNat + p.2 - 1) / 128)] [(pa / 128, (pa + p.2 - 1) / 128)] = false →
          let within (n : Nat) := 0 < p.2 ∧ pa / 128 ≤ n ∧ n ≤ (pa + p.2 - 1) / 128
          v.core.l1.keys.Pairwise (· < ·) →
          (∀ n x, v.core.l1.find n = some x → x.cells.keys.Pairwise (· < ·) ∧ (∀ k ∈ x.cells.keys, k < 128)
            ∧ (within n → s.way here part (n * 128) = .free)) →
          done fun t => (∀ n, ¬ within n → (t.core v.g.core).l1.find n = v.core.l1.find n)
            ∧ ∀ n x, within n → v.core.l1.find n = some x →
              (∀ i b, x.cells.find i = some (b, true) → t.readMem part (n * 128 + i) 1 = [b])
              ∧ (drop = true → (t.core v.g.core).l1.find n = none)
              ∧ (drop = false → ∃ y, (t.core v.g.core).l1.find n = some y ∧ y.dirty = []
                ∧ ∀ i, (y.cells.find i).map (·.1) = (x.cells.find i).map (·.1))))

/-- WALK_RETURN ends the walk with what the tables then hold, unless a home that holds requests keeps it waiting: the translation enters the caches of the core that waits, or its cause reaches the operations
that wait for the page. ACCESS_FAULT_DETECT holds the failing lane of an operation, freezes the fibre with its pc as it stands, and makes one
record live with the lane's cause and the operation's log entry; of a group that is made to exit the lane is discarded, and its operation is done. A dirty
line that a cache writes back of itself leaves its bytes in memory and
stays, clean; a clean line may leave at any time, one that .keep has touched last (R210, R211, R230-R232, R237, R335). -/
def Obligations.WalksFaultsAndWritebacks : Prop :=
  (∀ (s : State) (n w core sub : Nat) (x : Walk), (s.slice n).walks.find w = some x → x.cores = [(core, sub)] → sub < 32 →
    let ends := s.walkEnd n x.part x.root x.world (BitVec.ofNat 64 x.va)
    (ends = .held → exec (.walkReturn n w) s = .next s)
    ∧ (∀ c pa, ends = .lost c pa → ∃ t, exec (.walkReturn n w) s = .next t ∧ (t.slice n).walks.find w = none ∧ (t.core core).tlb = (s.core core).tlb)
    ∧ (∀ e, ends = .result (.ok e) →
      ∃ t, exec (.walkReturn n w) s = .next t ∧ (t.slice n).walks.find w = none ∧ t.mem = s.mem
        ∧ ((s.core core).parityOff = .empty → e ∈ (t.core core).tlb ∧ e ∈ ((t.core core).sub sub).tlb)
        ∧ ∀ g, t.fibre? g = s.fibre? g)
    ∧ (∀ c, ends = .result (.error c) →
      ∃ t, exec (.walkReturn n w) s = .next t ∧ (t.slice n).walks.find w = none ∧ t.mem = s.mem ∧ (t.core core).tlb = (s.core core).tlb
        ∧ (∀ g, (t.fibre? g).map Fibre.off = (s.fibre? g).map Fibre.off)
        ∧ ∀ v o, s.view v.g = some v → v.g.core = core → v.g.sub = sub → v.team.asid = x.asid → v.team.desc.world = x.world →
            v.fib.op? o.id = some o → o.waitsPage (x.va / 4096) = true → o.walkFaults = [] →
            ∃ y q, t.fibre? v.g = some y ∧ y.op? o.id = some q ∧ q.walkFaults = [(x.va / 4096, c)])
    ∧ (∀ e, ends = .result e → e = s.walk x.part x.root x.world (BitVec.ofNat 64 x.va)))
  ∧ (∀ (s : State) (v : View) (o : Op) (l : Fin 32) (x : LaneFault), InFlight s v o → o.pending = 1#32 <<< l.val →
    s.laneFault v o l = some x → o.issued < v.core.clock → x.cause ≠ causeLaunchWord →
    ∃ t, exec (.accessFaultDetect v.g o.id) s = .next t
      ∧ t.fibre? v.g = some { v.fib.modOp o.id (fun p => { p with held := p.held ||| 1#32 <<< l.val }) with frozen := true }
      ∧ ∃ r, (t.slice (sliceOf v.g.core)).fault.live = (s.slice (sliceOf v.g.core)).fault.live ++ [r] ∧ r.cause = x.cause ∧ r.agent = .group v.g
        ∧ r.opId = o.id ∧ r.entry = (match o.logSlot with
          | some n => BitVec.ofNat 8 n
          | none => 0xFF#8)
        ∧ r.full.lanes = 1#32 <<< l.val ∧ r.full.lane = BitVec.ofNat 8 l.val ∧ r.full.address = x.address
        ∧ r.ftag = (s.slice (sliceOf v.g.core)).fault.nextTag)
  ∧ (∀ (s : State) (v : View) (o : Op) (l : Fin 32) (x : LaneFault), s.view v.g = some v → v.fib.op? o.id = some o → o.held = 0#32 →
    v.fib.aborting = true → o.pending = 1#32 <<< l.val → s.laneFault v o l = some x → o.issued < v.core.clock →
    ∃ t, exec (.accessFaultDetect v.g o.id) s = .next t ∧ t.mem = s.mem ∧ ∀ y, t.fibre? v.g = some y → y.op? o.id = none)
  ∧ (∀ (s : State) (core n : Nat) (x : L1Line), s.Sound → (s.core core).l1.find n = some x → x.cells.keys.Pairwise (· < ·) →
    s.way (sliceOf core) (s.partOf core) (n * 128) = .free →
    ∃ t y, exec (.l1SpontaneousWriteback core n false) s = .next t ∧ (t.core core).l1.find n = some y ∧ y.dirty = []
      ∧ (∀ off, (y.cells.find off).map (·.1) = (x.cells.find off).map (·.1))
      ∧ (∀ off b, x.cells.find off = some (b, true) → t.readMem (s.partOf core) (n * 128 + off) 1 = [b])
      ∧ ∀ p a, (∀ off b, x.cells.find off = some (b, true) → memKey p a ≠ memKey (s.partOf core) (n * 128 + off)) → t.readMem p a 1 = s.readMem p a 1)
  ∧ (∀ (s : State) (core n : Nat) (x : L1Line), (s.core core).l1.find n = some x → x.dirty = [] →
    (x.keep = true → ∀ y ∈ (s.core core).l1.vals, y.keep = true) →
    ∃ t, exec (.l1SpontaneousWriteback core n true) s = .next t ∧ (t.core core).l1.find n = none ∧ t.mem = s.mem
      ∧ ∀ m, m ≠ n → (t.core core).l1.find m = (s.core core).l1.find m)

/-! ### Ordering and synchronisation (R234-R259) -/

/-- The words of the ordering class start one operation of the leader lane on their counter: ACQ and REL at a cell, with the regions bound to it when
their scope is .clus or wider; AWAIT and AWAKE at a key; MBIND and MUNBIND without a log entry; FENCE, BAR and CBAR whatever the mask and guard
hold (R42, R113, R228, R243-R248, R251, R256, R257). -/
def Obligations.OrderingIssue : Prop :=
  ∀ (s : State) (v : View) (f : Fields) (ls : List Lanes) (fl : Word) (k : Nat), f.signal = some k →
    let act := v.active f.guard
    let base (l : Fin 32) : DWord := src64 ls 0 l
    let glob (l : Fin 32) : DWord := src64 ls 0 l + f.imm20.signExtend 64
    let n32 := src3 f .n32 [.tag tagN32]
    let takes (log : Option Nat) (i : Instr) (a : Fin 32 → DWord) (ds : List Lanes) (dest : List Operand) (rs : List (DWord × Nat)) :=
      ∃ t o, exec i s = .next t ∧ Started s t v k o ∧ o.instr = i ∧ o.logSlot = log ∧ o.active = act ∧ (∀ l, o.addr l = a l) ∧ o.data = ds
        ∧ o.dest = dest.map v.place ∧ o.pending = 1#32 <<< v.leader.val ∧ o.flags = fl ∧ o.leader = v.leader.val ∧ o.regions = rs
    let idle (i : Instr) := ∃ t, exec i s = .next t ∧ Idle s t v k fl
    (∀ c ∈ ([(.acq, pairSrcs f.a, glob, [], [], if 2 ≤ f.sc then v.team.regionsOf (glob v.leader) else []),
             (.rel, pairSrcs f.a, glob, [], [], if 2 ≤ f.sc then v.team.regionsOf (glob v.leader) else []),
             (.await, pairSrcs f.a ++ [.reg f.b .any], base, ls.drop 2, [f.d], []), (.awake, pairSrcs f.a, base, [], [f.d], [])]
          : List ((Fields → Instr) × List Src × (Fin 32 → DWord) × List Lanes × List Operand × List (DWord × Nat))),
      Reads s v (c.1 f) f c.2.1 ls fl →
        (act = 0#32 → idle (c.1 f)) ∧ (act ≠ 0#32 → v.fib.freeLog = none → exec (c.1 f) s = .next s)
        ∧ (act ≠ 0#32 → ∀ n, v.fib.freeLog = some n → takes (some n) (c.1 f) c.2.2.1 c.2.2.2.1 c.2.2.2.2.1 c.2.2.2.2.2))
    ∧ (Reads s v (.munbind f) f (pairSrcs f.a) ls fl →
        (act = 0#32 → idle (.munbind f)) ∧ (act ≠ 0#32 → takes none (.munbind f) base [] [] []))
    ∧ (Reads s v (.mbind f) f (pairSrcs f.a ++ (if s.leaderWord f n32 = some 0#32 then (fieldRegs f.b 2).map (Src.reg · .any) else pairSrcs f.b) ++ n32) ls fl →
        (act = 0#32 → idle (.mbind f)) ∧ (act ≠ 0#32 → takes none (.mbind f) base (ls.drop 2) [f.d] []))
    ∧ (∀ c ∈ ([.fence, .bar, .cbar] : List (Fields → Instr)), Reads s v (c f) f [] ls fl →
        ∃ t o, exec (c f) s = .next t ∧ Started s t v k o ∧ o.instr = c f ∧ o.logSlot = none ∧ o.active = act ∧ o.data = [] ∧ o.dest = []
          ∧ o.flags = fl)

/-- What the words of the class do when they perform. A fence waits for the group's earlier operations; an acquire of scope .clus or wider then empties the
core's cache, and a release leaves every line of it clean. The last group at a team barrier raises its generation and empties its arrived set; an
earlier one waits. ACQ of a free cell takes it, exclusively or shared, and REL gives it back. AWAIT of a differing word gives 1, and of an equal word
sleeps at its key's home slice; AWAKE wakes the oldest at its key and gives the number woken. MBIND and MUNBIND set and clear a region slot; with no entry of the cell and none free MBIND gives 1. An action over the
whole cache waits its turn with other groups' CINV and CWB (R266; the model's order: assumption 141) and for write-backs that a failed link or a
recovery holds up (assumption 130).
The request at the head of a cell's queue is granted when the cell admits it, and goes on to its acquire action; one that the cell does not admit stays
(R238, R241, R245-R251, R256, R257). -/
def Obligations.OrderingPerforms : Prop :=
  (∀ (s : State) (v : View) (o : Op) (f : Fields) (l : Fin 32), s.Sound → InFlight s v o →
    let ends (p : State → Prop) := ∃ t, exec (.memoryAccessComplete v.g o.id l) s = .next t ∧ Completed t v o ∧ p t
    let waits := exec (.memoryAccessComplete v.g o.id l) s = .next s
    let cell (pa : Nat) := s.cellState v.team.part pa
    let at_ (pa : Nat) := (∃ e, s.checkLane v o o.leaderLane = .ready pa e) ∧ s.way (sliceOf v.g.core) v.team.part pa = .free
      ∧ (s.line v.team.part pa).poison = false
    let alone (pa : Nat) := s.cells.get (memKey v.team.part pa) [] = []
    let status (t : State) (n : Nat) (w : Word) := BankGains s t v n o.active ⟨tagN32, lanesAll w⟩
    let ready := s.cacheStuck v.g.core = false
    s.cacheTurn v o = true →
    (o.instr = .fence f →
      (v.fib.earlier o.id = true ∨ (2 ≤ f.sc ∧ ¬ ready) → waits)
      ∧ (v.fib.earlier o.id = false → (2 ≤ f.sc → ready) → ends fun t => (f.sc < 2 → t.mem = s.mem ∧ (t.core v.g.core).l1 = v.core.l1)
        ∧ (2 ≤ f.sc → f.semS ≠ 2 → (t.core v.g.core).l1.cells = [])
        ∧ (2 ≤ f.sc → f.semS = 2 → ∀ n x, (t.core v.g.core).l1.find n = some x → x.dirty = [])))
    ∧ (o.instr = .bar f → f.sub.toNat < 16 → o.stage = 0 → v.fib.earlier o.id = false →
      let n := f.sub.toNat
      let b := barAt v.team.bars n
      let last := ∀ g ∈ v.core.liveGrps v.g.core v.slot.ctx, g = v.fib.grp ∨ g ∈ b.arrived
      (last → ends fun t => t.mem = s.mem ∧ ∃ m, t.team? v.g.core v.slot.ctx = some m ∧ barAt m.bars n = ⟨b.gen + 1#32, []⟩)
      ∧ (¬ last → ∃ t m g, exec (.memoryAccessComplete v.g o.id l) s = .next t ∧ t.mem = s.mem ∧ t.team? v.g.core v.slot.ctx = some m
          ∧ (barAt m.bars n).gen = b.gen ∧ v.fib.grp ∈ (barAt m.bars n).arrived ∧ t.fibre? v.g = some g ∧ g.off = v.fib.off
          ∧ g.outstanding = v.fib.outstanding))
    ∧ (∀ pa, o.instr = .acq f → o.stage = 0 → v.team.saving = none → at_ pa → alone pa → cellExcl (cell pa) = false →
      let got (w : DWord) := ∃ t g p, exec (.memoryAccessComplete v.g o.id l) s = .next t ∧ t.cellState v.team.part pa = w
        ∧ MemoryElsewhere s t v.team.part pa 8 ∧ t.fibre? v.g = some g ∧ g.op? o.id = some p ∧ p.stage = 2 ∧ g.outstanding = v.fib.outstanding
      (f.var3 = 1 → cellShared (cell pa) = 0 → got (cell pa ||| 0x8000_0000_0000_0000#64))
      ∧ (f.var3 ≠ 1 → cellShared (cell pa) < 0xFFFF_FFFF → got (cell pa + 1#64)))
    ∧ (o.instr = .acq f → o.stage = 2 → o.regions = [] → ends fun t => t.mem = s.mem)
    ∧ (∀ pa, o.instr = .rel f → o.regions = [] → (f.sc = 0 ∨ v.fib.earlier o.id = false) → at_ pa → alone pa →
      (cellExcl (cell pa) = true → ends fun t => t.cellState v.team.part pa = cell pa &&& 0x7FFF_FFFF_FFFF_FFFF#64
        ∧ MemoryElsewhere s t v.team.part pa 8)
      ∧ (cellExcl (cell pa) = false → 0 < cellShared (cell pa) → ends fun t => t.cellState v.team.part pa = cell pa - 1#64
        ∧ MemoryElsewhere s t v.team.part pa 8))
    ∧ (∀ pa n h, o.instr = .await f → o.stage = 0 → v.team.saving = none → v.fib.earlier o.id = false → at_ pa → o.dest = [.bank n] →
      s.tableSlice v.team.part pa = some h →
      let w := BitVec.ofNat 32 (leNat (s.readMem v.team.part pa 4))
      (w ≠ src o.data 0 o.leaderLane → ready → ends fun t => status t n 1#32)
      ∧ (w = src o.data 0 o.leaderLane → v.team.preq = false → (s.slice h).rendezvous.length < Config.rendezvousPlaces →
          ∃ t, exec (.memoryAccessComplete v.g o.id l) s = .next t ∧ t.mem = s.mem
            ∧ (t.slice h).rendezvous = (s.slice h).rendezvous ++ [⟨o.addr o.leaderLane, v.team.asid, pa, .group v.g, o.id⟩]
            ∧ (t.fibre? v.g).map Fibre.outstanding = some v.fib.outstanding))
    ∧ (∀ pa n h, o.instr = .awake f → f.sub = 0#8 → ready → v.fib.earlier o.id = false → at_ pa → o.dest = [.bank n] → s.tableSlice v.team.part pa = some h →
      let mine (w : Waiter) : Bool := w.va == o.addr o.leaderLane && w.asid == v.team.asid
      ((s.slice h).rendezvous.filter mine = [] → ends fun t => status t n 0#32 ∧ (t.slice h).rendezvous = (s.slice h).rendezvous)
      ∧ (∀ w rest a, (s.slice h).rendezvous.filter mine = w :: rest → w.agent = .group a → a ≠ v.g → ends fun t => status t n 1#32
          ∧ (t.slice h).rendezvous = (s.slice h).rendezvous.erase w
          ∧ ∀ x p, s.fibre? a = some x → x.op? w.opId = some p → ∃ y q, t.fibre? a = some y ∧ y.op? w.opId = some q ∧ q.stage = 2 ∧ q.value = 0))
    ∧ (∀ n, o.instr = .mbind f → o.dest = [.bank n] → s.laneFault v o o.leaderLane = none →
      let a := o.addr o.leaderLane
      let len := (src o.data 2 o.leaderLane).toNat
      let own := ∃ b ∈ v.team.bindings, b.cell = a
      (len = 0 → own ∨ v.team.bindings.length < 16 → ends fun t => status t n 0#32 ∧ t.mem = s.mem ∧ ∃ m, t.team? v.g.core v.slot.ctx = some m
        ∧ ∀ b ∈ m.bindings, b.cell = a → b.slots.find f.sub.toNat = none)
      ∧ (len ≠ 0 → v.team.bindings.length < 16 → ends fun t => status t n 0#32 ∧ t.mem = s.mem ∧ ∃ m b, t.team? v.g.core v.slot.ctx = some m
        ∧ b ∈ m.bindings ∧ b.cell = a ∧ b.slots.find f.sub.toNat = some (src64 o.data 0 o.leaderLane, len))
      ∧ (¬ own → 16 ≤ v.team.bindings.length → ends fun t => status t n 1#32 ∧ t.mem = s.mem
        ∧ (t.team? v.g.core v.slot.ctx).map Team.bindings = some v.team.bindings))
    ∧ (o.instr = .munbind f → ends fun t => t.mem = s.mem ∧ ∃ m, t.team? v.g.core v.slot.ctx = some m
        ∧ ∀ b ∈ m.bindings, b.cell = o.addr o.leaderLane → b.slots.find f.sub.toNat = none))
  ∧ (∀ (s : State) (part pa id : Nat) (g : GroupRef) (x : Fibre) (p : Op) (excl : Bool) (rest : List CellReq), s.Sound →
    s.cells.get (memKey part pa) [] = ⟨.group g, id, excl⟩ :: rest → s.fibre? g = some x → x.op? id = some p →
    let w := s.cellState part pa
    (¬ (cellExcl w = false ∧ (if excl then cellShared w = 0 else cellShared w < 0xFFFF_FFFF)) → exec (.cellGrant part pa) s = .next s)
    ∧ (cellExcl w = false → (if excl then cellShared w = 0 else cellShared w < 0xFFFF_FFFF) → rest = [] →
      ∃ t y q, exec (.cellGrant part pa) s = .next t ∧ t.cells.get (memKey part pa) [] = []
        ∧ t.cellState part pa = (if excl then w ||| 0x8000_0000_0000_0000#64 else w + 1#64) ∧ MemoryElsewhere s t part pa 8
        ∧ t.fibre? g = some y ∧ y.op? id = some q ∧ q.stage = 2 ∧ y.off = x.off ∧ y.outstanding = x.outstanding))

/-! ### The copy engine (R267-R281) -/

/-- CPY, CPYG, CPYM, CPYN and CPYF take their quad, addresses, pitch and values in the leader lane at issue, CPYG its index in every lane, and join the
core's queue of at most 64 with their counter raised, those of one clock by their sub-partitions; a full queue holds the word; no active lane, or a width of 0, moves nothing; a quad whose
first word breaks its layout joins the queue with nothing to serve, and its fault 0x12 is taken with ENTRY 0xF; the flags of its reads stay with the copy (R46, R267-R271, R273-R277). -/
def Obligations.CopyIssue : Prop :=
  ∀ (s : State) (v : View) (f : Fields) (ls : List Lanes) (fl : Word) (k : Nat), f.signal = some k →
    let act := v.active f.guard
    let q (n : Nat) : Word := src ls n v.leader
    let sp : Nat := match f.ext with
      | .imm x => x.toNat
      | _ => (q 0).toNat
    let after (p : CopyOp) : Bool := p.issued == v.core.clock && decide (v.g.sub < p.g.sub)
    let queued (i : Instr) (t : State) (g : Fibre) (o : CopyOp) := exec i s = .next t ∧ t.fibre? v.g = some g ∧ g.off = v.fib.off + 1
      ∧ g.exm = v.fib.exm ∧ g.gst = v.fib.gst ∧ o.flags = fl ∧ g.results = v.fib.results
      ∧ g.outstanding = v.fib.outstanding ++ [⟨v.fib.nextId, k, false, 0#32⟩]
      ∧ (t.core v.g.core).copies = v.core.copies.takeWhile (fun p => !after p) ++ o :: v.core.copies.dropWhile (fun p => !after p)
      ∧ (t.core v.g.core).copyId = v.core.copyId + 1 ∧ (t.core v.g.core).scratch = v.core.scratch ∧ o.id = v.core.copyId ∧ o.g = v.g
      ∧ o.issued = v.core.clock
      ∧ o.opId = v.fib.nextId ∧ o.ctx = v.slot.ctx ∧ o.instr = i ∧ o.active = act ∧ o.leader = v.leader.val ∧ o.shape = [q 0, q 1, q 2, q 3] ∧ o.sent = []
      ∧ o.started = false ∧ ∀ b, ((t.core v.g.core).sub b).bank = ((s.core v.g.core).sub b).bank
    let rules (i : Instr) (sound some_ : Prop) (p : CopyOp → Prop) :=
      (act = 0#32 → ∃ t, exec i s = .next t ∧ Idle s t v k fl)
        ∧ (sound → q 0 = 0#32 → ∃ t, exec i s = .next t ∧ Idle s t v k fl)
        ∧ (act ≠ 0#32 → sound → some_ → q 0 ≠ 0#32 → (q 0).toNat < 2 ^ 24 →
            (Config.copyQueue ≤ v.core.copies.length → exec i s = .next s)
            ∧ (v.core.copies.length < Config.copyQueue → ∃ t g o, queued i t g o ∧ g.frozen = v.fib.frozen ∧ t.mem = s.mem ∧ o.streams = o.parts ∧ p o))
        ∧ (act ≠ 0#32 → 2 ^ 24 ≤ (q 0).toNat → v.core.copies.length < Config.copyQueue →
            ∃ t g o r, queued i t g o ∧ g.frozen = true ∧ o.streams = []
              ∧ (t.slice (sliceOf v.g.core)).fault.live = (s.slice (sliceOf v.g.core)).fault.live ++ [r] ∧ r.cause = 0x12#8 ∧ r.entry = 0x0F#8
              ∧ r.agent = .group v.g ∧ r.opId = v.fib.nextId ∧ r.full.lanes = 1#32 <<< v.leader.val)
    (Reads s v (.cpy f) f (quadSrcs f ++ pairSrcs f.a ++ regSrcs f.b [.tag tagN32]) ls fl →
      rules (.cpy f) True True fun o => o.global = src64 ls 4 v.leader ∧ o.base = (q 6).toNat ∧ o.pitch = sp)
    ∧ (Reads s v (.cpyg f) f (quadSrcs f ++ pairSrcs f.a ++ regSrcs f.b [.tag tagN32]) ls fl →
      rules (.cpyg f) (q 3 = 0#32) True fun o => o.global = src64 ls 4 v.leader ∧ (∀ l, lane o.index l = src ls 6 l) ∧ o.pitch = sp)
    ∧ (Reads s v (.cpym f) f (quadSrcs f ++ pairSrcs f.a ++ regSrcs f.b [.tag tagN32] ++ src3 f .n32 [.tag tagN32]) ls fl →
      rules (.cpym f) True (q 7 ≠ 0#32) fun o => o.global = src64 ls 4 v.leader ∧ o.base = (q 6).toNat ∧ o.value = (q 7).setWidth 64
        ∧ o.pitch = (q 0).toNat)
    ∧ (Reads s v (.cpyn f) f (quadSrcs f ++ pairSrcs f.a) ls fl → rules (.cpyn f) True True fun o => o.global = src64 ls 4 v.leader)
    ∧ (∀ glob wide : Bool, f.sub.getLsbD 2 = glob → decide (f.sub.toNat % 4 = 3) = wide →
      Reads s v (.cpyf f) f (quadSrcs f ++ (if glob then pairSrcs f.a else regSrcs f.a [.tag tagN32])
        ++ (if wide then regSrcs f.b [.any, .any] else regSrcs f.b [.any])) ls fl →
      let a := if glob then (src64 ls 4 v.leader).toNat else (q 4).toNat
      let n := if glob then 6 else 5
      rules (.cpyf f) (a % 2 ^ (f.sub.toNat % 4) = 0 ∧ (q 0).toNat % 2 ^ (f.sub.toNat % 4) = 0) True fun o =>
        (glob = true → o.global.toNat = a) ∧ (glob = false → o.base = a)
          ∧ o.value = if wide then src64 ls n v.leader else (src ls n v.leader).setWidth 64)

/-- A copy's rows and segments: row y of plane z of a tile starts at A + z·q3 + y·q2 modulo 2^64 and at B + z·sp·rows + y·sp; the copy of R272's example
has 12 segments, and 8 from a line's start. COPY_SEGMENT_ISSUE performs the one segment left of a copy that nothing blocks: the bytes of memory go to the
team's scratchpad, under .out the scratchpad's to memory and nowhere else, and a fill writes its pattern. COPY_COMPLETE then takes a copy with nothing
left out of the queue, its counter falls in its place, and its flags join (R46, R252, R267, R268, R271, R272, R276, R278). -/
def Obligations.CopyEngine : Prop :=
  (∀ (o : CopyOp) (f : Fields) (z y : Nat), o.instr = .cpy f → f.sub.toNat % 4 = 2 → y < o.q 1 % 65536 + 1 →
    let rows := o.q 1 % 65536 + 1
    o.rowGlobal (z * rows + y) = (o.global.toNat + z * o.q 3 + y * o.q 2) % 2 ^ 64
      ∧ o.rowScratch (z * rows + y) = o.base + z * (o.pitch * rows) + y * o.pitch)
  ∧ (∀ (o : CopyOp) (f : Fields), o.instr = .cpy f → f.sub = 1#8 → o.shape = [256#32, 3#32, 4096#32, 0#32] →
    (o.global = 0x2000_0000_0040#64 → o.parts.map (fun t => (o.segsLeft t).length) = [12])
      ∧ (o.global = 0x2000_0000_0000#64 → o.parts.map (fun t => (o.segsLeft t).length) = [8]))
  ∧ (∀ (s : State) (v : View) (o : CopyOp) (t0 : CopyStream) (ps : List Nat), s.Sound → s.view v.g = some v → v.core.copies = [o] → o.g = v.g →
    o.ctx = v.slot.ctx → o.streams = [t0] → t0.fail = none → t0.ftag = none → t0.row < t0.rows → (o.advance t0).rows ≤ (o.advance t0).row → o.sent = [] →
    v.team.saving = none → v.team.holdIssue = false → o.issued < v.core.clock → v.core.segs < 2 → o.waitPages = [] → o.walkFaults = [] →
    s.copyBlocked o [] t0 = false →
    let g := o.seg t0
    let served (p : State → Prop) := ∃ t p1, exec (.copySegmentIssue v.g.core) s = .next t ∧ (t.core v.g.core).copies = [p1] ∧ p1.id = o.id
      ∧ p1.opId = o.opId ∧ p1.complete = true ∧ (∀ h, t.fibre? h = s.fibre? h) ∧ p t
    let placed := v.team.scratchPlaces g.off g.len = some ps ∧ ps.Nodup
    let reaches (pa : Nat) := canonical (BitVec.ofNat 64 g.va) = true ∧ (∃ e, v.core.tlb.find? (fun e => e.covers v.team.asid v.team.desc.world (BitVec.ofNat 64 g.va)) = some e
        ∧ permCause e o.sup (!o.toGlobal) o.toGlobal v.team.desc.world = none ∧ e.phys (BitVec.ofNat 64 g.va) = pa ∧ s.aliasCause v.team.part pa e = none)
      ∧ s.violation v.team.part pa = none ∧ s.way (sliceOf v.g.core) v.team.part pa = .free ∧ (s.line v.team.part pa).poison = false ∧ v.core.l1.find (pa / 128) = none ∧ v.core.launchView = .empty
    (∀ f pa, o.instr = .cpy f → placed → reaches pa →
      (f.sub.getLsbD 2 = false → served fun t => t.mem = s.mem ∧ (ps.map fun p => (t.core v.g.core).scratch.get p 0#8) = s.readMem v.team.part pa g.len
        ∧ ∀ p, p ∉ ps → (t.core v.g.core).scratch.get p 0#8 = v.core.scratch.get p 0#8)
      ∧ (f.sub.getLsbD 2 = true → served fun t => t.readMem v.team.part pa g.len = (ps.map fun p => v.core.scratch.get p 0#8)
        ∧ MemoryElsewhere s t v.team.part pa g.len ∧ (t.core v.g.core).scratch = v.core.scratch))
    ∧ (∀ f, o.instr = .cpyf f → f.sub.getLsbD 2 = false → placed → served fun t => t.mem = s.mem
        ∧ (ps.map fun p => (t.core v.g.core).scratch.get p 0#8)
          = (List.range g.len).map fun i => o.value.extractLsb' (8 * ((g.x + i) % 2 ^ (f.sub.toNat % 4))) 8))
  ∧ (∀ (s : State) (v : View) (o : CopyOp), s.view v.g = some v → v.core.copies.find? (fun p => p.id == o.id) = some o → o.g = v.g → o.ctx = v.slot.ctx →
    o.complete = true → v.fib.aborting = false →
    ∃ t, exec (.copyComplete v.g.core o.id) s = .next t ∧ t.fibre? v.g = some { v.fib.complete o.opId with gst := (v.fib.complete o.opId).gst ||| o.flags }
      ∧ (t.core v.g.core).copies = v.core.copies.filter (fun p => p.id ≠ o.id) ∧ t.mem = s.mem ∧ (t.core v.g.core).scratch = v.core.scratch)

/-! ### The matrix class (R282-R311) -/

/-- The words of the matrix class at issue. With no active lane a word only completes. A map number at or above NM, or a tile number at or above NT, is
fault 0x50 with ENTRY 0xE, the leader lane and the number as ADDRESS, and an unreserved map 0x51. MAPRES takes a free map with its quad's fields and result
0, and gives 1 for a reserved one; MAPSET replaces a field; MAPGET reads one; MAPREL frees the map; their counter is due to fall 4 clocks later.
ACCZ, ACCLD, ACCST, ACCQ, ACCADD and the products MMA, MMAS and MMAG enter the unit's queue with what they capture; the flags of their reads stay
with them. That MAPSET .world of an unreserved map faults is the model's reading (assumption 48) (R46, R282, R284, R286-R296, R299, R302-R309). -/
def Obligations.MatrixIssue : Prop :=
  ∀ (s : State) (v : View) (f : Fields) (ls : List Lanes) (fl : Word) (k : Nat), f.signal = some k →
    let act := v.active f.guard
    let mapNo := (f.sub &&& 15#8).toNat
    let sel := (f.sub >>> 4).toNat
    let n32 := [Expect.tag tagN32]
    let faults (i : Instr) (c : Byte) (n : Nat) := ∃ e, exec i s = .next (s.takeFaultS v e) ∧ e.cause = c ∧ e.entry = 0x0E#8
      ∧ e.lanes = 1#32 <<< v.leader.val ∧ e.address = BitVec.ofNat 64 n ∧ e.pc = codeAddress v.fib.handle v.fib.off
    let blank : OpMap := ⟨false, 0, 0, false, 0, 0, 0, 0, 0, 0, 0⟩
    let after (i : Instr) (p : Nat) (m : OpMap) (result : Option Word) := ∃ t o, exec i s = .next t ∧ EntersUnit s t v k fl i o
      ∧ o.started = some v.core.clock ∧ o.doneAt = v.core.clock + 4 ∧ o.active = act
      ∧ (∀ w, result = some w → o.data = [lanesAll w] ∧ o.dest = [v.place f.d]) ∧ (result = none → o.dest = [])
      ∧ ((t.core v.g.core).sub v.g.sub).maps.get p blank = m
      ∧ ∀ q, q ≠ p → ((t.core v.g.core).sub v.g.sub).maps.get q blank = v.sub.maps.get q blank
    let enters (i : Instr) (p : MatOp → Prop) := ∃ t o, exec i s = .next t ∧ EntersUnit s t v k fl i o ∧ o.started = none ∧ o.active = act ∧ p o
      ∧ ((t.core v.g.core).sub v.g.sub).maps = v.sub.maps
    let mapSet : List Src := if f.ext = .none then regSrcs f.a n32 else xWords .n32 f.ext
    (∀ c ∈ ([(.mapres, regSrcs f.a [.tag tagN32, .tag tagN32, .tag tagN32, .tag tagN32]), (.mapset, mapSet), (.mapget, []), (.maprel, [])]
        : List ((Fields → Instr) × List Src)), Reads s v (c.1 f) f c.2 ls fl →
      (act = 0#32 → ∃ t, exec (c.1 f) s = .next t ∧ Idle s t v k fl) ∧ (act ≠ 0#32 → v.mapNum mapNo = none → faults (c.1 f) 0x50#8 mapNo))
    ∧ (∀ p, act ≠ 0#32 → v.mapNum mapNo = some p →
      let m := v.sub.maps.get p blank
      (Reads s v (.mapres f) f (regSrcs f.a [.tag tagN32, .tag tagN32, .tag tagN32, .tag tagN32]) ls fl →
        let q (n : Nat) : Word := src ls n v.leader
        let r : OpMap := ⟨true, (q 0).setWidth 21, (q 1).setWidth 22, (q 2).getLsbD 24, (q 2).setWidth 16, (q 2).extractLsb' 16 6,
          (q 2).extractLsb' 22 2, q 3, 0xFFFF_FFFF#32, 0xFFFF_FFFF#32, BitVec.ofNat 4 v.team.desc.world⟩
        (m.reserved = true → after (.mapres f) p m (some 1#32))
          ∧ (m.reserved = false → (q 0).toNat < 2 ^ 21 → (q 1).toNat < 2 ^ 22 → (q 2).toNat < 2 ^ 25 → r.check v.team.desc.scratch = none →
              after (.mapres f) p r (some 0#32)))
      ∧ (Reads s v (.mapset f) f mapSet ls fl →
        (m.reserved = false → faults (.mapset f) 0x51#8 mapNo)
          ∧ (m.reserved = true → sel = 9 → after (.mapset f) p m none)
          ∧ (∀ r, m.reserved = true → sel ≤ 8 → m.setField sel (src ls 0 v.leader) = some r → r.check v.team.desc.scratch = none →
              after (.mapset f) p r none ∧ r.field sel = src ls 0 v.leader ∧ ∀ j, j ≤ 8 → j ≠ sel → r.field j = m.field j))
      ∧ (Reads s v (.mapget f) f [] ls fl →
        (m.reserved = false → faults (.mapget f) 0x51#8 mapNo) ∧ (m.reserved = true → after (.mapget f) p m (some (m.field sel))))
      ∧ (Reads s v (.maprel f) f [] ls fl → after (.maprel f) p { m with reserved := false } none))
    ∧ (∀ c ∈ ([(.accz, []), (.accld, []), (.accadd, regSrcs f.a (List.replicate (accRows f) (.tag tagF32))), (.accst, regSrcs f.a n32 ++ regSrcs f.b n32),
               (.accq, regSrcs f.a n32 ++ regSrcs f.b n32), (.mma, []), (.mmas, []), (.mmag, regSrcs f.a n32)]
        : List ((Fields → Instr) × List Src)), Reads s v (c.1 f) f c.2 ls fl →
      (act = 0#32 → ∃ t, exec (c.1 f) s = .next t ∧ Idle s t v k fl) ∧ (act ≠ 0#32 → v.matRoom = false → exec (c.1 f) s = .next s)
        ∧ (act ≠ 0#32 → v.matRoom = true → v.tileNum f.tl = none → faults (c.1 f) 0x50#8 f.tl))
    ∧ (∀ p, act ≠ 0#32 → v.matRoom = true → v.tileNum f.tl = some p →
      let a := (src ls 0 v.leader).toNat
      let b := (src ls 1 v.leader).toNat
      (Reads s v (.accz f) f [] ls fl → enters (.accz f) fun o => o.tile = p)
      ∧ (Reads s v (.accld f) f [] ls fl → enters (.accld f) fun o => o.tile = p ∧ o.dest = (fieldRegs f.d (accRows f)).map v.place)
      ∧ (Reads s v (.accadd f) f (regSrcs f.a (List.replicate (accRows f) (.tag tagF32))) ls fl → enters (.accadd f) fun o => o.tile = p ∧ o.data = ls)
      ∧ (Reads s v (.accst f) f (regSrcs f.a n32 ++ regSrcs f.b n32) ls fl → f.rmCtl ≠ 5 → a % accWidth f.fcCtl = 0 → b % accWidth f.fcCtl = 0 →
          a + 31 * b + 32 * accWidth f.fcCtl ≤ v.team.desc.scratch → enters (.accst f) fun o => o.tile = p ∧ o.base = a ∧ o.other = b)
      ∧ (Reads s v (.accq f) f (regSrcs f.a n32 ++ regSrcs f.b n32) ls fl → a + 1024 ≤ v.team.desc.scratch → b + 32 ≤ v.team.desc.scratch →
          enters (.accq f) fun o => o.tile = p ∧ o.base = a ∧ o.other = b)
      ∧ (∀ c ∈ ([(.mma, [], []), (.mmas, [], []), (.mmag, regSrcs f.a n32, ls)] : List ((Fields → Instr) × List Src × List Lanes)),
        Reads s v (c.1 f) f c.2.1 ls fl →
        let n := (productMaps (c.1 f)).getD (0, 0, 0)
        (∀ e, v.productMap n.1 = .error e → faults (c.1 f) e.1 e.2)
          ∧ (∀ x y, v.productMap n.1 = .ok x → v.productMap n.2.1 = .ok y → x.wide = y.wide → (x.scaled = false ∨ y.scaled = false ∨ x.blk = y.blk) →
              x.perm = noArray → y.perm = noArray →
              (∀ o : MatOp, o.instr = c.1 f → o.maps = [x, y] → o.table = none → o.active = act → o.data = c.2.2 →
                o.checkElements = none ∧ o.checkScales v.team.desc.scratch = none ∧ o.checkBitmap v.team.desc.scratch = none ∧ ∀ l : Fin 32, act.getLsbD l = true → o.checkRow v.team.desc.scratch l = none) →
              enters (c.1 f) fun o => o.tile = p ∧ o.maps = [x, y] ∧ o.table = none ∧ o.data = c.2.2)))

/-- The matrix unit. A started MMA, MMAS or MMAG adds to each element of its tile the products of A's row and B's column, of elements of 16, 8 or
6 bits with their block scales and stored positions, in chunks of L, each chunk with one rounding; MMAS reads +0 where the bitmap's bit is clear, MMAG takes
the rows its lanes name and +0 for an absent one, also against an infinity (the model's reading: assumption 47). With f = 4 for 16-bit maps and else 1 the unit is occupied for K·f clocks (MMA), 8·m·f for the largest
count m of a quad's set blocks (MMAS) and g + K·f (MMAG), and the product completes 6 clocks after that. ACCZ clears its active columns; ACCADD adds its
registers to its rows with one rounding; ACCLD reads its rows, ACCST and ACCQ the bytes that they write, as they start: ACCQ a scale code for each row and
its elements divided by it. At completion ACCLD writes its rows to registers, ACCST and ACCQ their bytes to the scratchpad, MAPGET and MAPRES their word,
the flags join and the counter falls in its place. The holds of a product end with its occupancy, and an idle active unit leaves or asks to leave; a window
of the limiter begins with UP and DOWN of the band of ACTIVE (R285, R290-R297, R303-R307, R388, R389). -/
def Obligations.MatrixUnit : Prop :=
  (∀ (s : State) (v : View) (o : MatOp) (f : Fields), v.sub.matHead = some o → o.group v.g.core v.g.sub = v.g → s.view v.g = some v →
    v.core.closing = true → v.sub.canStart v.core.clock = true → v.sub.storesDue = [] →
    let bytes (a : Nat) : Byte := match v.team.scratchAt a 1 with
      | some p => v.core.scratch.get p 0#8
      | none => 0#8
    let starts (occ total : Nat) (r : MatOp → Prop) (q : (Nat → Fin 32 → Word) → Prop) := ∃ t p, exec (.matrixOpStart v.g.core v.g.sub) s = .next t
      ∧ p ∈ ((t.core v.g.core).sub v.g.sub).matrix ∧ p.seq = o.seq ∧ p.started = some v.core.clock ∧ p.occEnd = v.core.clock + occ
      ∧ p.doneAt = v.core.clock + total ∧ r p ∧ (t.core v.g.core).scratch = v.core.scratch ∧ t.mem = s.mem
      ∧ ((t.core v.g.core).sub v.g.sub).bank = v.sub.bank
      ∧ q fun i j => lane ((((t.core v.g.core).sub v.g.sub).tile o.tile).getD i (lanesAll 0#32)) j
    let old (i : Nat) (j : Fin 32) : Word := lane ((v.sub.tile o.tile).getD i (lanesAll 0#32)) j
    (o.instr = .accz f → (v.sub.tile o.tile).length = 32 →
      starts 1 4 (fun _ => True) fun new => ∀ i j, i < 32 → new i j = if o.active.getLsbD j = true then 0#32 else old i j)
    ∧ (o.instr = .accld f → accRows f = 1 →
      starts 1 5 (fun p => p.data = [(v.sub.tile o.tile).getD (accRow f) (lanesAll 0#32)]) fun new => ∀ i j, new i j = old i j)
    ∧ (o.instr = .accst f → f.fcCtl = 3 →
      starts 16 24 (fun p => ∀ (i : Nat) (j : Fin 32) (b : Nat), i < 32 → o.active.getLsbD j = true → b < 4 →
        (o.base + i * o.other + 4 * j.val + b, element 8 (old i j) b) ∈ p.bytes) fun new => ∀ i j, new i j = old i j)
    ∧ (o.instr = .accadd f → (v.sub.tile o.tile).length = 32 →
      let n := accRows f
      let r := accRow f
      starts (max 1 ((n + 1) / 2)) (4 + (n + 1) / 2) (fun _ => True) fun new => ∀ (i : Nat) (j : Fin 32), i < 32 →
        (r ≤ i → i < r + n → o.active.getLsbD j = true →
          let c := fmtF32.decode (old i j).toNat
          let x := fmtF32.decode (lane (o.data.getD (i - r) (lanesAll 0#32)) j).toNat
          ∃ w, OneRounding fmtF32 .rne [c, x] [some c, some x] false ((new i j).toNat, w))
        ∧ (¬ (r ≤ i ∧ i < r + n ∧ o.active.getLsbD j = true) → new i j = old i j))
    ∧ (o.instr = .accq f → (f.imm20 >>> 15).toNat % 8 ≠ 0 →
      let p8 := fmtBinary8 (f.imm20 >>> 15).toNat
      starts 24 32 (fun p => (∀ b ∈ p.bytes, ∃ i, i < 32 ∧ (b.1 = o.other + i ∨ ∃ j : Fin 32, o.active.getLsbD j = true ∧ b.1 = o.base + 32 * i + j.val))
        ∧ ∀ i, i < 32 →
          let x (j : Fin 32) := fmtF32.decode (old i j).toNat
          let bad := ∃ j : Fin 32, o.active.getLsbD j = true ∧ ((x j).isNan = true ∨ (x j).isInf = true)
          let fits (k : Int) := ∀ j : Fin 32, o.active.getLsbD j = true → |(x j).rat| ≤ 2 ^ k * (p8.decode p8.maxCode).rat
          ∃ c, c < 256 ∧ (o.other + i, BitVec.ofNat 8 c) ∈ p.bytes
            ∧ (bad → c = 0xFF) ∧ (¬ bad → (∀ j : Fin 32, o.active.getLsbD j = true → (x j).rat = 0) → c = 1)
            ∧ (¬ bad → (∃ j : Fin 32, o.active.getLsbD j = true ∧ (x j).rat ≠ 0) → ∃ k : Int, fits k ∧ (∀ m, fits m → k ≤ m) ∧ (c : Int) = min (max k (-127)) 125 + 128)
            ∧ ∀ j : Fin 32, o.active.getLsbD j = true → (o.base + 32 * i + j.val, BitVec.ofNat 8
                (if c = 0xFF then p8.nanCode else (p8.conv .rne true ((x j).scaleDown ((c : Int) - 128))).1)) ∈ p.bytes)
        fun new => ∀ i j, new i j = old i j)
    ∧ (o.instr = .mma f ∨ o.instr = .mmas f ∨ o.instr = .mmag f → v.sub.matActive = true → o.mapA.wide = o.mapB.wide →
      (o.mapA.scaled = true → o.mapB.scaled = true → o.mapA.blk = o.mapB.blk) →
      let K := 32 * (((f.imm20 >>> 12) &&& 15#20).toNat + 1)
      let slow := if o.mapA.wide = true then 4 else 1
      let width (m : OpMap) := if m.wide = true then 16 else if 32 ≤ m.fmt.toNat then 8 else 6
      let element (m : OpMap) (run at_ : Nat) : FVal := (fmtOfFc m.fmt.toNat).decode ((List.range (width m)).map fun b =>
        let n := width m * at_ + b
        if (bytes (m.base.toNat + run * m.pitch.toNat + n / 8)).getLsbD (n % 8) = true then 2 ^ b else 0).sum
      let scaled (m : OpMap) (rc k : Nat) (x : FVal) : FVal :=
        if m.scaled = true then (x.times (scaleValue (bytes (m.scaleOff + rc * m.scaleStride + k / m.block)).toNat)).getD (.nan false) else x
      let stored (k : Nat) : Nat := match o.table with
        | some t => t.getD k 0
        | none => k
      let set (quad block : Nat) : Prop := o.instr = .mmas f → o.mapA.bmap ≠ noArray →
        (bytes (o.mapA.bmap.toNat + 8 * quad + block / 8)).getLsbD (block % 8) = true
      let A (x : FVal) (i : Fin 32) (k : Nat) : Prop :=
        let row := if o.instr = .mmag f then (lane (o.data.getD 0 (lanesAll 0#32)) i).toNat else i.val
        (o.instr = .mmag f → o.active.getLsbD i = false → x = .fin false 0 0)
          ∧ ((o.instr = .mmag f → o.active.getLsbD i = true) →
            (set (i.val / 8) (k / 8) → x = scaled o.mapA row k (if o.mapA.layout = true then element o.mapA (stored k) row else element o.mapA row (stored k)))
              ∧ (¬ set (i.val / 8) (k / 8) → x = scaled o.mapA row k (.fin false 0 0)))
      let B (k : Nat) (j : Fin 32) : FVal :=
        scaled o.mapB j.val k (if o.mapB.layout = true then element o.mapB j.val (stored k) else element o.mapB (stored k) j.val)
      let L := if o.mapA.scaled = true then o.mapA.block else if o.mapB.scaled = true then o.mapB.block else 32
      ∀ occ, (o.instr = .mma f → occ = K * slow) → (o.instr = .mmag f → occ = (K * width o.mapA + 15) / 16 + K * slow) →
        (o.instr = .mmas f → ∃ ones : Nat → List Nat, (∀ q, q < 4 → (ones q).Nodup ∧ ∀ b, b ∈ ones q ↔ b < K / 8 ∧ set q b)
          ∧ (∀ q, q < 4 → 8 * slow * (ones q).length ≤ occ) ∧ ∃ q, q < 4 ∧ occ = 8 * slow * (ones q).length) →
        starts (max 1 occ) (6 + occ) (fun _ => True) fun new => ∀ (i j : Fin 32), ∃ (c : Nat → Word) (x : Nat → FVal), (∀ k, A (x k) i k)
          ∧ c 0 = old i.val j ∧ c (K / L) = new i.val j
          ∧ ∀ q, q < K / L →
            let pairs := (List.range L).map fun e => (x (L * q + e), B (L * q + e) j)
            let a := fmtF32.decode (c q).toNat
            ∃ w, OneRounding fmtF32 .rne (a :: pairs.flatMap fun p => [p.1, p.2]) (some a :: pairs.map fun p => p.1.times p.2) false
              ((c (q + 1)).toNat, w)))
  ∧ (∀ (s : State) (v : View) (o : MatOp) (f : Fields) (n : Nat) (d : Lanes), s.view v.g = some v → o.group v.g.core v.g.sub = v.g →
    o.ctx = v.slot.ctx → v.fib.aborting = false → v.sub.matrix.find? (fun p => p.seq == o.seq) = some o → o.started ≠ none → o.doneAt ≤ v.core.clock → v.core.closing = true →
    let completes (p : State → Prop) := ∃ t g, exec (.matrixOpComplete v.g.core v.g.sub o.seq) s = .next t ∧ t.fibre? v.g = some g
      ∧ g.outstanding = (v.fib.complete o.id).outstanding ∧ g.off = v.fib.off ∧ g.exm = v.fib.exm ∧ g.gst = v.fib.gst ||| o.flags
      ∧ ((t.core v.g.core).sub v.g.sub).matrix.any (fun p => p.seq == o.seq) = false ∧ t.mem = s.mem ∧ p t
    (o.instr = .accld f → o.data = [d] → o.dest = [.bank n] → completes fun t => BankGains s t v n o.active ⟨tagF32, d⟩)
    ∧ (o.instr = .mapget f ∨ o.instr = .mapres f → o.data = [d] → o.dest = [.bank n] → completes fun t => BankGains s t v n o.active ⟨tagN32, d⟩)
    ∧ (o.instr = .accst f ∨ o.instr = .accq f → o.written = false → s.storeWaits v.g.core v.g.sub o v.team = false → (o.bytes.map (·.1)).Nodup →
      (∀ x ∈ o.bytes, x.1 < v.team.desc.scratch ∧ x.1 < 131072) →
      completes fun t => (∀ x ∈ o.bytes, (t.core v.g.core).scratch.get (v.team.granules.getD 0 0 * 131072 + x.1) 0#8 = x.2)
        ∧ ∀ q, (∀ x ∈ o.bytes, q ≠ v.team.granules.getD 0 0 * 131072 + x.1) →
            (t.core v.g.core).scratch.get q 0#8 = v.core.scratch.get q 0#8))
  ∧ (∀ (s : State) (core sub : Nat),
    let k := s.core core
    let x := k.sub sub
    let quiet := x.matActive = true ∧ x.matHead = none ∧ x.matLeave = none ∧ ∀ o ∈ x.matrix, o.isProduct = true → o.started ≠ none ∧ o.occEnd ≤ k.clock
    let now := k.power.window = k.clock / 4 * 4 + 1 ∧ 0 < k.power.downs
    k.closing = true → ∃ t, exec (.matrixOccupancyEnd core sub) s = .next t
      ∧ (∀ o ∈ ((t.core core).sub sub).matrix, o.started ≠ none → o.occEnd ≤ k.clock → o.reads = [])
      ∧ (quiet → now → ((t.core core).sub sub).matActive = false ∧ (t.core core).power.downs = k.power.downs - 1)
      ∧ (quiet → ¬ now → ((t.core core).sub sub).matActive = true ∧ ((t.core core).sub sub).matLeave = some k.clock))
  ∧ (∀ (s : State) (core : Nat), (s.core core).clock % 4 = 0 → (s.core core).power.window ≠ (s.core core).clock + 1 →
    (∀ x ∈ (s.core core).subs.vals, x.matLeave = none) →
    let b := min 7 ((s.core core).activeUnits / 4)
    ∃ t, exec (.limiterWindow core) s = .next t ∧ (t.core core).power.window = (s.core core).clock + 1
      ∧ (t.core core).power.ups = (s.core core).power.up b ∧ (t.core core).power.downs = (s.core core).power.down b
      ∧ (t.core core).subs = (s.core core).subs)


/-! ### The system and trap class (R312-R334) -/

/-- SYSC, with every counter zero, an active lane and no call in progress, enters handler n for the lowest active lane alone, in supervisor mode, no earlier
than 3 clocks later, and saves where it came from; RETS enters it for the next lane, and after the last restores mask, mode and place. A call within a call,
and a SYSVEC not valid or naming a sealed user block, is fault 0x05, a handle that is not current fault 0x04. TRAP and BRK issue and then take fault 0x60 or
0x61 with their code as DETAIL. PSAVE parks the fibre under a request and else goes on. RETS in user mode is an illegal word. That the final RETS checks its
return as a transfer is the model's reading (assumption 56), and so is LANES = %exm in the record of an illegal RETS (assumption 11) (R48, R312, R318-R321, R327). -/
def Obligations.SystemCalls : Prop :=
  ∀ (s : State) (v : View) (f : Fields) (ls : List Lanes) (fl : Word),
    let act := v.active f.guard
    let faults (i : Instr) (c : Byte) := exec i s = .next (s.takeFaultS v (v.faultAt c (opSub i).1 f.sub v.fib.exm v.leader.val))
    let entered (i : Instr) (h : BitVec 12) (off : Nat) (m : Mask) (mode : Bool) (c : Option SysCtx) := ∃ t g, exec i s = .next t ∧ t.fibre? v.g = some g
      ∧ g.handle = h ∧ g.off = off ∧ g.earliest = v.core.clock + 3 ∧ g.exm = m ∧ g.gst = withMode (v.fib.gst ||| fl) mode ∧ g.sysc = c
      ∧ g.results = v.fib.results ∧ g.outstanding = [] ∧ g.ops = v.fib.ops ∧ RegistersKept s t v.g.core
    let e (n : Nat) : SysVec := v.core.sysvec.get n ⟨false, 0#24⟩
    let h (n : Nat) := (e n).target.extractLsb' 0 12
    let off (n : Nat) := ((e n).target.extractLsb' 12 12).toNat
    let handler (n : Nat) := (e n).valid = true ∧ ∃ b, v.core.current (h n) = some b ∧ b.st = .sealed ∧ b.sup = true ∧ off n < b.len
    let one (m : Mask) : Mask := 1#32 <<< (lowestLane m).val
    (Reads s v (.sysc f) f [] ls fl →
      let n := (f.imm20 &&& 0xFF#20).toNat
      (v.fib.outstanding ≠ [] → exec (.sysc f) s = .next s)
      ∧ (v.fib.outstanding = [] →
        (act = 0#32 → ∃ t g, exec (.sysc f) s = .next t ∧ NextWord t v g fl)
        ∧ (act ≠ 0#32 → v.fib.sysc ≠ none → faults (.sysc f) 0x05#8)
        ∧ (act ≠ 0#32 → v.fib.sysc = none →
          ((e n).valid = false → faults (.sysc f) 0x05#8)
          ∧ ((e n).valid = true → v.core.current (h n) = none → faults (.sysc f) 0x04#8)
          ∧ (∀ b, (e n).valid = true → v.core.current (h n) = some b → b.st = .sealed → b.sup = false → faults (.sysc f) 0x05#8)
          ∧ (handler n → entered (.sysc f) (h n) (off n) (one act) true
              (some ⟨v.fib.handle, v.fib.off + 1, v.fib.exm, v.fib.sup, n, act &&& ~~~one act⟩)))))
    ∧ (s.curView = some v → v.fib.sup = false →
        exec (.rets f) s = .next (s.takeFaultS v (v.faultAt 0x01#8 0xC1#8 f.sub v.fib.exm v.leader.val)))
    ∧ (Reads s v (.rets f) f [] ls fl → v.fib.sup = true →
      (v.fib.sysc = none → faults (.rets f) 0x05#8)
      ∧ ∀ c, v.fib.sysc = some c →
        (v.fib.outstanding ≠ [] → exec (.rets f) s = .next s)
        ∧ (v.fib.outstanding = [] → c.rest ≠ 0#32 → handler c.n →
            entered (.rets f) (h c.n) (off c.n) (one c.rest) true (some { c with rest := c.rest &&& ~~~one c.rest }))
        ∧ (v.fib.outstanding = [] → c.rest = 0#32 → ∀ b, v.core.current c.retHandle = some b → b.st ≠ .opened → b.owner = v.team.owner →
            (b.sup = true → c.mode = true) → c.retOff < b.len → c.retOff ≤ 4095 →
            entered (.rets f) c.retHandle c.retOff c.exm c.mode none))
    ∧ (∀ c ∈ ([(.trap, [], 0x60#8, f.imm20.setWidth 32), (.brk, [], 0x61#8, f.imm20.setWidth 32),
               (.trapReg, regSrcs f.a [.tag tagN32], 0x60#8, src ls 0 v.leader), (.brkReg, regSrcs f.a [.tag tagN32], 0x61#8, src ls 0 v.leader)]
          : List ((Fields → Instr) × List Src × Byte × Word)), Reads s v (c.1 f) f c.2.1 ls fl →
      (act = 0#32 → ∃ t g, exec (c.1 f) s = .next t ∧ NextWord t v g fl)
      ∧ (act ≠ 0#32 → ∃ t g r, exec (c.1 f) s = .next t ∧ t.fibre? v.g = some g ∧ g.handle = v.fib.handle ∧ g.off = v.fib.off + 1 ∧ g.frozen = true
          ∧ g.exm = v.fib.exm ∧ g.gst = v.fib.gst ||| fl ∧ g.results = v.fib.results ∧ g.outstanding = v.fib.outstanding
          ∧ (t.slice (sliceOf v.g.core)).fault.live = (s.slice (sliceOf v.g.core)).fault.live ++ [r] ∧ r.cause = c.2.2.1 ∧ r.agent = .group v.g
          ∧ r.full.lanes = act ∧ r.full.lane = BitVec.ofNat 8 (lowestLane act).val ∧ r.full.detail = c.2.2.2.setWidth 64
          ∧ r.full.pc = codeAddress v.fib.handle v.fib.off))
    ∧ (Reads s v (.psave f) f [] ls fl →
      (v.fib.outstanding ≠ [] → exec (.psave f) s = .next s)
      ∧ (v.fib.outstanding = [] → ∃ t g, exec (.psave f) s = .next t ∧ NextWord t v g fl
          ∧ g.parked = if v.team.preq then some (f.imm20.setWidth 4) else v.fib.parked))

/-- RDSR gives every active lane of D the register's value, and %cyc as a pair; WRSR writes %gst but for its reserved bits, and MODE only in supervisor mode,
%preq for the next clock, and the seeds of the active lanes, 0 becoming 1. INTR, TLBINV, CTXSAVE and CTXLOAD start one operation of the leader lane; in user
mode they are illegal. INTR, when every earlier operation of its group has performed, makes its identity pending in the hart's file, once no
line of the cache waits to be written back and no older action over it stands before; TLBINV removes the named translations; CTXSAVE of its own context gives 2 and of an empty one 1, and else its team's save begins; CTXLOAD of a text that is no image gives 3.
That an illegal word in user mode is found before its registers are checked, and that its LANES are %exm, are the model's choices (assumptions 12
and 11) (R48, R59, R126-R128, R182, R222, R323-R325, R333, R334). -/
def Obligations.SystemOperations : Prop :=
  (∀ (s : State) (v : View) (f : Fields) (ls : List Lanes) (fl : Word),
    let act := v.active f.guard
    let m := v.team
    let num (n x : Nat) : Nat × (Fin 32 → Word) := (n, fun _ => BitVec.ofNat 32 x)
    let wSrcs : List Src := if f.ext = .none then regSrcs f.a [.tag tagN32] else xWords .n32 f.ext
    (Reads s v (.rdsr f) f [] ls fl →
      (∀ c ∈ [(0x00, fun l : Fin 32 => BitVec.ofNat 32 l.val), num 0x01 v.fib.grp, num 0x02 v.g.fib, num 0x03 v.g.slot, num 0x04 v.g.sub, num 0x05 v.g.core,
              num 0x06 (v.g.core / 16), num 0x07 m.part, num 0x08 m.x, num 0x09 m.y, num 0x0A m.z, num 0x0B (m.desc.gridX * m.desc.gridY * m.desc.gridZ),
              num 0x0C m.clrank, num 0x0D ((m.cluster.map (·.2)).getD 1), num 0x0E m.rank, num 0x0F m.nranks, (0x10, fun _ => v.fib.exm),
              (0x11, fun _ => v.fib.gst), num 0x12 (if m.preq then 1 else 0), num 0x14 m.desc.world, (0x15, fun l => lane v.fib.srseed l)],
        f.sub.toNat = c.1 →
          exec (.rdsr f) s = .next (s.commitFixed v (.rdsr f) f.signal 4 ⟨[(f.d, act, ⟨tagN32, lanesOf c.2⟩)], 0#32⟩))
      ∧ (f.sub = 0x13#8 →
          let c := (s.slice (v.g.core / 16)).cyc
          exec (.rdsr f) s = .next (s.commitFixed v (.rdsr f) f.signal 4
            ⟨[(f.d, act, ⟨tagI64L, lanesAll (c.extractLsb' 0 32)⟩), (operandAdd f.d 1, act, ⟨tagI64H, lanesAll (c.extractLsb' 32 32)⟩)], 0#32⟩)))
    ∧ (Reads s v (.wrsr f) f wSrcs ls fl →
      let writes (g : Word) (seed : Lanes) (q : Option Bool) := ∃ t b, exec (.wrsr f) s = .next t ∧ t.fibre? v.g = some b ∧ b.gst = g ||| fl ∧ b.srseed = seed
        ∧ b.off = v.fib.off + 1 ∧ b.handle = v.fib.handle ∧ b.exm = v.fib.exm ∧ (t.team? v.g.core v.slot.ctx).bind Team.preqNext = q
        ∧ t.mem = s.mem ∧ (∀ n, ((t.core v.g.core).sub n).bank = ((s.core v.g.core).sub n).bank)
        ∧ (f.signal = none → b.results = v.fib.results ∧ b.outstanding = v.fib.outstanding)
        ∧ ∀ k, f.signal = some k → b.outstanding = v.fib.outstanding ++ [⟨v.fib.nextId, k, false, 0#32⟩]
            ∧ ∃ p, b.results = v.fib.results ++ [p] ∧ p.writes = [] ∧ p.ys = [] ∧ p.signal = some v.fib.nextId
      let x := src ls 0
      let gm : Word := if v.fib.sup then 0x833F#32 else 0x33F#32
      (act = 0#32 → (f.sub = 0x12#8 → v.fib.sup = true) → writes v.fib.gst v.fib.srseed v.team.preqNext)
      ∧ (act ≠ 0#32 → f.sub = 0x11#8 → writes ((v.fib.gst &&& ~~~gm) ||| (x v.leader &&& gm)) v.fib.srseed v.team.preqNext)
      ∧ (act ≠ 0#32 → f.sub = 0x12#8 → v.fib.sup = true → writes v.fib.gst v.fib.srseed (some ((x v.leader).getLsbD 0)))
      ∧ (act ≠ 0#32 → f.sub = 0x15#8 → writes v.fib.gst
          (lanesOf fun l => if act.getLsbD l = true then (if x l = 0#32 then 1#32 else x l) else lane v.fib.srseed l) v.team.preqNext))
    ∧ (∀ c ∈ ([(.intr, 0xC6#8), (.ctxsave, 0xC8#8), (.ctxload, 0xC9#8), (.tlbinv, 0xCA#8), (.wrsr, 0xC5#8)] : List ((Fields → Instr) × Byte)),
        s.curView = some v → v.fib.sup = false → (c.2 = 0xC5#8 → f.sub = 0x12#8) →
        exec (c.1 f) s = .next (s.takeFaultS v (v.faultAt 0x01#8 c.2 f.sub v.fib.exm v.leader.val)))
    ∧ ∀ k, f.signal = some k → v.fib.sup = true →
      let base : Fin 32 → DWord := fun l => src64 ls 0 l
      (∀ c ∈ ([(.intr, regSrcs f.a [.tag tagN32] ++ regSrcs f.b [.tag tagN32], ls, none, []),
               (.tlbinv, (if f.sub = 1#8 then pairSrcs f.a else []) ++ regSrcs f.b [.tag tagN32], ls, none, []),
               (.ctxload, pairSrcs f.a, [], some base, [f.d])]
            : List ((Fields → Instr) × List Src × List Lanes × Option (Fin 32 → DWord) × List Operand)), Reads s v (c.1 f) f c.2.1 ls fl →
        (act = 0#32 → ∃ t, exec (c.1 f) s = .next t ∧ Idle s t v k fl)
        ∧ (act ≠ 0#32 → ∃ t o, exec (c.1 f) s = .next t ∧ Started s t v k o ∧ o.instr = c.1 f ∧ o.logSlot = none ∧ o.active = act ∧ o.data = c.2.2.1
            ∧ (∀ a, c.2.2.2.1 = some a → ∀ l, o.addr l = a l) ∧ o.dest = c.2.2.2.2.map v.place ∧ o.flags = fl ∧ o.leader = v.leader.val))
      ∧ (Reads s v (.ctxsave f) f (pairSrcs f.a ++ regSrcs f.b [.tag tagN32]) ls fl →
        let n := (src ls 2 v.leader).toNat % 8
        let goes (p : Op → State → Prop) := ∃ t g o, exec (.ctxsave f) s = .next t ∧ t.fibre? v.g = some g ∧ g.off = v.fib.off + 1
          ∧ g.outstanding = v.fib.outstanding ++ [⟨v.fib.nextId, k, false, 0#32⟩] ∧ g.op? v.fib.nextId = some o ∧ o.instr = .ctxsave f
          ∧ (∀ l, o.addr l = base l) ∧ o.dest = [v.place f.d] ∧ t.mem = s.mem ∧ p o t
        (act = 0#32 → ∃ t, exec (.ctxsave f) s = .next t ∧ Idle s t v k fl)
        ∧ (act ≠ 0#32 → (∀ p ∈ v.fib.ops, p.id < v.fib.nextId) →
          (n = v.slot.ctx → goes fun o _ => o.stage = 2 ∧ o.value = 2)
          ∧ (n ≠ v.slot.ctx → s.team? v.g.core n = none → goes fun o _ => o.stage = 2 ∧ o.value = 1)
          ∧ (∀ m, n ≠ v.slot.ctx → s.team? v.g.core n = some m → m.saving = none → goes fun o t => o.stage = 0
              ∧ ∃ q w, t.team? v.g.core n = some q ∧ q.saving = some w ∧ w.forced = true ∧ w.addr = (base v.leader).toNat
                ∧ w.byGroup = some (v.g, v.fib.nextId)))))
  ∧ (∀ (s : State) (v : View) (o : Op) (f : Fields), InFlight s v o →
    let l := o.leaderLane
    let ends (p : State → Prop) := ∃ t, exec (.systemOpComplete v.g o.id) s = .next t ∧ Completed t v o ∧ p t
    (o.instr = .intr f → v.fib.earlier o.id = true → exec (.systemOpComplete v.g o.id) s = .next s)
    ∧ (o.instr = .intr f → v.fib.earlier o.id = false → s.cacheStuck v.g.core = false → s.cacheTurn v o = true →
      let sel := src o.data 0 l
      let id := src o.data 1 l
      let slice := (sel.extractLsb' 4 4).toNat
      let hart := (sel.extractLsb' 0 2).toNat
      let file := 1 + (sel.extractLsb' 8 5).toNat
      (s.slice slice).part = some v.team.part → sel.extractLsb' 13 19 = 0#19 → sel.extractLsb' 2 2 = 0#2 → (sel.extractLsb' 8 5).toNat ≤ 7 →
      1 ≤ id.toNat → id.toNat ≤ 2047 → ends fun t => ∃ q, (t.hartOf ⟨slice, hart⟩).files.find file = some q ∧ id.toNat ∈ q.pending)
    ∧ (∀ va b, o.instr = .tlbinv f → f.sub.toNat ≤ 2 →
      va = (if f.sub = 1#8 then (src64 o.data 0 l).toNat else 0) → b = src o.data (if f.sub = 1#8 then 2 else 0) l → ends fun t => t.mem = s.mem
        ∧ (∀ c e, (s.slice (c / 16)).part = some v.team.part → (e ∈ (t.core c).tlb ∨ ∃ n, e ∈ ((t.core c).sub n).tlb) →
            (f.sub = 0#8 → e.asid ≠ b.setWidth 12)
            ∧ (f.sub = 1#8 → ¬ (e.asid = b.setWidth 12 ∧ va % 2 ^ 57 / 2 ^ e.size = e.va % 2 ^ 57 / 2 ^ e.size))
            ∧ (f.sub = 2#8 → e.world ≠ b.toNat % 16))
        ∧ (f.sub = 2#8 → ∀ c e, e ∈ (s.core c).tlb → e.world ≠ b.toNat % 16 → e ∈ (t.core c).tlb))
    ∧ (∀ n, o.instr = .ctxsave f → o.dest = [.bank n] →
        (o.stage = 2 → ends fun t => BankGains s t v n o.active ⟨tagN32, lanesAll (BitVec.ofNat 32 o.value)⟩)
        ∧ (o.stage ≠ 2 → exec (.systemOpComplete v.g o.id) s = .next s))
    ∧ (∀ n l, o.instr = .ctxload f → o.dest = [.bank n] → s.checkPieces v o true false (rangePieces (o.addr o.leaderLane).toNat 256) = .ready l →
        (∀ p ∈ l, s.way (sliceOf v.g.core) v.team.part p.1 = .free ∧ ∀ q, (s.line v.team.part q).poison = false) → parseImage (s.readPieces v.team.part l) = none →
        ends fun t => t.mem = s.mem ∧ BankGains s t v n o.active ⟨tagN32, lanesAll 3#32⟩))

/-! ### The generator (R62-R99) -/

/-- Registers, transfers and memory of a context. GALU, GMOVI and GRDSR write their result and go on at the next word a clock later; g0 keeps zero. GBR, GJMP,
GCALL and GRET move to a word index below GEN_WORDS 2 clocks later, GCALL with the next index in its link; another target is the level-G fault 1, with the
context frozen at the transfer and GCALL's link written. GLD, GST and GATOM act on memory at a checked address; a load or store into a full cache replaces
a line, which may write memory, and one of a core whose cache has no way left goes to the home bank. GACQ takes a free cell and GREL gives it back; on a cell
that is held exclusively the context waits. GFENCE of scope .clus or wider empties the cache or leaves it clean, once nothing stands before it. The model's
choices: a level-G fault of a call leaves its link written (assumption 22), accesses act in the issuing step and the context goes on one clock later
(assumptions 23 and 24), and the turn of a whole-cache action (assumption 141) (R62, R68-R75, R95, R239, R245, R246, R248). -/
def Obligations.GeneratorWords : Prop :=
  (∀ (s : State) (c : CtxRef) (t : Team) (cause op sub : Byte) (a : DWord) (n : Nat) (w : Option IWord), s.team? c.core c.ctx = some t →
    let u := s.takeFaultG c cause op sub a n w
    CtxWaits u c t .frozen ∧ ∃ r, (u.slice (sliceOf c.core)).fault.live = (s.slice (sliceOf c.core)).fault.live ++ [r] ∧ r.cause = cause ∧ r.level = true
      ∧ r.agent = .ctx c ∧ r.full.op = op ∧ r.full.sub = sub ∧ r.full.address = a ∧ r.full.count = BitVec.ofNat 32 n ∧ r.full.second = w
      ∧ r.full.prov = BitVec.ofNat 32 t.gen.pc)
  ∧ ∀ (s : State) (c : CtxRef) (t : Team) (f : GenFields), s.Sound → ActsCtx s c t →
    let k := s.core c.core
    let reg (r : BitVec 6) : DWord := t.gen.reg r
    let next (i : Instr) (d : BitVec 6) (w : DWord) (p : State → Prop) := ∃ u, exec i s = .next u ∧ CtxGoes u c t (t.gen.pc + 1) (k.clock + 1) d w ∧ p u
    let alone (u : State) := CtxAlone s u c ∧ SameCode s u c.core
    let a := reg f.a
    (∀ b, (f.ext = .none ∧ b = reg f.b)
        ∨ (∃ x, f.ext = .imm x ∧ b = if [0, 1, 8, 10, 12, 13].contains f.sub.toNat then x.signExtend 64 else x.setWidth 64)
        ∨ (∃ x, f.ext = .shifted x ∧ b = if [0, 1, 8, 10, 12, 13].contains f.sub.toNat then (x ++ 0#12).signExtend 64 else (x ++ 0#12).setWidth 64) →
      ∀ v ∈ ([(0, a + b), (1, a - b), (2, a &&& b), (3, a ||| b), (4, a ^^^ b), (5, a <<< (b.toNat % 64)), (6, a >>> (b.toNat % 64)),
              (7, a.sshiftRight (b.toNat % 64)), (8, a * b), (9, BitVec.ofNat 64 (a.toNat * b.toNat / 2 ^ 64)), (10, if a.toInt < b.toInt then 1#64 else 0#64),
              (11, if a.toNat < b.toNat then 1#64 else 0#64), (12, BitVec.ofInt 64 (min a.toInt b.toInt)), (13, BitVec.ofInt 64 (max a.toInt b.toInt)),
              (14, BitVec.ofNat 64 (min a.toNat b.toNat)), (15, BitVec.ofNat 64 (max a.toNat b.toNat))] : List (Nat × DWord)),
        f.sub.toNat = v.1 → next (.galu f) f.d v.2 alone)
    ∧ (∀ x, f.ext = .imm x → f.sub.toNat ≤ 3 → ∃ w, next (.gmovi f) f.d w alone
        ∧ ∀ i, i < 64 → w.getLsbD i = if 20 * f.sub.toNat ≤ i ∧ i < 20 * f.sub.toNat + 20 then x.getLsbD (i - 20 * f.sub.toNat) else (reg f.d).getLsbD i)
    ∧ (∀ v ∈ ([(0x00, 0), (0x05, c.core), (0x06, c.core / 16), (0x07, t.part), (0x08, t.x), (0x09, t.y), (0x0A, t.z),
              (0x0B, t.desc.gridX * t.desc.gridY * t.desc.gridZ), (0x0C, t.clrank), (0x0D, (t.cluster.map (·.2)).getD 1), (0x0E, t.rank), (0x0F, t.nranks),
              (0x10, 0), (0x11, if t.gen.sup then 0x8000 else 0), (0x12, if t.preq then 1 else 0), (0x14, t.desc.world), (0x15, 0)] : List (Nat × Nat)),
        f.sub.toNat = v.1 → v.2 < 2 ^ 32 → next (.grdsr f) f.d (BitVec.ofNat 64 v.2) alone)
    ∧ (f.sub = 0x13#8 → next (.grdsr f) f.d (s.slice (c.core / 16)).cyc alone)
    ∧ (let words : Int := t.hdr.genWords
       let jumps (i : Instr) (n : Int) (d : BitVec 6) := ∃ u, exec i s = .next u ∧ CtxGoes u c t n.toNat (k.clock + 2) d (BitVec.ofNat 64 (t.gen.pc + 1)) ∧ alone u
       let link := BitVec.ofNat 64 (t.gen.pc + 1)
       let faults (i : Instr) (d : BitVec 6) := ∃ adr,
         exec i s = .next ((s.modTeam c.core c.ctx fun x => x.setGreg d link).takeFaultG c 1#8 (opSub i).1 f.sub adr 0 none)
       (∀ x, f.ext = .rel x →
          let n : Int := t.gen.pc + x.toInt
          let holds := (f.sub = 0#8 ∧ a = reg f.b) ∨ (f.sub = 1#8 ∧ a ≠ reg f.b) ∨ (f.sub = 2#8 ∧ a.toInt < (reg f.b).toInt)
            ∨ (f.sub = 3#8 ∧ (reg f.b).toInt ≤ a.toInt) ∨ (f.sub = 4#8 ∧ a.toNat < (reg f.b).toNat) ∨ (f.sub = 5#8 ∧ (reg f.b).toNat ≤ a.toNat)
          (∀ i ∈ [(Instr.gjmp f, 0#6), (Instr.gcall f, f.d)], (0 ≤ n ∧ n < words → jumps i.1 n i.2) ∧ (n < 0 ∨ words ≤ n → faults i.1 i.2))
          ∧ (f.sub.toNat ≤ 5 → (holds → 0 ≤ n ∧ n < words → jumps (.gbr f) n 0#6) ∧ (holds → (n < 0 ∨ words ≤ n) → faults (.gbr f) 0#6)
              ∧ (¬ holds → next (.gbr f) 0#6 0#64 alone)))
       ∧ ∀ i ∈ [(Instr.gjmpReg f, 0#6), (Instr.gcallReg f, f.d), (Instr.gret f, 0#6)],
          ((a.toNat : Int) < words → jumps i.1 a.toNat i.2) ∧ (words ≤ (a.toNat : Int) → faults i.1 i.2))
    ∧ (let va := a + (match f.ext with
          | .imm x => x.signExtend 64
          | _ => 0#64)
       let calm (pa : Nat) := k.watches = .empty ∧ k.launchView = .empty ∧ (s.line t.part pa).poison = false ∧ t.part = s.partOf c.core
       let adr (pa : Nat) := pa / 128 * 128 + va.toNat % 128
       let size := 2 ^ (f.sub &&& 3#8).toNat
       let room (pa : Nat) := (k.l1.find (pa / 128)).isSome ∨ k.l1.cells.length < s.l1Room c.core
       (∀ i ∈ [(Instr.gld f, size, true, false, false), (Instr.gst f, size, false, true, size == 8), (Instr.gacq f, 64, true, true, false)], t.gen.done = 0 →
          ∀ x u, s.genCheck c t va i.2.1 i.2.2.1 i.2.2.2.1 i.2.2.2.2 = (.bad x, u) → exec i.1 s = .next (u.takeFaultG c x (opSub i.1).1 f.sub va 0 none))
       ∧ (∀ pa u, s.genCheck c t va size true false false = (.ready pa, u) → calm pa → k.l1.find (pa / 128) = none → f.sub.toNat ≤ 7 →
          let n := leNat (s.readMem t.part (adr pa) size)
          next (.gld f) f.d (if f.sub.getLsbD 2 = true ∧ 2 ^ (8 * size - 1) ≤ n then BitVec.ofInt 64 ((n : Int) - 2 ^ (8 * size)) else BitVec.ofNat 64 n)
            fun u => (room pa ∨ s.l1Room c.core = 0 → u.mem = s.mem) ∧ (u.core c.core).blocks = k.blocks ∧ (u.core c.core).scratch = k.scratch)
       ∧ (∀ pa u, s.genCheck c t va size false true (size == 8) = (.ready pa, u) → calm pa → f.sub.toNat ≤ 3 →
          (s.l1Room c.core = 0 → k.l1.find (pa / 128) = none → next (.gst f) 0#6 0#64 fun u =>
            u.readMem t.part (adr pa) size = (List.range size).map (fun i => (reg f.b).extractLsb' (8 * i) 8) ∧ MemoryElsewhere s u t.part (adr pa) size)
          ∧ (0 < s.l1Room c.core → next (.gst f) 0#6 0#64 fun u => (room pa → u.mem = s.mem) ∧ (u.core c.core).blocks = k.blocks ∧ ∃ x, (u.core c.core).l1.find (pa / 128) = some x
            ∧ ∀ i, i < size → x.cells.find (va.toNat % 128 + i) = some ((reg f.b).extractLsb' (8 * i) 8, true)))
       ∧ (∀ pa u, f.sub = 0#8 → s.genCheck c t va 4 true true false = (.ready pa, u) → calm pa → k.l1.find (pa / 128) = none →
          let was : Word := BitVec.ofNat 32 (leNat (s.readMem t.part (adr pa) 4))
          next (.gatom f) f.d (was.setWidth 64) fun u => u.readMem t.part (adr pa) 4 = leBytes 4 (was + (reg f.b).setWidth 32).toNat
            ∧ MemoryElsewhere s u t.part (adr pa) 4)
       ∧ (∀ pa u, (f.sub >>> 5).toNat < 2 → s.genCheck c t va 64 true true false = (.ready pa, u) → calm pa → s.cells.get (memKey t.part pa) [] = [] →
          let w := s.cellState t.part pa
          let excl := f.sub.getLsbD 0
          (t.gen.done = 0 → cellExcl w = false → (if excl then cellShared w = 0 else cellShared w < 0xFFFF_FFFF) →
            next (.gacq f) 0#6 0#64 fun u => u.cellState t.part pa = (if excl then w ||| 0x8000_0000_0000_0000#64 else w + 1#64) ∧ MemoryElsewhere s u t.part pa 8)
          ∧ (t.gen.done = 0 → cellExcl w = true → ∃ u, exec (.gacq f) s = .next u ∧ u.mem = s.mem ∧ u.cells.get (memKey t.part pa) [] = [⟨.ctx c, 0, excl⟩]
              ∧ CtxWaits u c t (.waitCell f.sub []))
          ∧ (cellExcl w = true → next (.grel f) 0#6 0#64 fun u => u.cellState t.part pa = w &&& 0x7FFF_FFFF_FFFF_FFFF#64 ∧ MemoryElsewhere s u t.part pa 8)
          ∧ (cellExcl w = false → 0 < cellShared w → next (.grel f) 0#6 0#64 fun u => u.cellState t.part pa = w - 1#64 ∧ MemoryElsewhere s u t.part pa 8))
       ∧ ((f.sub >>> 5).toNat < 2 → next (.gfence f) 0#6 0#64 alone)
       ∧ (2 ≤ (f.sub >>> 5).toNat → s.genCacheWaits c.core = true → ∃ u, exec (.gfence f) s = .next u ∧ CtxWaits u c t (.ready (k.clock + 1)) ∧ u.mem = s.mem)
       ∧ (2 ≤ (f.sub >>> 5).toNat → s.genCacheWaits c.core = false → next (.gfence f) 0#6 0#64 fun u =>
            (((f.sub >>> 3) &&& 3#8).toNat ≠ 2 → (u.core c.core).l1.cells = [])
            ∧ (((f.sub >>> 3) &&& 3#8).toNat = 2 → ∀ n x, (u.core c.core).l1.find n = some x → x.dirty = [])))

/-- Blocks, emission and starts. GBLKOPEN opens the lowest free number over the lowest free run, or waits; its wait ends with a grant, or after 4,096 clocks with
the null handle. GBLKSEAL completes 2 clocks after the queue is empty: the block registers under its key, or is released when another has it. GBLKFIND gives
the registered handle or null; GBLKFREE releases; an idle released block is reclaimed and its generation rises. GEMIT and GEMITT queue a valid word, which
the drain writes with its provenance once in a clock; GEMITB and GBLKLOAD write their words. GSTART's groups start, and GENTRY's entry changes, 4 clocks after the issue.
That GEMITB and GBLKLOAD write every word in the issuing step, with no wait for the drain, is the model's choice (assumption 23). GWAITB waits for a quiet block, GYIELD for a time, and GEXIT ends the context (R77-R94). -/
def Obligations.GeneratorBlocks : Prop :=
  (∀ (s : State) (c : CtxRef) (t : Team) (f : GenFields), ActsCtx s c t →
    let k := s.core c.core
    let reg (r : BitVec 6) : DWord := t.gen.reg r
    let a := reg f.a
    let pc := t.gen.pc
    let next (i : Instr) (n : Nat) (d : BitVec 6) (w : DWord) (p : State → Prop) := ∃ u, exec i s = .next u ∧ CtxGoes u c t (pc + 1) (k.clock + n) d w
      ∧ CtxAlone s u c ∧ p u
    let waits (i : Instr) (run : GenRun) := ∃ u, exec i s = .next u ∧ CtxWaits u c t run ∧ CtxAlone s u c ∧ SameCode s u c.core
    let faultsAfter (u : State) (i : Instr) (cause : Byte) (adr : DWord) (n : Nat) (w : Option IWord) :=
      exec i s = .next (u.takeFaultG c cause (opSub i).1 (opSub i).2 adr n w)
    let faults (i : Instr) := faultsAfter s i
    let handle (n : Nat) : DWord := (k.gen n ++ BitVec.ofNat 8 n).setWidth 64
    (∀ cap n base, ((∃ x, f.ext = .imm x ∧ cap = x.toNat) ∨ (f.ext = .none ∧ cap = a.toNat)) → t.gen.opened = none → 1 ≤ cap → cap ≤ 4096 →
      k.freeBlock = n → k.freeRun ((cap + 63) / 64) = base →
      (∀ b r, n = some b → base = some r → next (.gblkopen f) 2 f.d (handle b) fun u =>
          (u.core c.core).blocks.find b = some ⟨.opened, r, (cap + 63) / 64, 0, 64 * ((cap + 63) / 64), ⟨t.desc.image, t.asid, t.desc.world⟩, t.gen.sup, 0#64, 0, c.ctx⟩
          ∧ (∀ j, j ≠ b → (u.core c.core).blocks.find j = k.blocks.find j) ∧ (u.team? c.core c.ctx).bind (fun m => m.gen.opened) = some b)
      ∧ ((n = none ∨ base = none) → waits (.gblkopen f) (.waitOpen k.clock cap f.d)))
    ∧ (∀ n, t.gen.opened = some n → faults (.gblkopen f) 5#8 (handle n) 0 none)
    ∧ (∀ n, t.gen.opened = some n → waits (.gblkseal f) (if t.gen.queue.isEmpty then .sealing (k.clock + 2) f.d a else .waitSeal f.d a))
    ∧ (let found (n : Nat) := ∃ b, (n, b) ∈ k.blocks.cells ∧ b.st = .sealed ∧ a ≠ 0#64 ∧ b.key = a ∧ b.owner = t.owner ∧ b.sup = t.gen.sup ∧ b.regAt < k.clock
       (∀ n, found n → (∀ m, found m → m = n) → next (.gblkfind f) 3 f.d (handle n) fun u => SameCode s u c.core)
       ∧ ((∀ n, ¬ found n) → next (.gblkfind f) 3 f.d 0xFFFF_FFFF_FFFF_FFFF#64 fun u => SameCode s u c.core))
    ∧ (∀ b, a.extractLsb' 12 52 = 0#52 → k.current (a.extractLsb' 0 12) = some b → b.st = .sealed → b.owner = t.owner → b.sup = t.gen.sup →
        next (.gblkfree f) 2 0#6 0#64 fun u => (u.core c.core).blocks.find (handleBlock (a.extractLsb' 0 12)) = some { b with st := .released, key := 0#64 })
    ∧ (a.extractLsb' 12 52 = 0#52 → k.current (a.extractLsb' 0 12) = none → faults (.gblkfree f) 5#8 a 0 none)
    ∧ (let word := (reg (f.b + 1#6)).extractLsb' 0 32 ++ reg f.b
       let prov := BitVec.ofNat 32 (c.ctx * 2 ^ 29 + pc % 2 ^ 29)
       ∀ n b, t.gen.opened = some n → k.blocks.find n = some b →
        let emits (v : State) (i : Instr) (w : IWord) (d : Nat) :=
          (emitValid b w = true → b.len < b.capacity → t.gen.queue.length < 32 → next i d 0#6 0#64 fun u =>
            (u.team? c.core c.ctx).map (fun m => m.gen.queue) = some (t.gen.queue ++ [⟨w, prov⟩]) ∧ (u.core c.core).blocks.find n = some { b with len := b.len + 1 }
            ∧ (u.core c.core).store = k.store)
          ∧ (emitValid b w = true → b.len < b.capacity → 32 ≤ t.gen.queue.length → waits i (.ready (k.clock + 1)))
          ∧ (emitValid b w = false → faultsAfter v i 3#8 (BitVec.ofNat 64 pc) 0 (some w))
          ∧ (emitValid b w = true → b.capacity ≤ b.len → faultsAfter v i 4#8 (BitVec.ofNat 64 pc) 0 none)
        let off := a + (match f.ext with
          | .imm x => x.signExtend 64
          | _ => 0#64)
        emits s (.gemit f) word 1
        ∧ (∀ w v, s.template c t off = (.word w, v) → emits v (.gemitt f) ((w &&& ~~~patchBits f.sub) ||| (word &&& patchBits f.sub)) 3)
        ∧ (∀ e v, s.template c t off = (.bad e, v) → faultsAfter v (.gemitt f) 1#8 e 0 none)
        ∧ (∀ (ws : Nat → IWord) (m : Nat), (reg f.b).toNat = m → t.gen.done = 0 → t.gen.queue = [] → b.len + m ≤ b.capacity → b.capacity ≤ 4096 →
            (∀ j, j < m → emitValid b (ws j) = true) →
            (∀ vs : Nat → State, vs 0 = s → (∀ j, j < m → ∃ v, (vs j).template c t (off + BitVec.ofNat 64 (12 * j)) = (.word (ws j), v)
                ∧ vs (j + 1) = v.modCore c.core fun k => k.putWord n { b with len := b.len + j } ⟨ws j, prov⟩) → next (.gemitb f) (1 + (m + 1) / 2) 0#6 0#64 fun u =>
                (u.core c.core).blocks.find n = some { b with len := b.len + m } ∧ ∀ j, j < m → (u.core c.core).store.find (b.base * 64 + b.len + j) = some ⟨ws j, prov⟩)
            ∧ (m = 1 → ∀ v, s.genWords c t off 3 = (.word (ws 0), v) → SameOutsideCore s v c.core → next (.gblkload f) 2 0#6 0#64 fun u =>
                (u.core c.core).blocks.find n = some { b with len := b.len + 1 } ∧ (u.core c.core).store.find (b.base * 64 + b.len) = some ⟨ws 0, prov⟩)
            ∧ (m = 0 → next (.gblkload f) 1 0#6 0#64 fun u => (u.core c.core).store = k.store)))
    ∧ (∀ b, a.extractLsb' 12 52 = 0#52 → k.current (a.extractLsb' 0 12) = some b → b.st = .sealed → b.owner = t.owner → b.sup = t.gen.sup → ∀ x, f.ext = .imm x →
        (∀ e v, s.descriptor c t x.toNat true (a.extractLsb' 0 12) b = (.ok e, v) → waits (.gstart f) (.starting (k.clock + 4) f.d e (reg f.b)))
        ∧ (∀ e v, (reg f.b).toNat < 16 → s.descriptor c t x.toNat false (a.extractLsb' 0 12) b = (.ok e, v) → next (.gentry f) 4 0#6 0#64 fun u =>
            (u.team? c.core c.ctx).map (fun m => m.entryNext) = some (t.entryNext ++ [(k.clock + 4, (reg f.b).toNat, some e)]))
        ∧ (∀ v, s.descriptor c t x.toNat true (a.extractLsb' 0 12) b = (.bad, v) → faultsAfter v (.gstart f) 5#8 (x.setWidth 64) 0 none))
    ∧ ((reg f.b).toNat < 16 → a = 0xFFFF_FFFF_FFFF_FFFF#64 → next (.gentry f) 4 0#6 0#64 fun u =>
        (u.team? c.core c.ctx).map (fun m => m.entryNext) = some (t.entryNext ++ [(k.clock + 4, (reg f.b).toNat, none)]))
    ∧ (∀ x, f.ext = .imm x →
        (k.blockQuiet c.core a = true → next (.gwaitb f) 1 f.d 0#64 fun u => SameCode s u c.core)
        ∧ (k.blockQuiet c.core a = false → waits (.gwaitb f) (.waitIdle k.clock (16 * x.toNat) f.d a))
        ∧ ∃ u m, exec (.gyield f) s = .next u ∧ u.team? c.core c.ctx = some m ∧ m.gen.pc = pc + 1 ∧ m.gen.g = t.gen.g
            ∧ m.gen.run = (if x = 0#20 then .skipTurn else .yielding (k.clock + x.toNat)))
    ∧ ∃ u, exec (.gexit f) s = .next u ∧ u.mem = s.mem ∧ ∀ m, u.team? c.core c.ctx = some m → m.gen.run = .exited ∧ m.gen.opened = none)
  ∧ (∀ (s : State) (c : CtxRef) (t : Team), s.team? c.core c.ctx = some t →
    let k := s.core c.core
    let goes (i : Instr) (d : BitVec 6) (w : DWord) := ∃ u, exec i s = .next u ∧ CtxGoes u c t (t.gen.pc + 1) (k.clock + 1) d w ∧ CtxAlone s u c
    (∀ since cap d, t.gen.run = .waitOpen since cap d →
      (∀ b r, k.freeBlock = some b → k.freeRun ((cap + 63) / 64) = some r → goes (.blockOpenGrant c) d ((k.gen b ++ BitVec.ofNat 8 b).setWidth 64))
      ∧ ((k.freeBlock = none ∨ k.freeRun ((cap + 63) / 64) = none) → exec (.blockOpenGrant c) s = .next s)
      ∧ (since + 4096 ≤ k.clock → goes (.blockOpenTimeout c) d 0xFFFF_FFFF_FFFF_FFFF#64)
      ∧ (k.clock < since + 4096 → exec (.blockOpenTimeout c) s = .next s))
    ∧ (∀ since bound d h, t.gen.run = .waitIdle since bound d h →
      (k.blockQuiet c.core h = true → goes (.gwaitbWake c) d 0#64) ∧ (k.blockQuiet c.core h = false → exec (.gwaitbWake c) s = .next s)
      ∧ (bound ≠ 0 → since + bound ≤ k.clock → k.blockQuiet c.core h = false → goes (.gwaitbTimeout c) d 1#64)
      ∧ ((bound = 0 ∨ k.clock < since + bound) → exec (.gwaitbTimeout c) s = .next s))
    ∧ (∀ n, t.gen.run = .yielding n → (n ≤ k.clock → ∃ u, exec (.gyieldEnd c) s = .next u ∧ CtxWaits u c t (.ready k.clock) ∧ CtxAlone s u c)
        ∧ (k.clock < n → exec (.gyieldEnd c) s = .next s))
    ∧ (k.drained = true → exec (.emitDrain c.core) s = .next s)
    ∧ (∀ w n b, k.drained = false → k.drainCtx = some c.ctx → t.gen.queue = [w] → t.gen.opened = some n → k.blocks.find n = some b →
        (∀ x m, x ≠ c.ctx → k.teams.find x = some m → m.gen.queue = []) → ∃ u, exec (.emitDrain c.core) s = .next u
          ∧ (u.core c.core).store = k.store.set (b.base * 64 + (b.len - 1)) w ∧ (u.core c.core).blocks = k.blocks
          ∧ ∃ m, u.team? c.core c.ctx = some m ∧ m.gen.queue = [] ∧ m.gen.pc = t.gen.pc
            ∧ ∀ d key, t.gen.run = .waitSeal d key → m.gen.run = .sealing (k.clock + 2) d key)
    ∧ (∀ at_ d key n b, t.gen.run = .sealing at_ d key → at_ ≤ k.clock → t.gen.opened = some n → k.blocks.find n = some b →
        let u := s.completeGen c
        let other := (k.blocks.cells.find? fun p => p.2.st == .sealed && p.2.key == key && p.2.owner == t.owner && p.2.sup == t.gen.sup).map (·.1)
        let h (n : Nat) : DWord := (k.gen n ++ BitVec.ofNat 8 n).setWidth 64
        let done := { b with st := .sealed, granules := (b.len + 63) / 64, sealer := c.ctx }
        ((key = 0#64 ∨ other = none) → CtxGoes u c t (t.gen.pc + 1) k.clock d (h n) ∧ (u.core c.core).blocks.find n = some { done with key := key, regAt := k.clock })
        ∧ (∀ m, key ≠ 0#64 → other = some m → CtxGoes u c t (t.gen.pc + 1) k.clock d (h m)
            ∧ (u.core c.core).blocks.find n = some { done with st := .released, key := 0#64 }))
    ∧ (∀ at_ d e arg, t.gen.run = .starting at_ d e arg → at_ ≤ k.clock →
        let r := s.startGroups c.core c.ctx e e.ngrp (fun _ => startFile (arg.extractLsb' 0 32) (arg.extractLsb' 32 32)) (k.clock + 1)
        CtxGoes (s.completeGen c) c t (t.gen.pc + 1) k.clock d (BitVec.ofNat 64 r.2) ∧ ∀ g, (s.completeGen c).fibre? g = r.1.fibre? g))
  ∧ ∀ (s : State) (core n : Nat) (b : Block), (s.core core).blocks.find n = some b → b.st = .released →
      ((s.core core).blockIdle core n = true → ∃ u, exec (.blockReclaim core n) s = .next u ∧ (u.core core).blocks.find n = none
        ∧ (u.core core).gen n = (s.core core).gen n + 1#4 ∧ (u.core core).teams = (s.core core).teams ∧ u.mem = s.mem)
      ∧ ((s.core core).blockIdle core n = false → exec (.blockReclaim core n) s = .next s)

/-! ### Harts (R5, R235, R255-R258, R393-R397) -/

/-- The three rendezvous words of a hart. Each is a virtual instruction exception (22) with V = 1, then a misaligned load (4), then what its translation gives.
dw.await of a differing word gives 1 and with a full table 2; with an equal word the hart sleeps at its key, its pc on the next instruction. dw.awake wakes
the oldest waiter of its key and dw.awake.all every one, with 0, and gives their number. An interrupt that would be taken wakes a sleeping hart with 3.
HSTART starts a held hart in M-mode with a0 and mhartid its number; mtime raises and clears MTIP, and the time CSR reads it. The trap's own registers and the
other words of the base (csrr of time, addi, add, mul, ecall, wfi) are the RISC-V architecture's (assumptions 68 and 69) (R255-R258, R393-R397). -/
def Obligations.HartWords : Prop :=
  (∀ (s : State) (r : HartRef) (rd rs1 rs2 : BitVec 5), s.cur = .hart r →
    let h := s.hartOf r
    let va := h.reg rs1
    let goes (i : Instr) (w : Nat) (p : State → Prop) := ∃ t, exec i s = .next t ∧ (t.hartOf r).pc = h.pc + 4#64 ∧ (t.hartOf r).run = h.run
      ∧ (t.hartOf r).csr = h.csr ∧ (t.hartOf r).priv = h.priv ∧ (t.hartOf r).f = h.f ∧ (t.hartOf r).v = h.v ∧ (∀ q, (t.hartOf r).reg q = if q = rd ∧ q ≠ 0#5 then BitVec.ofNat 64 w else h.reg q)
      ∧ t.mem = s.mem ∧ t.cores = s.cores ∧ p t
    (∀ i ∈ [Instr.dwAwait rd rs1 rs2, .dwAwake rd rs1, .dwAwakeAll rd rs1],
      (∀ w, h.virt = true → encodeHartWord i = some w → exec i s = .next (s.hartTrap r 22 (w.setWidth 64)))
      ∧ (h.virt = false → va.toNat % 4 ≠ 0 → exec i s = .next (s.hartFault r .load 4 va))
      ∧ ∀ p c, h.virt = false → va.toNat % 4 = 0 → (s.slice r.slice).part = some p → s.hartTranslate p r .load va = .error c →
          exec i s = .next (s.hartErr r p .load c va))
    ∧ ∀ p pa e home, h.virt = false → va.toNat % 4 = 0 → (s.slice r.slice).part = some p → s.hartTranslate p r .load va = .ok (pa, e) →
      s.tableSlice p pa = some home → (∀ q ∈ h.stores, q.meets p [(pa, 4)] = false) →
      let word := leNat (s.readMem p pa 4)
      let want := (h.reg rs2).toNat % 2 ^ 32
      let key := h.waitKey va pa
      let table := (s.slice home).rendezvous
      let mine := table.filter fun w => w.va == key.1 && w.asid == key.2
      (s.hartCheck r p .load e pa 4 .fetch = .ok →
        (word ≠ want → goes (.dwAwait rd rs1 rs2) 1 fun t => (t.slice home).rendezvous = table)
        ∧ (word = want → 1024 ≤ table.length → goes (.dwAwait rd rs1 rs2) 2 fun t => (t.slice home).rendezvous = table)
        ∧ (word = want → table.length < 1024 → ∃ t, exec (.dwAwait rd rs1 rs2) s = .next t ∧ t.hartOf r = { h.retire 4 with run := .sleeping rd }
            ∧ (t.slice home).rendezvous = table ++ [⟨key.1, key.2, pa, .hart r, 0⟩] ∧ t.mem = s.mem))
      ∧ (s.hartCheck r p .load e pa 4 .nothing = .ok →
        (mine = [] → ∀ i ∈ [Instr.dwAwake rd rs1, .dwAwakeAll rd rs1], goes i 0 fun t => (t.slice home).rendezvous = table)
        ∧ (∀ w rest a q, mine = w :: rest → w.agent = .hart a → a ≠ r → (s.hartOf a).run = .sleeping q → goes (.dwAwake rd rs1) 1 fun t =>
            (t.slice home).rendezvous = table.erase w ∧ (t.hartOf a).run = .running ∧ (t.hartOf a).pc = (s.hartOf a).pc
            ∧ ∀ x, (t.hartOf a).reg x = if x = q then 0#64 else (s.hartOf a).reg x)
        ∧ ((∀ w ∈ mine, ∃ a, w.agent = .hart a ∧ a ≠ r) → goes (.dwAwakeAll rd rs1) mine.length fun t =>
            (t.slice home).rendezvous = (table.filter fun w => !(w.va == key.1 && w.asid == key.2))
            ∧ ∀ w a q, w ∈ mine → w.agent = .hart a → (s.hartOf a).run = .sleeping q → (t.hartOf a).run = .running)))
  ∧ (∀ (s : State) (r : HartRef) (cause : Nat) (tval : DWord),
    let h := s.hartOf r
    let t := (s.hartTrap r cause tval).hartOf r
    let old := h.csrOf 0x300
    h.priv = 3 ∨ (h.csrOf 0x302).getLsbD cause = false →
      t.priv = 3 ∧ t.virt = false ∧ t.pc = h.csrOf 0x305 &&& ~~~3#64 ∧ t.csrOf 0x341 = h.pc ∧ t.csrOf 0x342 = BitVec.ofNat 64 cause ∧ t.csrOf 0x343 = tval
      ∧ (t.csrOf 0x300).getLsbD 3 = false ∧ (t.csrOf 0x300).getLsbD 7 = old.getLsbD 3 ∧ fieldOf (t.csrOf 0x300) 11 2 = h.priv % 4
      ∧ t.csrOf 0x34B = 0#64 ∧ t.csrOf 0x34A = 0#64 ∧ t.x = h.x ∧ t.f = h.f ∧ t.v = h.v)
  ∧ (∀ (s : State) (r : HartRef) (value : DWord), (s.slice r.slice).part ≠ none → r.hart < 4 →
    let h := s.hartOf r
    ∃ t, exec (.hartStart r value) s = .next t ∧ t.mem = s.mem ∧ t.cores = s.cores
      ∧ (h.run ≠ .held → t.hartOf r = h)
      ∧ (h.run = .held → value.getLsbD 0 = false → t.hartOf r = { h with start := value &&& ~~~2#64 })
      ∧ (h.run = .held → value.getLsbD 0 = true → (t.hartOf r).run = .running ∧ (t.hartOf r).priv = 3 ∧ (t.hartOf r).pc = value &&& ~~~3#64
          ∧ (t.hartOf r).reg 10#5 = BitVec.ofNat 64 (4 * r.slice + r.hart) ∧ (t.hartOf r).csrOf 0xF14 = BitVec.ofNat 64 (4 * r.slice + r.hart)))
  ∧ (∀ (s : State) (r : HartRef),
    let h := s.hartOf r
    let now := (s.slice r.slice).cyc.toNat / 10
    (h.run ≠ .held → ∃ t, exec (.timerCompare r) s = .next t ∧ t.mem = s.mem ∧ (t.hartOf r).pc = h.pc ∧ (t.hartOf r).x = h.x
      ∧ ((t.hartOf r).csrOf 0x344).getLsbD 7 = decide (h.mtimecmp.toNat ≤ now)
      ∧ ((h.csrOf 0x30A).getLsbD 63 = true → ((t.hartOf r).csrOf 0x344).getLsbD 5 = decide ((h.csrOf 0x14D).toNat ≤ now))
      ∧ ((h.csrOf 0x30A).getLsbD 63 = false → ((t.hartOf r).csrOf 0x344).getLsbD 6 = false)
      ∧ ∀ n, n ≠ 0x344 → (t.hartOf r).csrOf n = h.csrOf n)
    ∧ (∀ rd i, h.run = .sleeping rd → h.interrupt = some i → ∃ t, exec (.hartAwaitInterruptWake r) s = .next t ∧ t.mem = s.mem
        ∧ t.hartOf r = { h.setReg rd 3#64 with run := .running } ∧ ∀ n, ∀ w ∈ (t.slice n).rendezvous, w.agent ≠ .hart r)
    ∧ ((h.interrupt = none ∨ ∀ rd, h.run ≠ .sleeping rd) → exec (.hartAwaitInterruptWake r) s = .next s))
  ∧ ∀ (s : State) (r : HartRef) (rd rs1 rs2 : BitVec 5) (x : BitVec 12), (s.slice r.slice).part ≠ none →
    let h := s.hartOf r
    let gives (w : Word) (v : DWord) := ∃ t, s.runBase r w = t ∧ t.hartOf r = (h.setReg rd v).retire 4 ∧ t.mem = s.mem ∧ t.cores = s.cores
    (h.priv = 3 → h.virt = false → gives (0xC01#12 ++ 0#5 ++ 2#3 ++ rd ++ 0x73#7) (BitVec.ofNat 64 ((s.slice r.slice).cyc.toNat / 10)))
    ∧ gives (x ++ rs1 ++ 0#3 ++ rd ++ 0x13#7) (h.reg rs1 + x.signExtend 64) ∧ gives (0#7 ++ rs2 ++ rs1 ++ 0#3 ++ rd ++ 0x33#7) (h.reg rs1 + h.reg rs2)
    ∧ gives (1#7 ++ rs2 ++ rs1 ++ 0#3 ++ rd ++ 0x33#7) (h.reg rs1 * h.reg rs2)
    ∧ s.runBase r 0x73#32 = s.hartTrap r (if h.priv = 3 then 11 else if h.priv = 0 then 8 else if h.virt then 10 else 9) 0#64
    ∧ (h.priv = 3 → s.runBase r 0x10500073#32 = s.modHart r fun h => { h.retire 4 with run := .wfi })

/-- A hart's other accesses at an address that passes its checks. A load takes its bytes, extended from their size; a store of n bytes leaves them in memory
and nothing else, or in a turn that has it perform later stands among the hart's stores until then (R262); an AMO leaves its result and returns the old value; LR reserves, and SC stores with 0 under the reservation and else gives 1; cbo.zero clears
its 128 bytes. A write of a register of the hart's own partition reaches it (a SYSVEC, a watch), and one of another partition is a violation and a store access
fault. The model's choices: this event leaves the pc to the instruction that makes the access (assumption 77), a plain misaligned access is carried
out (assumption 69), and what ends a reservation (assumption 78) (R5, R235, R318, R363, R393; assumption 68). -/
def Obligations.HartAccesses : Prop :=
  (∀ (s : State) (r : HartRef) (part : Nat) (va : DWord) (pa n : Nat) (value : DWord) (rd : BitVec 5), s.Sound → (s.slice r.slice).part = some part →
    let h := s.hartOf r
    let at_ (k : HartKind) := s.hartPlaces r part k .fetch none (hartPieces va n) [] = .memory [(pa, n)]
    let plain := s.hartLaunches part [(pa, n)] = [] ∧ s.cells.get (memKey part (pa / 64 * 64)) [] = [] ∧ pa / 128 = (pa + n - 1) / 128 ∧ (n = 4 ∨ n = 8)
    let ends (acc : HartAcc) (p : State → Prop) := ∃ t, exec (.hartAccess r acc) s = .next t ∧ (t.hartOf r).pc = h.pc ∧ (t.hartOf r).csr = h.csr
      ∧ t.cores = s.cores ∧ p t
    let gets (t : State) (w : DWord) := ∀ q, (t.hartOf r).reg q = if q = rd ∧ q ≠ 0#5 then w else h.reg q
    let holds (t : State) (w : DWord) := t.readMem part pa n = leBytes n w.toNat ∧ MemoryElsewhere s t part pa n
    let old := leNat (s.readMem part pa n)
    let ext : DWord := if n = 4 then (BitVec.ofNat 32 old).signExtend 64 else BitVec.ofNat 64 old
    h.run = .running → h.stores = [] → n = 4 ∨ n = 8 →
      (at_ .load → ends (.load rd va n true) (fun t => gets t ext ∧ t.mem = s.mem) ∧ ends (.load rd va n false) fun t => gets t (BitVec.ofNat 64 old) ∧ t.mem = s.mem)
      ∧ (at_ .load → va.toNat % n = 0 → ends (.loadReserved rd va n) fun t => gets t ext ∧ t.mem = s.mem ∧ (t.hartOf r).resv = some (lineKey part pa, pa))
      ∧ (at_ .store → plain →
        (h.later = false → ends (.store va n value) fun t => holds t value ∧ (t.hartOf r).x = h.x)
        ∧ (h.later = true → ends (.store va n value) fun t => t.mem = s.mem ∧ ∃ owner, (t.hartOf r).stores = [⟨part, owner, [(pa, n)], leBytes n value.toNat⟩]
          ∧ (t.hartPerform r 0).readMem part pa n = leBytes n value.toNat)
        ∧ (va.toNat % n = 0 →
          ends (.amo rd 0 va n value) (fun t => gets t ext ∧ holds t (BitVec.ofNat 64 old + value))
          ∧ ends (.amo rd 1 va n value) (fun t => gets t ext ∧ holds t value)
          ∧ (∀ expected, (old = expected.toNat % 2 ^ (8 * n) → ends (.amocas rd va n expected value) fun t => gets t ext ∧ holds t value)
              ∧ (old ≠ expected.toNat % 2 ^ (8 * n) → ends (.amocas rd va n expected value) fun t => gets t ext ∧ t.mem = s.mem))
          ∧ (h.resv = some (lineKey part pa, pa) → ends (.storeConditional rd va n value) fun t => gets t 0#64 ∧ holds t value ∧ (t.hartOf r).resv = none)
          ∧ (h.resv ≠ some (lineKey part pa, pa) → ends (.storeConditional rd va n value) fun t => gets t 1#64 ∧ t.mem = s.mem ∧ (t.hartOf r).resv = none))))
  ∧ (∀ (s : State) (r : HartRef) (part : Nat) (va : DWord) (pa : Nat), s.Sound → (s.slice r.slice).part = some part → (s.hartOf r).run = .running → (s.hartOf r).stores = [] →
    s.hartPlaces r part .store .line (some va) (hartPieces (va &&& ~~~127#64) 128) [] = .memory [(pa, 128)] → pa % 128 = 0 →
    s.hartLaunches part [(pa, 128)] = [] → s.cells.get (memKey part pa) [] = [] →
    ∃ t, exec (.hartAccess r (.cboZero va)) s = .next t ∧ t.readMem part pa 128 = List.replicate 128 0#8 ∧ MemoryElsewhere s t part pa 128
      ∧ (t.line part pa).poison = false)
  ∧ ∀ (s : State) (r : HartRef) (part n i : Nat) (value : DWord), (s.slice r.slice).part = some part → n < 16 → i < 16 →
    let base := 0x00FF_0000_0000_0000 + 0x0100_0000 * n + 0x10_0000 + 0x1_0000 * i
    let core := 16 * n + i
    ((s.slice n).part = some part →
      (∀ j, j < 256 → ∃ t, exec (.registerWrite r (base + 4 * j) 4 value) s = .next t ∧ t.mem = s.mem
        ∧ (t.core core).sysvec.get j ⟨false, 0#24⟩ = ⟨value.getLsbD 31, value.extractLsb' 0 24⟩
        ∧ ∀ q, q < 256 → q ≠ j → (t.core core).sysvec.get q ⟨false, 0#24⟩ = (s.core core).sysvec.get q ⟨false, 0#24⟩)
      ∧ ∀ j, j < 4 → ∃ t w, exec (.registerWrite r (base + 0x500 + 16 * j) 8 value) s = .next t ∧ t.mem = s.mem ∧ (t.core core).watches.find j = some w
          ∧ w.base = value)
    ∧ ((s.slice n).part ≠ some part → ∀ j, j < 256 → ∃ u : State, exec (.registerWrite r (base + 4 * j) 4 value) s = .next (u.hartTrap r 7 (BitVec.ofNat 64 (base + 4 * j)))
        ∧ u.cores = s.cores ∧ (u.slice r.slice).fwHead = (s.slice r.slice).fwHead + 1#32)

/-! ### Pre-emption, images and answers (R326-R338, R403) -/

/-- Pre-emption of a team outside a cluster. A request sets %preq and starts the deadline counter; its cancel clears both and lets parked groups go on. FORCE, and
a passed deadline while a group is not parked, begin a save with the registers of every group; when every live group is parked a request becomes a save of what
they park. A forced save
captures when nothing that it lets complete is in flight, and the end of a save writes the image at the save area, frees the context and posts the notice.
An answer that quotes no unanswered record is counted. RESUME takes the record away, issues the entry's held lanes again, and lets the fibre run when no record is left and no such lane is
pending; at level G the instruction is executed again. ABORT-GROUP ends the group or context and KILL-TEAM the team. QBASE with a size starts the flow of records,
and records and answers cross to peers. That a save waits for a place for its notice is the model's (assumption 51) (R93, R96, R326-R338, R403). -/
def Obligations.SavesAndAnswers : Prop :=
  (∀ (s : State) (c : CtxRef) (t : Team), s.Sound → s.team? c.core c.ctx = some t → t.cluster = none →
    let x := s.slice (sliceOf c.core)
    let k := s.core c.core
    let mine (r : LiveRec) : Bool := s.ofTeam c.core c.ctx r.agent || r.agent == .ctx c
    let begun (i : Instr) (forced : Bool) (p : State → Prop) := ∃ u m v, exec i s = .next u ∧ p u ∧ u.mem = s.mem ∧ u.team? c.core c.ctx = some m ∧ m.saving = some v
      ∧ v.forced = forced ∧ v.captured = !forced ∧ v.byGroup = none ∧ v.addr = ((k.preempt.get c.ctx .reset).save.toNat / 4096) * 4096
      ∧ (u.slice (sliceOf c.core)).fault.live = x.fault.live.filter (fun r => !mine r)
      ∧ ∀ j, ∀ o ∈ ((u.core c.core).sub j).matrix, o.ctx = c.ctx → o.started ≠ none
    (t.preq = false → t.saving = none → ∃ u m, exec (.preemptRequest c) s = .next u ∧ u.mem = s.mem ∧ u.team? c.core c.ctx = some m ∧ m.preq = true
      ∧ m.deadline = some (x.cyc.toNat + x.fault.deadline.toNat) ∧ m.saving = none
      ∧ ∀ n, ∀ w ∈ (u.slice n).rendezvous, s.ofTeam c.core c.ctx w.agent = false)
    ∧ (t.saving = none → ∃ u m, exec (.preemptCancel c) s = .next u ∧ u.mem = s.mem ∧ u.team? c.core c.ctx = some m ∧ m.preq = false ∧ m.deadline = none
      ∧ ∀ g z f, u.slot? g = some z → z.ctx = c.ctx → g.core = c.core → u.fibre? g = some f → f.parked = none)
    ∧ (t.saving = none → begun (.force c) true fun u => ((u.core c.core).preempt.get c.ctx .reset).force = true)
    ∧ (∀ d, t.saving = none → t.deadline = some d → (d ≤ x.cyc.toNat → begun (.deadlineExpiry c) (!k.allParked c.core c.ctx) fun u => (u.core c.core).preempt = k.preempt)
        ∧ (x.cyc.toNat < d → exec (.deadlineExpiry c) s = .next s))
    ∧ (t.preq = true → t.saving = none → (k.allParked c.core c.ctx = true → begun (.parkedSave c) false fun u => (u.core c.core).preempt = k.preempt)
        ∧ (k.allParked c.core c.ctx = false → exec (.parkedSave c) s = .next s))
    ∧ (∀ v, t.saving = some v → v.forced = true → v.captured = false →
        (s.quiesced c.core c.ctx = true → ∃ u m, exec (.forcedSave c) s = .next u ∧ u.mem = s.mem ∧ u.team? c.core c.ctx = some m
          ∧ m.saving = some { v with captured := true })
        ∧ (s.quiesced c.core c.ctx = false → exec (.forcedSave c) s = .next s))
    ∧ (∀ v, t.saving = some v → v.captured = true → v.byGroup = none → s.quiesced c.core c.ctx = true → x.fault.qbase = 0#64 → x.fault.used < 32 →
        x.fault.waiting = [] → (∀ a n, s.partLaunches t.part a n = []) → k.l1 = .empty → (∀ r ∈ x.fault.live, mine r = false) → t.part = s.partOf c.core →
        let img := (s.imageBytes c.core (s.image c.core c.ctx t v)).1
        v.addr + img.length ≤ 2 ^ 57 → (∀ a, v.addr / 128 * 128 ≤ a → a < v.addr + img.length → s.way (sliceOf c.core) t.part a = .free) →
        ∃ u r, exec (.saveComplete c) s = .next u ∧ u.team? c.core c.ctx = none ∧ u.readMem t.part v.addr img.length = img
          ∧ MemoryElsewhere s u t.part v.addr img.length ∧ r ∈ (u.slice (sliceOf c.core)).fault.buffer
          ∧ r.cause = (if v.forced then 0x71#8 else 0x70#8) ∧ r.info = true ∧ r.address = BitVec.ofNat 64 v.addr ∧ r.detail = BitVec.ofNat 64 img.length
          ∧ ∀ j n z, ((u.core c.core).sub j).slots.find n = some z → z.ctx ≠ c.ctx))
  ∧ (∀ (s : State) (slice : Nat) (a : Answer),
    let b := (s.slice slice).fault
    let q (r : LiveRec) := r.ftag = a.ftag ∧ r.place = a.place ∧ r.level = a.level ∧ r.entry = a.entry
    let does (i : Instr) (p : State → Prop) := ∃ u, exec i s = .next u ∧ p u
    let ends (i : Instr) (p : State → Prop) := does i fun u => u.mem = s.mem ∧ p u
    (∀ i ∈ [Instr.resume slice a, .abortGroup slice a, .killTeam slice a], (∀ r ∈ b.live, ¬ q r) →
      ends i fun u => (u.slice slice).fault.stale = b.stale + 1#32 ∧ (u.slice slice).fault.live = b.live ∧ u.cores = s.cores)
    ∧ ∀ r, r ∈ b.live → q r → (∀ p ∈ b.live, q p → p = r) →
      (∀ g v, r.agent = .group g → s.view g = some v → sliceOf g.core = slice →
        (r.entry ≠ 0x0F#8 → ends (.resume slice a) fun u => (u.slice slice).fault.live = b.live.erase r ∧ ∃ f, u.fibre? g = some f ∧ f.off = v.fib.off
          ∧ f.exm = v.fib.exm ∧ f.outstanding = v.fib.outstanding ∧ ((∀ p ∈ b.live.erase r, p.agent ≠ .group g) →
              f.frozen = (v.fib.frozen && (v.fib.aborting || f.redoing || !v.fib.kept.isEmpty)))
          ∧ ((∃ p ∈ b.live.erase r, p.agent = .group g) → f.frozen = v.fib.frozen)
          ∧ (r.cause ≠ 0x60#8 → r.cause ≠ 0x61#8 → r.cause ≠ 0x62#8 → ∀ o, v.fib.op? r.opId = some o →
              ∃ p, f.op? r.opId = some p ∧ p.held = 0#32 ∧ p.pending = o.pending ∧ p.redo = (o.redo ||| o.held)))
        ∧ (v.fib.aborting = false → v.fib.outstanding = [] → v.fib.results = [] → v.fib.ops = [] → v.core.copies = [] →
            does (.abortGroup slice a) fun u => u.fibre? g = none ∧ ∀ p ∈ (u.slice slice).fault.live, p.agent ≠ .group g))
      ∧ (∀ c t, r.agent = .ctx c → s.team? c.core c.ctx = some t → sliceOf c.core = slice →
        (t.gen.run = .frozen → ends (.resume slice a) fun u => (u.slice slice).fault.live = b.live.erase r
            ∧ ∃ m, u.team? c.core c.ctx = some m ∧ m.gen = { t.gen with run := .ready (s.core c.core).clock, waitPage := none, walkFaults := [] })
        ∧ (ends (.abortGroup slice a) fun u => ∀ m, u.team? c.core c.ctx = some m → m.gen.run = .exited))
      ∧ (∀ core ctx t, (∃ g z, r.agent = .group g ∧ g.core = core ∧ s.slot? g = some z ∧ z.ctx = ctx) ∨ r.agent = .ctx ⟨core, ctx⟩ →
          s.team? core ctx = some t → sliceOf core = slice →
          does (.killTeam slice a) fun u => ∀ m, u.team? core ctx = some m → m.gen.run = .exited ∧ m.saving = none
            ∧ ∀ g z f, g.core = core → u.slot? g = some z → z.ctx = ctx → u.fibre? g = some f → f.aborting = true))
  ∧ (∀ (s : State) (slice : Nat) (value : DWord), s.Sound →
    let x := s.slice slice
    let b := x.fault
    (b.buffer = [] → 6 ≤ (value.extractLsb' 0 5).toNat → (value.extractLsb' 0 5).toNat ≤ 16 → ∃ u, exec (.faultQueueConfig slice value) s = .next u
      ∧ (u.slice slice).fault.qbase = value &&& ~~~0xFFF#64 ∧ (u.slice slice).fault.log2n = (value.extractLsb' 0 5).toNat ∧ u.mem = s.mem)
    ∧ ((value.extractLsb' 0 5).toNat < 6 ∨ 16 < (value.extractLsb' 0 5).toNat → exec (.faultQueueConfig slice value) s = .next s)
    ∧ (∀ r rest p, b.buffer = r :: rest → x.part = some p → b.waiting = [] → remotePeer b.msiAddr = none → r.second = none → b.qbase ≠ 0#64 →
        (b.tail - b.head).toNat + 1 ≤ 2 ^ b.log2n → s.ringHeld slice p = false → (s.way slice p (b.qbase.toNat + 64 * (b.tail.toNat % 2 ^ b.log2n))).errs = false → ∃ u, exec (.faultRecordDrain slice) s = .next u
          ∧ u.readMem p (b.qbase.toNat + 64 * (b.tail.toNat % 2 ^ b.log2n)) 64 = r.bytes ∧ (u.slice slice).fault.tail = b.tail + 1#32
          ∧ (u.slice slice).fault.buffer = rest)
    ∧ (∃ u, exec (.remoteAnswer slice value) s = .next u ∧ u.mem = s.mem ∧ u.cores = s.cores
        ∧ (u.slice slice).net.answers = x.net.answers ++ [(x.net.rslice.toNat, x.net.rpeer.toNat, value)])
    ∧ (let cmd := (value.extractLsb' 56 7).toNat
       let a : Answer := ⟨value.getLsbD 63, value.extractLsb' 40 16, value.extractLsb' 32 8, value.extractLsb' 0 32⟩
       (cmd = 1 → exec (.ranswerArrival slice value) s = exec (.resume slice a) s) ∧ (cmd = 2 → exec (.ranswerArrival slice value) s = exec (.abortGroup slice a) s)
       ∧ (cmd = 3 → exec (.ranswerArrival slice value) s = exec (.killTeam slice a) s)
       ∧ (cmd = 0 ∨ 3 < cmd → ∃ u, exec (.ranswerArrival slice value) s = .next u ∧ (u.slice slice).fault.stale = b.stale + 1#32 ∧ u.cores = s.cores))
    ∧ ∀ (sender : BitVec 128) (record : BitVec 512) p i e, x.part = some p → x.net.peerOf sender = some (i, e) →
        let n := 2 ^ (e.ring.extractLsb' 0 5).toNat
        (n ≤ (e.rtail - e.rhead).toNat → exec (.remoteFaultRecordRx slice sender record) s = .next s)
        ∧ ((e.rtail - e.rhead).toNat < n → x.net.viewPeers.find i = some e → s.way slice p ((e.ring &&& ~~~0xFFF#64).toNat + 64 * (e.rtail.toNat % n)) = .free → ∃ u, exec (.remoteFaultRecordRx slice sender record) s = .next u
            ∧ u.readMem p ((e.ring &&& ~~~0xFFF#64).toNat + 64 * (e.rtail.toNat % n)) 64 = leBytes 64 record.toNat
            ∧ (u.slice slice).net.viewPeers.find i = some { e with rtail := e.rtail + 1#32 }))

/-! ### Power (R379-R387) -/

/-- A core's clock edge adds RATE to ALLOW up to CAP, draws the clock's debits down to -2^31 at least, and sets WLEVEL from ALLOW[31:16], TH and STEP; RAILREQ
that differs from RAIL then starts a switch, which ends 24 clocks later with RAIL changed; before the edge the clock has its owed issue turns, and then the
events of its end, the landing of the results that are due among them. At the end of an interval every core's
grant is max(F, min(DEMAND, NOMINAL, λ)), for the largest λ whose grants do not exceed what the budget has beside the reserve of a slice under recovery (R414); the cores of a slice take their grants together, which ends
the slice's loans and the fail-safe; 150,000 slice reference clocks without a grant set the rate to F, once. An idle core that neither lends nor borrows lends 7/8 of its rate, truncated, to the
lowest-numbered withheld core; the loan is recalled when a slot of the lender is ready (at once if one is, or has been in the clock, when it is made), and its rate then returns. That a switch starts at the next edge, and
that λ is a 32-bit level, are the model's (assumption 96), and so are the lowest free entry of a loan and the amount that a recall returns
(assumption 97), and the order of a clock's end and its owed turns (assumption 16) (R379-R384, R386, R387). -/
def Obligations.PowerControl : Prop :=
  (∀ (s : State) (core : Nat),
    let k := s.core core
    let p := k.power
    let sl := core / 16
    let allow : Int := max (min (p.allow + p.rate) (Config.cap sl) - p.debits * 2 ^ 16) (-2 ^ 31)
    let a := allow / 2 ^ 16
    let again (l : List Turn) := l ++ .event (.allowanceUpdate core) :: s.agenda
    (k.closing = false → k.owedTurns core ≠ [] → exec (.allowanceUpdate core) s = .next { s with agenda := again (k.owedTurns core) })
    ∧ (k.closing = false → k.owedTurns core = [] → ∃ l, exec (.allowanceUpdate core) s
        = .next { s.modCore core (fun k => { k with closing := true }) with agenda := again l }
        ∧ ∀ g f r, g.core = core → s.fibre? g = some f → r ∈ f.results → r.due ≤ k.clock → .event (.resultLand g) ∈ l)
    ∧ (k.closing = true → ∃ u, exec (.allowanceUpdate core) s = .next u
      ∧ (((s.slice sl).fault.qbase = 0#64 ∨ ∀ c t, k.teams.find c = some t → ∀ n off, t.constAddress n off = none) → u.mem = s.mem)
      ∧ (u.core core).closing = false ∧ (∀ j, j ≠ core → (u.core j).clock = (s.core j).clock ∧ (u.core j).power = (s.core j).power)
      ∧ (u.core core).clock = k.clock + 1 ∧ (u.core core).power.allow = allow ∧ (u.core core).power.debits = 0 ∧ (u.core core).power.rate = p.rate
      ∧ (u.core core).power.rail = p.rail ∧ (u.core core).power.wphase = (k.clock + 1) % 4
      ∧ ((Config.th sl : Int) ≤ a → (u.core core).power.wlevel = 0)
      ∧ (a < (Config.th sl : Int) → ((u.core core).power.wlevel : Int) = min 4 (1 + (Config.th sl - a) / (Config.stepLess1 sl + 1)))
      ∧ (p.switching = none → p.railReq = p.rail → (u.core core).power.switching = none)
      ∧ (p.switching = none → p.railReq ≠ p.rail → (u.core core).power.switching = some (k.clock + 1 + 24) ∧ (u.core core).power.changed = false)
      ∧ (∀ e, p.switching = some e → (u.core core).power.switching = some e)))
  ∧ (∀ (s : State) (core : Nat) (low : Bool),
    let p := (s.core core).power
    let clock := (s.core core).clock
    let only (i : Instr) (q : Power) := ∃ u, exec i s = .next u ∧ u = s.modCore core fun k => { k with power := q }
    only (.railSwitchRequest core low) { p with railReq := low }
    ∧ (∀ e, p.switching = some e →
        (p.changed = false → (if p.rail then e - 12 else e - 4) ≤ clock → only (.railChangeover core) { p with changed := true })
        ∧ (clock < (if p.rail then e - 12 else e - 4) → exec (.railChangeover core) s = .next s)
        ∧ (e ≤ clock → only (.railSwitchEnd core) { p with rail := !p.rail, switching := none, changed := false })
        ∧ (clock < e → exec (.railSwitchEnd core) s = .next s))
    ∧ (p.lastGrant + 150000 ≤ (s.slice (core / 16)).cyc.toNat → p.failsafe = false → only (.failsafeTimeout core) { p with rate := 2 * Config.nominal (core / 16) / 5, failsafe := true })
    ∧ ((s.slice (core / 16)).cyc.toNat < p.lastGrant + 150000 ∨ p.failsafe = true → exec (.failsafeTimeout core) s = .next s))
  ∧ (∀ s : State,
    let demand (c : Nat) := (s.core c).power.drawn * 2 ^ 16 / (s.core c).power.clocks
    let grant (c l : Nat) := max (2 * Config.nominal (c / 16) / 5) (min (demand c) (min (Config.nominal (c / 16)) l))
    let off (c : Nat) := s.recovering (c / 16)
    let total (l : Nat) := (((List.range 256).filter fun c => !off c).map fun c => grant c l).sum
    let kept := (((List.range 256).filter off).map fun c => (s.core c).power.granted.getD (2 * Config.nominal (c / 16) / 5)).sum
    let budget := Config.budget - kept
    ((∀ n, n < 16 → s.recovering n = false) ∨ total 0 ≤ budget → ∃ u l, exec .grantIntervalEnd s = .next u ∧ l < 2 ^ 32 ∧ total l ≤ budget
      ∧ (∀ m, l < m → m < 2 ^ 32 → budget < total m)
      ∧ ∀ c, c < 256 → (u.core c).power.grant = (if off c then (s.core c).power.grant else some (grant c l))
        ∧ (u.core c).power.demand = demand c ∧ (u.core c).power.rate = (s.core c).power.rate))
  ∧ (∀ (s : State) (n : Nat), n < 16 →
    ((∃ i, i < 16 ∧ (s.core (16 * n + i)).power.grant ≠ none) → ∃ u, exec (.grantTake n) s = .next u ∧ u.mem = s.mem ∧ (u.slice n).loans = .empty
      ∧ (∀ i r, i < 16 → (s.core (16 * n + i)).power.grant = some r → (u.core (16 * n + i)).power.rate = r ∧ (u.core (16 * n + i)).power.failsafe = false
          ∧ (u.core (16 * n + i)).power.grant = none ∧ (u.core (16 * n + i)).power.lastGrant = (s.slice n).cyc.toNat)
      ∧ ∀ c, c / 16 ≠ n → u.core c = s.core c)
    ∧ ((∀ i, i < 16 → (s.core (16 * n + i)).power.grant = none) → exec (.grantTake n) s = .next s))
  ∧ ∀ (s : State) (n lender b e : Nat), n < 16 → lender < 16 → b < 16 → e < 16 →
    let loans := (s.slice n).loans
    let at_ (i : Nat) := (s.core (16 * n + i)).power
    let needs (i : Nat) := i ≠ lender ∧ 1000 ≤ (at_ i).withheldFor
    let r := (at_ lender).rate * 7 / 8
    let rates (u : State) (x y : Nat) := (u.core (16 * n + lender)).power.rate = x ∧ (u.core (16 * n + b)).power.rate = y ∧ u.mem = s.mem
      ∧ ∀ c, c ≠ 16 * n + lender → c ≠ 16 * n + b → u.core c = s.core c
    (2000 ≤ (at_ lender).idleFor → (∀ l ∈ loans.vals, l.lender ≠ lender ∧ l.borrower ≠ lender) → loans.find e = none → (∀ j, j < e → loans.find j ≠ none) →
      needs b → (∀ j, j < b → ¬ needs j) → ∃ u, exec (.loanMake n lender) s = .next u ∧ (u.slice n).loans.find e = some ⟨s.anyReady (16 * n + lender), lender, b, r⟩
        ∧ rates u ((at_ lender).rate - r) ((at_ b).rate + r))
    ∧ ((at_ lender).idleFor < 2000 ∨ (∃ l ∈ loans.vals, l.lender = lender ∨ l.borrower = lender) ∨ (∀ j, j < 16 → loans.find j ≠ none) ∨ (∀ j, j < 16 → ¬ needs j) →
        exec (.loanMake n lender) s = .next s)
    ∧ ∀ l, loans.find e = some l → l.lender = lender → l.borrower = b →
        (s.anyReady (16 * n + lender) = true → ∃ u, exec (.loanRecallStart n e) s = .next u ∧ (u.slice n).loans.find e = some { l with recalled := true }
          ∧ u.cores = s.cores)
        ∧ (s.anyReady (16 * n + lender) = false → exec (.loanRecallStart n e) s = .next s)
        ∧ (l.recalled = true → l.rate ≤ (at_ b).rate → b ≠ lender → ∃ u, exec (.loanRecallComplete n e) s = .next u ∧ (u.slice n).loans.find e = none
            ∧ rates u ((at_ lender).rate + l.rate) ((at_ b).rate - l.rate))
        ∧ (l.recalled = true → (at_ b).rate < l.rate → b ≠ lender → ∃ u x, exec (.loanRecallComplete n e) s = .next u ∧ (u.slice n).loans.find e = none
            ∧ x ≤ (at_ b).rate ∧ rates u ((at_ lender).rate + x) ((at_ b).rate - x))

/-! ### Launches (R22, R23, R63, R129-R131, R313-R316) -/

/-- A write of the launch table changes the entry and no core's own view, which takes it at an instant of the core's; WORD with V = 1 clears PUT and TAKE. A
spilled argument returns to a FIFO that has a place. A dequeue takes the oldest argument: a descriptor that cannot be read, or is malformed, counts an error
and no team is placed, and one whose home bank is held waits; a condition word of 0 discards the launch; else the launch is placed team by team. A team is placed on a core of the partition with the
resources free: its context starts at the header's entry with g1-g6 set, it takes a request that was made of the context while it had no team (assumption 129), and the launch goes on to its next team.
The model's choices: that a malformed launch counts its error before its condition word is read (assumption 113), what is malformed beside R316's list
(assumption 64), that the launch unit sees the table at once (assumption 83), and which resources a team takes (assumption 66) (R22, R23, R63, R313-R316). -/
def Obligations.Launches : Prop :=
  (∀ (s : State) (part : Nat) (p : Part) (ix : Byte) (value : DWord), s.part? part = some p →
    let i := ix.toNat
    let e := p.launches.get i .empty
    let reads (pa n : Nat) := ∀ a, pa / 128 * 128 ≤ a → a < pa + n → s.way (s.unitSlice part) part a = .free ∧ (s.line part a).poison = false
    let writes (off size : Nat) (e' : LaunchEntry) := ∃ u q, exec (.launchTableWrite part ix off size value) s = .next u ∧ u.part? part = some q
      ∧ q.launches.find i = some e' ∧ (∀ j, j ≠ i → q.launches.find j = p.launches.find j) ∧ u.cores = s.cores ∧ u.mem = s.mem
    (value.getLsbD 63 = false → writes 0 8 { e with word := value &&& 0xC1FFFFFFFFFFFFF8#64 })
    ∧ (value.getLsbD 63 = true → writes 0 8 { e with word := value &&& 0xC1FFFFFFFFFFFFF8#64, put := 0#32, take := 0#32, waiting := [] })
    ∧ writes 8 8 { e with desc := value &&& ~~~0x7F#64 } ∧ writes 16 8 { e with ring := value &&& 0xFFFFFFFFFFFFF01F#64 }
    ∧ writes 24 4 { e with errcnt := value.setWidth 32 }
    ∧ (∀ core, (s.slice (core / 16)).part = some part → ∃ u, exec (.launchTableTakeEffect core ix) s = .next u
        ∧ (u.core core).launchView.find i = some e.word ∧ (∀ j, j ≠ core → u.core j = s.core j) ∧ u.parts = s.parts)
    ∧ (∀ base n, e.ringOf = some (base, n) → e.waiting = [] →
        (e.put ≠ e.take → e.fifo.length < 64 → reads (base + 8 * (e.take.toNat % n)) 8 → ∃ u q, exec (.spillRefill part ix) s = .next u ∧ u.mem = s.mem ∧ u.part? part = some q
          ∧ q.launches.find i = some { e with fifo := e.fifo ++ [BitVec.ofNat 64 (leNat (s.readMem part (base + 8 * (e.take.toNat % n)) 8))], take := e.take + 1#32 })
        ∧ ((e.put = e.take ∨ 64 ≤ e.fifo.length) → exec (.spillRefill part ix) s = .next s))
    ∧ (∀ arg rest, e.fifo = arg :: rest →
        let read := s.readLaunch part i p e arg
        let count := if e.errcnt = 0xFFFFFFFF#32 then e.errcnt else e.errcnt + 1#32
        let gives (e' : LaunchEntry) (ls : List Launching) := ∃ u q, exec (.launchDequeue part ix) s = .next u ∧ u.mem = s.mem ∧ u.cores = s.cores
          ∧ u.part? part = some q ∧ q.launches.find i = some e' ∧ q.placing.get i [] = p.placing.get i [] ++ ls
        (∀ addr a, read = .error (.unread addr a) → gives { e with fifo := rest, errcnt := count, errlow := BitVec.ofNat 32 addr } [])
        ∧ (read = .error .malformed → gives { e with fifo := rest, errcnt := count } [])
        ∧ (read = .error .waits → exec (.launchDequeue part ix) s = .next s)
        ∧ (read = .ok none → gives { e with fifo := rest } [])
        ∧ (∀ l, read = .ok (some l) → gives { e with fifo := rest } (if l.next < l.bound then [l] else []) ∧ l.arg = arg)
        ∧ (let way (a : Nat) := s.way (s.unitSlice part) part (e.desc.toNat / 128 * 128 + a)
           e.desc.toNat % 128 = 0 →
            ((way 0).errs = true → read = .error (.unread e.desc.toNat (some e.desc.toNat))) ∧ (way 0 = .held → read = .error .waits)
            ∧ (way 0 = .free → (s.line part e.desc.toNat).poison = true → read = .error (.unread e.desc.toNat none)))
        ∧ (reads e.desc.toNat 128 →
            let bs := s.readMem part e.desc.toNat 128
            let d := Desc.parse bs
            (d.root.toNat / 2 ^ 60 ≠ 10 ∨ d.maxgrp = 0 ∨ 256 < d.maxgrp ∨ d.slots = 0 ∨ 128 < d.slots ∨ d.alloc = 0 ∨ 24 < d.alloc ∨ 2097152 < d.scratch
              ∨ 16 < d.nt ∨ 16 < d.nm ∨ d.cw * d.ch ≠ d.cluster ∨ 12 < d.cluster ∨ (d.sup = true ∧ e.word.getLsbD 62 = false)
              ∨ d.gridX * d.gridY * d.gridZ = 0 ∨ (d.pin = true ∧ d.cluster ≠ 1) ∨ 15 < d.world) → read = .error .malformed)))
  ∧ (∀ (s : State) (part : Nat) (p : Part) (ix : Byte) (core : Nat) (l : Launching) (rest : List Launching), s.part? part = some p →
    p.placing.get ix.toNat [] = l :: rest → l.desc.cluster = 1 → (l.desc.pin = true → p.cores[l.next]? = some core) →
    s.windowsEnd part l = none → s.placeable part p core = true → s.cacheStuck core = false →
    (∀ k ctx gs, (s.core core).takeTeam l.desc = some (k, ctx, gs) →
      (∀ c x, c ≠ core ∨ x ≠ ctx → ((s.core c).preempt.get x .reset).req = false) → ∃ u m q, exec (.teamPlace part ix core) s = .next u ∧ u.team? core ctx = some m
      ∧ m.desc = l.desc ∧ m.hdr = l.hdr ∧ m.index = l.next ∧ m.part = part ∧ m.granules = gs ∧ m.cluster = none ∧ m.gen.pc = l.hdr.entry
      ∧ m.gen.run = .ready (k.clock + 1) ∧ m.gen.sup = l.desc.sup ∧ m.gen.opened = none ∧ m.preq = ((s.core core).preempt.get ctx .reset).req
      ∧ m.x = l.next % l.desc.gridX ∧ m.y = l.next / l.desc.gridX % l.desc.gridY ∧ m.z = l.next / (l.desc.gridX * l.desc.gridY)
      ∧ m.gen.reg 0#6 = 0#64 ∧ m.gen.reg 1#6 = l.arg ∧ m.gen.reg 2#6 = BitVec.ofNat 64 m.x ∧ m.gen.reg 3#6 = BitVec.ofNat 64 (m.y + m.z * 2 ^ 32)
      ∧ m.gen.reg 4#6 = l.desc.grid ∧ m.gen.reg 5#6 = BitVec.ofNat 64 (2 ^ 32) ∧ m.gen.reg 6#6 = BitVec.ofNat 64 (l.rank + l.nranks * 2 ^ 32)
      ∧ (∀ r : BitVec 6, 6 < r.toNat → m.gen.reg r = 0#64) ∧ (u.core core).l1.cells = [] ∧ u.part? part = some q
      ∧ q.placing.get ix.toNat [] = (if l.next + 1 < l.bound then { l with next := l.next + 1 } :: rest else rest)
      ∧ ∀ c, c ≠ core → u.core c = s.core c)
    ∧ ((s.core core).takeTeam l.desc = none → exec (.teamPlace part ix core) s = .next s))

/-! ### Markhor and the mailbox (R356-R377, R414) -/

/-- Boot, watchdog, provisioning and the loss of power. A boot first completes the counters that read differently; one with a step that fails, or with images or a
configuration record that do not pass, stops the package and is reported; one that passes starts each partition of the configuration record with its regions,
its watchdog and its boot hart in the loader. The loader enters an accepted image in M-mode and waits on after a refused
one. A watchdog whose time has passed starts the next-higher slice, or leaves the partition in reset. The root is provisioned once, before the first boot epoch.
What fuses and Markhor's store hold, and what spares have replaced, outlasts a loss of power, and nothing else does. How the model codes a report, that a step
may fail, and that spares stay are its own (assumptions 86, 135 and 136), and so are the hart that boots (assumption 71), that the root is accepted
until the first boot epoch (assumption 137) and the fuse writes that a boot finishes (assumption 87) (R356-R358, R362, R365, R369, R376). -/
def Obligations.BootAndPower : Prop :=
  (∀ (s : State) (kernels : List (Nat × List Byte)),
    let m := s.markhor
    let ok := Config.bootStepOk m.epoch
    let stops (n : Nat) := ∃ u, exec (.packageBoot kernels) s = .next u ∧ u.markhor.failed = true ∧ u.markhor.booted = false
      ∧ u.markhor.reports = m.reports ++ [n] ∧ (n < 4 → u.parts = s.parts ∧ u.cores = s.cores ∧ u.slices = s.slices)
    (m.fuseWork ≠ [] → exec (.packageBoot kernels) s = .next { s with markhor := m.finishFuses })
    ∧ (m.fuseWork = [] → (m.booted = true ∨ m.failed = true) → exec (.packageBoot kernels) s = .next s)
    ∧ (m.fuseWork = [] → m.booted = false → m.failed = false →
      (ok 1 = false → stops 1)
      ∧ (ok 1 = true → m.unresolved ≠ [] → exec (.packageBoot kernels) s = .next { s with markhor := { m with fuseWork := m.unresolved } })
      ∧ (ok 1 = true → m.unresolved = [] → (m.imagesOk && m.cfgOk) = false → stops 2)
      ∧ (ok 1 = true → m.unresolved = [] → m.imagesOk = true → m.cfgOk = true → ok 3 = false → stops 3)
      ∧ (ok 1 = true → m.unresolved = [] → m.imagesOk = true → m.cfgOk = true → ok 3 = true → ok 4 = false → stops 4)
      ∧ (∀ c, ok 1 = true → m.unresolved = [] → m.imagesOk = true → m.cfgOk = true → ok 3 = true → ok 4 = true → m.cfg = [c] → kernels = [] →
        ∃ u p, exec (.packageBoot kernels) s = .next u ∧ u.markhor.booted = true
        ∧ u.markhor.epoch = m.epoch + 1 ∧ u.markhor.sealCtr = m.sealMark ∧ u.part? c.number = some p ∧ p.slices = c.slices ∧ p.boot = c.number
        ∧ p.watchdog = some (BitVec.ofNat 64 (if c.wdPeriod = 0#64 then 3000000000 else c.wdPeriod.toNat)) ∧ p.mailbox = .reset
        ∧ (∀ n ∈ c.slices, (u.slice n).part = some c.number)
        ∧ (∀ r, r < 238 * c.slices.length → p.regions.find r = some ⟨c.slices.getD (r % c.slices.length) 0, r / c.slices.length, false, 0, 0, 0⟩)
        ∧ ((s.hartOf ⟨c.number, 0⟩).run ≠ .retired → (u.hartOf ⟨c.number, 0⟩).run = .loader))))
  ∧ (∀ (s : State) (part : Nat) (p : Part) (bs : List Byte), s.part? part = some p → (s.hartOf ⟨p.boot, 0⟩).run = .loader →
    let text := bs.drop 256
    let base := imageField bs 16 8
    (s.acceptsImage p bs = false → exec (.loaderRetry part bs) s = .next s)
    ∧ (s.Sound → s.acceptsImage p bs = true → ∃ u q, exec (.loaderRetry part bs) s = .next u ∧ u.readMem part base text.length = text
      ∧ MemoryElsewhere s u part base text.length ∧ (u.hartOf ⟨p.boot, 0⟩).run = .running ∧ (u.hartOf ⟨p.boot, 0⟩).priv = 3
      ∧ (u.hartOf ⟨p.boot, 0⟩).pc = BitVec.ofNat 64 (imageField bs 24 8) ∧ u.part? part = some q ∧ q.version = imageField bs 4 4
      ∧ q.watchdog = p.watchdog))
  ∧ (∀ (s : State) (part : Nat) (p : Part), s.part? part = some p →
    let late (d : DWord) := 10 * d.toNat < (s.slice p.boot).cyc.toNat
    (p.watchdog = none → exec (.bootWatchdogExpiry part) s = .next s)
    ∧ (∀ d, p.watchdog = some d → ¬ late d → exec (.bootWatchdogExpiry part) s = .next s)
    ∧ (∀ d, p.watchdog = some d → late d → (∀ n ∈ p.slices, ¬ (p.boot < n ∧ n ∉ p.tried)) → ∃ u q, exec (.bootWatchdogExpiry part) s = .next u
        ∧ u.part? part = some q ∧ q.inReset = true ∧ q.watchdog = none ∧ u.markhor.reports = s.markhor.reports ++ [part + 256])
    ∧ (∀ d n, p.watchdog = some d → late d → p.slices.find? (fun n => decide (p.boot < n) && !p.tried.contains n) = some n → ∃ u q,
        exec (.bootWatchdogExpiry part) s = .next u ∧ u.part? part = some q ∧ q.boot = n ∧ q.slices = p.slices ∧ q.tried = p.tried ++ [p.boot]
        ∧ q.watchdog ≠ none ∧ ((s.hartOf ⟨n, 0⟩).run ≠ .retired → (u.hartOf ⟨n, 0⟩).run = .loader)))
  ∧ (∀ (s : State) (root : BitVec 256) (index : BitVec 20),
    (s.markhor.root = none → s.markhor.booted = false → s.markhor.epoch = 0 → ∃ u, exec (.rootProvision root index) s = .next u ∧ u.markhor.root = some root
      ∧ u.markhor.provIndex = index ∧ u.mem = s.mem ∧ u.cores = s.cores)
    ∧ ((s.markhor.root ≠ none ∨ s.markhor.booted = true ∨ 0 < s.markhor.epoch) → exec (.rootProvision root index) s = .next s))
  ∧ ∀ (s : State) (bits : Nat), ∃ u, exec (.powerLoss bits) s = .next u ∧ u.mem = [] ∧ u.parts = .empty
      ∧ (∀ c, (u.core c).teams = .empty ∧ (u.core c).blocks = .empty ∧ (u.core c).scratch = .empty ∧ (u.core c).l1 = .empty ∧ (u.core c).clock = 0
          ∧ (u.core c).retired = (s.core c).retired ∧ (u.core c).spareUsed = (s.core c).spareUsed)
      ∧ (∀ n, (u.slice n).part = none ∧ (u.slice n).cyc = 0#64 ∧ (u.slice n).rendezvous = [] ∧ (u.slice n).hartSpare = (s.slice n).hartSpare
          ∧ (u.slice n).err.spCore = (s.slice n).err.spCore ∧ (u.slice n).err.spPch = (s.slice n).err.spPch)
      ∧ u.markhor.root = s.markhor.root ∧ u.markhor.epoch = s.markhor.epoch ∧ u.markhor.booted = false ∧ u.markhor.cfg = s.markhor.cfg
      ∧ (s.markhor.fuseWork = [] → u.markhor.fuses = s.markhor.fuses)
      ∧ ∀ c, s.markhor.counter c ≤ u.markhor.counter c

/-- A request of a partition's mailbox that is idle: it takes the arguments as they stand, and its effect is Markhor's. IDENT names the package and the partition;
BOOTOK stops the watchdog; PTEXT turns XEN in a partition without teams; WBIND binds a world; ASSIGN leaves every line zero under its attribute and world; RDROP
and RADD free and give a region; JOIN, LEAVEBEGIN and LEAVE change the partition's slices; ATTEST and ATTKEY write a report and a key; RECOVER resets a prepared
slice, or holds the partition where it has no path round the slice's failed links. An ASSIGN and a LEAVE that are under way change one line at a time. A code
written while BUSY sets OVR; a served request publishes its result and an unknown code gives 3. The model's choices: how a request passes (assumption
92), which result several refusals give (assumption 93), where joined and recovered harts start (assumption 94) and what a move takes with
it (assumption 138) (R360, R361, R366-R368, R371-R374, R414). -/
def Obligations.MailboxRequests : Prop :=
  (∀ (s : State) (slice part : Nat) (p : Part), s.Sound → (s.slice slice).part = some part → s.part? part = some p → p.mailbox.busy = none →
    let a (i : Nat) : DWord := p.mailbox.args.get i 0#64
    let n (i : Nat) : Nat := (a i).toNat
    let gives (i : Instr) (code result : Nat) (outs : List (Nat × DWord)) (e : State → Part → Prop) := ∃ u q, exec i s = .next u ∧ u.part? part = some q
      ∧ q.mailbox.busy = some ⟨code, (List.range 8).map a, false, 0, true, result, outs⟩ ∧ q.mailbox.args = p.mailbox.args ∧ e u q
    let fails (i : Instr) (code result : Nat) := gives i code result [] fun u q => u.mem = s.mem ∧ u.cores = s.cores ∧ q.slices = p.slices ∧ q.regions = p.regions
      ∧ q.bindings = p.bindings ∧ q.xen = p.xen
    let mask := (List.range 16).foldl (fun m i => if p.slices.contains i then m + 2 ^ i else m) 0
    (p.slices = (List.range 16).filter p.slices.contains → gives (.ident slice) 1 0
        [(0, Config.packageId), (1, BitVec.ofNat 64 (part + mask * 2 ^ 16 + p.boot * 2 ^ 32))] fun u _ => u.mem = s.mem)
    ∧ (gives (.bootok slice) 2 0 [] fun u q => q.watchdog = none ∧ u.mem = s.mem ∧ q.xen = p.xen)
    ∧ (p.slices.any s.sliceHasTeam = false → gives (.ptext slice) 3 0 [] fun u q => q.xen = (a 0).getLsbD 0 ∧ u.mem = s.mem)
    ∧ (p.slices.any s.sliceHasTeam = true → fails (.ptext slice) 3 2)
    ∧ (n 0 ≤ 15 → n 1 < 2 ^ 32 → n 2 < 2 ^ 32 → (∀ l ∈ s.lines.cells, l.1 / 2 ^ 50 = part → l.2.world.toNat = n 0 → l.2.attr = 0#2) →
        gives (.wbind slice) 4 0 [] fun u q => q.bindings.find (n 0) = some ((a 1).setWidth 32, (a 2).setWidth 32) ∧ u.mem = s.mem)
    ∧ (15 < n 0 → fails (.wbind slice) 4 1)
    ∧ (let attr := (a 2).extractLsb' 0 2
       let world := (a 2).extractLsb' 4 4
       (n 0 % 4096 = 0 → n 1 % 4096 = 0 → 0 < n 1 → attr ≠ 3#2 → s.rangeValid part (n 0) (n 1) = true → (attr = 0#2 ∨ p.xen = true) →
          gives (.assign slice) 5 0 [] fun u _ => (∀ i, i < n 1 / 128 → u.line part (n 0 + 128 * i) = ⟨attr, world, 0#12, false⟩
              ∧ u.readMem part (n 0 + 128 * i) 128 = List.replicate 128 0#8) ∧ MemoryElsewhere s u part (n 0) (n 1))
       ∧ (n 0 % 4096 ≠ 0 ∨ n 1 % 4096 ≠ 0 ∨ attr = 3#2 → fails (.assign slice) 5 1)
       ∧ (n 0 % 4096 = 0 → n 1 % 4096 = 0 → (n 1 = 0 ∨ s.rangeValid part (n 0) (n 1) = true) → attr ≠ 3#2 → attr ≠ 0#2 → p.xen = false → fails (.assign slice) 5 2))
    ∧ (∀ r, n 0 < 4096 → p.regions.find (n 0) = some r → gives (.rdrop slice) 6 0 [] fun u q => q.regions.find (n 0) = none
        ∧ (∀ j, j ≠ n 0 → q.regions.find j = p.regions.find j) ∧ MemoryElsewhere s u part (n 0 * 2 ^ 27) (2 ^ 27))
    ∧ (p.regions.find (n 0) = none → fails (.rdrop slice) 6 1)
    ∧ (∀ i, n 0 < 4096 → p.regions.find (n 0) = none → p.slices.contains (n 1) = true → p.freeSlot (n 1) = some i →
        gives (.radd slice) 7 0 [] fun u q => q.regions.find (n 0) = some ⟨n 1, i, false, 0, 0, 0⟩ ∧ MemoryElsewhere s u part (n 0 * 2 ^ 27) (2 ^ 27)
          ∧ ∀ x, x < 2 ^ 27 → u.readMem part (n 0 * 2 ^ 27 + x) 1 = [0#8])
    ∧ (n 0 < 4096 → p.regions.find (n 0) = none → p.slices.contains (n 1) = true → p.freeSlot (n 1) = none → fails (.radd slice) 7 2)
    ∧ (n 0 < 16 → (s.slice (n 0)).part = none → p.cfg.maxSlices.contains (n 0) = true → shapeOk (insertNat (n 0) p.slices) = true → ∃ o,
        gives (.join slice) 8 0 o fun u q => (u.slice (n 0)).part = some part ∧ n 0 ∈ q.slices ∧ (∀ m ∈ p.slices, m ∈ q.slices)
          ∧ ∀ h, h < 4 → (s.hartOf ⟨n 0, h⟩).run ≠ .retired → (u.hartOf ⟨n 0, h⟩).run = .running ∧ (u.hartOf ⟨n 0, h⟩).pc = a 1 &&& ~~~3#64
              ∧ (u.hartOf ⟨n 0, h⟩).priv = 3)
    ∧ (n 0 < 16 → (s.slice (n 0)).part ≠ none → fails (.join slice) 8 2)
    ∧ (p.slices.contains (n 0) = true → gives (.leavebegin slice) 9 0 [] fun u q => n 0 ∈ q.closed ∧ q.slices = p.slices ∧ u.mem = s.mem)
    ∧ (p.slices.contains (n 0) = false → fails (.leavebegin slice) 9 1 ∧ fails (.leave slice) 10 1 ∧ fails (.recover slice) 13 1)
    ∧ (p.slices.contains (n 0) = true → (p.closed.contains (n 0) = false ∨ s.slicePrepared (n 0) = false) → fails (.leave slice) 10 2)
    ∧ (p.slices.contains (n 0) = true → p.closed.contains (n 0) = true → s.slicePrepared (n 0) = true → shapeOk (p.slices.filter (· ≠ n 0)) = true →
        (∀ r ∈ p.regions.vals, r.slice ≠ n 0) → gives (.leave slice) 10 0 [] fun u q => (u.slice (n 0)).part = none ∧ q.slices = p.slices.filter (· ≠ n 0)
          ∧ ((∀ h, h < 4 → (s.hartOf ⟨n 0, h⟩).stores = []) → u.mem = s.mem))
    ∧ (n 2 ≤ 15 → s.rangeValid part (n 0) 48 = true → s.rangeValid part (n 1) 416 = true → gives (.attest slice) 11 0 [] fun u _ =>
        let body := s.reportBody part p (n 2) (s.readMem part (n 0) 48)
        u.readMem part (n 1) 416 = body ++ beBytes 96 (Config.ecdsaSign (s.attestScalar (s.binding part (n 2))) (Config.sha384 body)).toNat
          ∧ MemoryElsewhere s u part (n 1) 416)
    ∧ (n 2 ≤ 15 → s.rangeValid part (n 0) 96 = true → gives (.attkey slice) 12 0 [] fun u _ =>
        u.readMem part (n 0) 96 = beBytes 96 (Config.ecdsaPublic (s.attestScalar (s.binding part (n 2)))).toNat ∧ MemoryElsewhere s u part (n 0) 96)
    ∧ (15 < n 2 → fails (.attest slice) 11 1 ∧ fails (.attkey slice) 12 1)
    ∧ (p.slices.contains (n 0) = true → s.slicePrepared (n 0) = false → fails (.recover slice) 13 2)
    ∧ (p.slices.contains (n 0) = true → s.slicePrepared (n 0) = true → s.joined p.slices = true → gives (.recover slice) 13 0 [] fun u q =>
        (u.slice (n 0)).part = (s.slice (n 0)).part ∧ q.slices = p.slices ∧ q.held = false ∧ ((∀ h, h < 4 → (s.hartOf ⟨n 0, h⟩).stores = []) → u.mem = s.mem) ∧ (u.slice (n 0)).err.links = (s.slice (n 0)).err.links
          ∧ (u.slice (n 0)).err.esum.getLsbD 7 = false ∧ (∀ c, c / 16 = n 0 → (u.core c).teams = .empty))
    ∧ (p.slices.contains (n 0) = true → s.slicePrepared (n 0) = true → s.joined p.slices = false → ∃ u q, exec (.recover slice) s = .next u ∧ u.part? part = some q
        ∧ q.mailbox.busy = some ⟨13, (List.range 8).map a, true, 0, false, 0, []⟩ ∧ (u.slice (n 0)).err.esum.getLsbD 7 = true ∧ q.held = true ∧ u.mem = s.mem
        ∧ u.markhor.reports.contains (part + 512) = true)
    ∧ ∀ code : Byte, code ≠ 2#8 → ∃ u q, exec (.mailboxOverrun slice code) s = .next u ∧ u.part? part = some q
        ∧ q.mailbox = { p.mailbox with busy := some ⟨code.toNat, (List.range 8).map a, false, 0, false, 0, []⟩ } ∧ u.mem = s.mem)
  ∧ ∀ (s : State) (slice part : Nat) (p : Part) (r : MailReq), (s.slice slice).part = some part → s.part? part = some p → p.mailbox.busy = some r →
      (∀ code, ∃ u q, exec (.mailboxOverrun slice code) s = .next u ∧ u.part? part = some q ∧ q.mailbox = { p.mailbox with ovr := true } ∧ u.mem = s.mem)
      ∧ (let base := (r.arg 0).toNat
         let pa := base + 128 * r.lines
         s.Sound → r.code = 5 → r.served = false → r.began = true → base % 4096 = 0 → r.lines < (r.arg 1).toNat / 128 → ∃ u q, exec (.assign slice) s = .next u
          ∧ u.part? part = some q ∧ q.mailbox.busy = some { r with lines := r.lines + 1 } ∧ u.readMem part pa 128 = List.replicate 128 0#8
          ∧ u.line part pa = ⟨(r.arg 2).extractLsb' 0 2, (r.arg 2).extractLsb' 4 4, 0#12, false⟩ ∧ MemoryElsewhere s u part pa 128)
      ∧ (∀ k g, r.code = 10 → r.served = false → r.began = true → p.moving = some k → p.regions.find k = some g → ∃ u q, exec (.leave slice) s = .next u
          ∧ u.part? part = some q ∧ q.mailbox.busy = some r ∧ u.mem = s.mem ∧ q.slices = p.slices
          ∧ q.regions.find k = some (if g.moved + 1 < 1048576 then { g with moved := g.moved + 1 } else ⟨g.slice, g.slot, false, 0, 0, 0⟩))
      ∧ (r.served = true → ∃ u q, exec (.mailboxDone part) s = .next u ∧ u.part? part = some q ∧ q.mailbox.busy = none ∧ q.mailbox.done = true
          ∧ q.mailbox.result = r.result ∧ q.mailbox.outs = r.outs.foldl (fun o w => o.set w.1 w.2) p.mailbox.outs ∧ u.mem = s.mem)
      ∧ (r.served = false → 13 < r.code → ∃ u q, exec (.mailboxDone part) s = .next u ∧ u.part? part = some q ∧ q.mailbox.busy = none
          ∧ q.mailbox.done = true ∧ q.mailbox.result = 3 ∧ u.mem = s.mem)

/-! ### Ports, devices and errors (R254, R275, R363, R395, R398-R413) -/

/-- The Ethernet port, the Adeser transport, the root port and the IOMMU. Doorbells move tails; a posted frame is sent and its descriptor completed with DONE, or with
ERR when it cannot be sent; a frame that arrives fills the oldest posted buffer, or is lost; a link change pulses APLIC source 5; exposures and peers take
effect together. A segment that arrives is served under the exposure of its key or refused; an acknowledged one leaves the copy's list, a get's bytes
are written; a refused or lost one fails with 0x41 or 0x42, and one without an answer for 20 us is sent again. BOND asks for the partner DIR names; training brings a
bond into force. A device's write, read and MSI go where the IOMMU gives, an INTx message is a wire (R275, R395, R398-R402). Directories' layout is PRESUMED (assumption 101); the
choices that the text leaves to a port are the model's (assumption 98), and so are how a received segment acts (assumption 99), late
acknowledgements (assumption 100), a device's requests (assumption 102) and MSIs (assumption 103), and when a bond is refused (assumption
106). -/
def Obligations.PortsAndDevices : Prop :=
  (∀ (s : State) (n : Nat), s.Sound →
    let x := s.slice n
    let does (i : Instr) (e : State → Prop) := ∃ u, exec i s = .next u ∧ e u
    let reads (p pa m : Nat) := ∀ a, pa / 128 * 128 ≤ a → a < pa + max 1 m → s.way n p a = .free ∧ (s.line p a).poison = false
    let answers (p pa m : Nat) := ∀ a, pa / 128 * 128 ≤ a → a < pa + max 1 m → s.way n p a = .free
    let net (i : Instr) (y : Net) := does i fun u => (u.slice n).net = y ∧ u.mem = s.mem ∧ u.cores = s.cores
    (∀ tail, net (.txPost n tail) { x.net with txTail := tail } ∧ net (.rxPost n tail) { x.net with rxTail := tail })
    ∧ (∀ err p k, x.part = some p → (∀ a m, s.partLaunches p a m = []) → (x.net.txRing.extractLsb' 0 5).toNat = k → 4 ≤ k → k ≤ 16 →
      let at_ := (x.net.txRing &&& ~~~0xFFF#64).toNat + 16 * (x.net.txHead.toNat % 2 ^ k)
      let buf := leNat (s.readMem p at_ 8)
      let len := leNat (s.readMem p (at_ + 8) 2)
      let frame := s.readMem p buf len
      let done (b : Byte) (fs : List (List Byte)) := does (.frameTxDone n err) fun u => u.readMem p (at_ + 8) 3 = leBytes 2 len ++ [b]
        ∧ MemoryElsewhere s u p (at_ + 8) 3 ∧ (u.slice n).net = { x.net with txHead := x.net.txHead + 1#32, frames := fs }
      (x.net.txHead = x.net.txTail → exec (.frameTxDone n err) s = .next s)
      ∧ (x.net.txHead ≠ x.net.txTail → (s.way n p at_).errs = true → does (.frameTxDone n err) fun u => u.mem = s.mem
          ∧ (u.slice n).net = { x.net with txHead := x.net.txHead + 1#32 })
      ∧ (x.net.txHead ≠ x.net.txTail → reads p at_ 16 → s.bufferHeld n p buf len = true → exec (.frameTxDone n err) s = .next s)
      ∧ (x.net.txHead ≠ x.net.txTail → reads p at_ 16 → s.bufferHeld n p buf len = false → (err = true ∨ x.net.up = false ∨ 9216 < len ∨ etherType frame = 0x88B5
            ∨ ∃ a ∈ touchedLines buf len, (s.way n p a).errs = true ∨ (s.line p a).poison = true) → done 3#8 x.net.frames)
      ∧ (x.net.txHead ≠ x.net.txTail → err = false → x.net.up = true → len ≤ 9216 → etherType frame ≠ 0x88B5 → reads p at_ 16 → reads p buf len →
          done 1#8 (x.net.frames ++ [frame])))
    ∧ (∀ frame p k, x.part = some p → (∀ a m, s.partLaunches p a m = []) → (x.net.rxRing.extractLsb' 0 5).toNat = k → 4 ≤ k → k ≤ 16 →
      let at_ := (x.net.rxRing &&& ~~~0xFFF#64).toNat + 16 * (x.net.rxHead.toNat % 2 ^ k)
      let buf := leNat (s.readMem p at_ 8)
      let len := leNat (s.readMem p (at_ + 8) 2)
      ((x.net.up = false ∨ x.net.rxHead = x.net.rxTail) → exec (.ethernetFrameRx n frame) s = .next s)
      ∧ (x.net.up = true → x.net.rxHead ≠ x.net.rxTail → etherType frame ≠ 0x88B5 → frame.length ≤ 9216 → reads p at_ 16 →
        (frame.length ≤ len → answers p buf frame.length → (buf + frame.length ≤ at_ + 8 ∨ at_ + 11 ≤ buf) →
          does (.ethernetFrameRx n frame) fun u => u.readMem p buf frame.length = frame ∧ u.readMem p (at_ + 8) 3 = leBytes 2 frame.length ++ [1#8]
            ∧ (u.slice n).net = { x.net with rxHead := x.net.rxHead + 1#32 })
        ∧ (len < frame.length → does (.ethernetFrameRx n frame) fun u => u.readMem p (at_ + 8) 3 = leBytes 2 len ++ [3#8]
            ∧ MemoryElsewhere s u p (at_ + 8) 3 ∧ (u.slice n).net = { x.net with rxHead := x.net.rxHead + 1#32 })))
    ∧ (∀ up, (x.net.up = up → exec (.ethernetLinkChange n up) s = .next s)
      ∧ (x.net.up ≠ up → net (.ethernetLinkChange n up) { x.net with up := up }
        ∧ ((x.aplic.reg 20).extractLsb' 0 3 ≠ 0#3 → (x.aplic.reg 0).getLsbD 8 = false → x.aplic.level.getLsbD 5 = false →
            does (.ethernetLinkChange n up) fun u => (u.slice n).aplic.pending.getLsbD 5 = true ∧ (u.slice n).aplic.level = x.aplic.level)))
    ∧ (does (.exposureTakeEffect n) fun u => u.mem = s.mem ∧ u.cores = s.cores ∧ (u.slice n).net.viewExp = x.net.exposures
        ∧ ∀ i, (u.slice n).net.viewPeers.find i = (match x.net.peers.find i, x.net.viewPeers.find i with
          | some p, some q => some { p with rtail := q.rtail }
          | some p, none => some p
          | none, _ => none))
    ∧ (∀ g : AdeserSegment,
      let reply (u : State) (refused : Bool) (bs : List Byte) := (u.slice n).net = { x.net with replies := x.net.replies ++ [(g, refused, bs)] }
      let refuses := does (.adeserSegmentRx n g) fun u => u.mem = s.mem ∧ reply u true []
      (x.part = none → refuses) ∧ (g.key = 0#64 ∨ (∀ e ∈ x.net.viewExp.vals, e.key ≠ g.key) → refuses)
      ∧ ∀ p e, x.part = some p → x.net.exposureFor g = some e →
        (s.exposedAt n p e g = none → refuses)
        ∧ (∀ pa m, s.exposedAt n p e g = some [(pa, m)] → s.way n p pa = .held → exec (.adeserSegmentRx n g) s = .next s)
        ∧ ∀ pa, 0 < g.len → s.exposedAt n p e g = some [(pa, g.len)] → s.way n p pa ≠ .held →
          (g.put = true → s.partLaunches p pa g.len = [] → g.data.length = g.len → does (.adeserSegmentRx n g) fun u =>
            u.readMem p pa g.len = g.data ∧ MemoryElsewhere s u p pa g.len ∧ reply u false [] ∧ (u.line p pa).owner = rootAsid e.root)
          ∧ (∀ w r, g.put = true → s.partLaunches p pa g.len = w :: r → refuses)
          ∧ (∀ a, g.put = false → pa ≤ a → a < pa + g.len → (s.line p a).poison = true → refuses)
          ∧ (g.put = false → (∀ a, pa ≤ a → a < pa + g.len → (s.line p a).poison = false) →
              does (.adeserSegmentRx n g) fun u => u.mem = s.mem ∧ reply u false (s.readMem p pa g.len))))
  ∧ (∀ (s : State) (v : View) (o : CopyOp) (x : CopySent), s.Sound → s.view v.g = some v → o.g = v.g → v.core.copies.find? (fun p => p.id == o.id) = some o →
    o.sent.find? (fun y => y.index == x.index) = some x → v.fib.aborting = false →
    let core := v.g.core
    let g := o.seg x.stream
    let at_ := (o.global.toNat + x.x) % 2 ^ 64
    let acked (u : State) := (u.core core).copies = v.core.copies.map (fun p => if p.id = o.id then { p with sent := p.sent.filter fun y => y.index ≠ x.index } else p)
      ∧ u.fibre? v.g = some v.fib
    let fails (i : Instr) (cause : Byte) := ∃ u f r, exec i s = .next u ∧ u.fibre? v.g = some f ∧ f.frozen = true ∧ f.outstanding = v.fib.outstanding
      ∧ (u.slice (sliceOf core)).fault.live = (s.slice (sliceOf core)).fault.live ++ [r] ∧ r.cause = cause ∧ r.agent = .group v.g ∧ r.opId = o.opId
      ∧ r.entry = 0x0F#8
    let net := (s.slice (sliceOf core)).net
    let waited := 20000 ≤ ((s.slice (sliceOf core)).cyc - x.at_).toNat
    let again (e : BitVec 128) := ∃ u seg, exec (.adeserResendTimeout core o.id x.index) s = .next u ∧ u.mem = s.mem
      ∧ (u.slice (sliceOf core)).net.segments = net.segments ++ [(e, seg)] ∧ seg.put = !o.toGlobal ∧ seg.len = g.len ∧ seg.key = e.extractLsb' 64 64
      ∧ u.fibre? v.g = some v.fib ∧ ∀ p ∈ (u.core core).copies, p.id = o.id → ∀ y ∈ p.sent, y.index = x.index →
          1 ≤ y.retries ∧ y.dest = e ∧ y.at_ = (s.slice (sliceOf core)).cyc
    (s.portAt x.dest = none →
      (∀ bs, o.toGlobal = false → ∃ u, exec (.adeserAck core o.id x.index bs false) s = .next u ∧ u.mem = s.mem ∧ acked u)
      ∧ (∀ bs pa, o.toGlobal = true → s.engineCheck o v.team at_ x.len true = (.ready pa, s) → bs.length = x.len → v.core.l1.find (pa / 128) = none →
          pa % 128 + x.len ≤ 128 →
          ∃ u, exec (.adeserAck core o.id x.index bs false) s = .next u ∧ acked u ∧ u.readMem v.team.part pa x.len = bs ∧ MemoryElsewhere s u v.team.part pa x.len)
      ∧ (∀ bs, fails (.adeserAck core o.id x.index bs true) 0x41#8))
    ∧ (∀ m bs refused, s.portAt x.dest = some m →
      let sent := s.segmentTo o x.dest x.x x.len []
      ((∀ r ∈ (s.slice m).net.replies, ¬ ({ r.1 with data := [] } = sent ∧ r.2 = (refused, bs))) → exec (.adeserAck core o.id x.index bs refused) s = .next s)
      ∧ (∀ h r, (s.slice m).net.replies = h :: r → { h.1 with data := [] } = sent → h.2 = (false, bs) → o.toGlobal = false →
          ∃ u, exec (.adeserAck core o.id x.index bs false) s = .next u ∧ u.mem = s.mem ∧ acked u ∧ (u.slice m).net.replies = r))
    ∧ (¬ waited → exec (.adeserResendTimeout core o.id x.index) s = .next s)
    ∧ (waited → 8 ≤ x.retries → fails (.adeserResendTimeout core o.id x.index) 0x42#8)
    ∧ (waited → x.retries < 8 → s.rankEndpoint o v.team (o.q 1) = (.none_, s) → fails (.adeserResendTimeout core o.id x.index) 0x40#8)
    ∧ (∀ e, waited → x.retries < 8 → s.rankEndpoint o v.team (o.q 1) = (.ok e, s) →
        (o.toGlobal = true → again e) ∧ ∀ pa, o.toGlobal = false → s.engineCheck o v.team at_ x.len false = (.ready pa, s) → again e))
  ∧ (∀ (s : State) (n : Nat), s.Sound →
    let x := s.slice n
    let port := x.port
    let does (i : Instr) (e : State → Prop) := ∃ u, exec i s = .next u ∧ e u
    let port' (i : Instr) (y : RootPort) := does i fun u => (u.slice n).port = y ∧ u.mem = s.mem ∧ u.cores = s.cores
    (∀ w : Word,
      let south := w.getLsbD 2
      let partner := if south then (if n / 4 < 3 then some (n + 4) else none) else (if n % 4 < 3 then some (n + 1) else none)
      (w.getLsbD 0 = false → port' (.bondRequest n w) { port with dir := south, bond := false, refused := false })
      ∧ (w.getLsbD 0 = true → partner = none → port' (.bondRequest n w) { port with dir := south, bond := false, refused := true })
      ∧ ∀ m, w.getLsbD 0 = true → partner = some m →
        let can := (s.slice m).part ≠ none ∧ (s.slice m).part = x.part ∧ (s.slice m).port.partner = none ∧ (s.slice m).port.linkUp = false
          ∧ (s.slice m).port.training = false
        (can → port' (.bondRequest n w) { port with dir := south, bond := true, refused := false })
        ∧ (¬ can → port' (.bondRequest n w) { port with dir := south, bond := false, refused := true }))
    ∧ (let can (m : Nat) := (s.slice m).part ≠ none ∧ (s.slice m).part = x.part ∧ (s.slice m).port.partner = none ∧ (s.slice m).port.linkUp = false
        ∧ (s.slice m).port.training = false
       ∀ up,
      (port.partner = none → port.bond = false → port' (.pcieLinkTraining n up) { port with linkUp := up, training := !up })
      ∧ (∀ m, port.partner = none → port.bond = true → bondPartner n port.dir = some m → ¬ can m →
          port' (.pcieLinkTraining n up) { port with linkUp := up, training := !up, bond := false, refused := true })
      ∧ (∀ m, port.partner = none → port.bond = true → bondPartner n port.dir = some m → can m → port' (.pcieLinkTraining n up) { port with linkUp := up, training := !up, partner := some m }
          ∧ does (.pcieLinkTraining n up) fun u => (u.slice m).port = { (s.slice m).port with linkUp := false, training := false, partner := some n })
      ∧ (∀ m, port.partner = some m → m < n → exec (.pcieLinkTraining n up) s = .next s)
      ∧ (∀ m, port.partner = some m → n < m → port.bond = false → port' (.pcieLinkTraining n up) { port with linkUp := up, training := !up, partner := none }
          ∧ does (.pcieLinkTraining n up) fun u => (u.slice m).port = { (s.slice m).port with partner := none }))
    ∧ (∀ (pin : Fin 4) (on : Bool), does (.intxMessage n pin on) fun u => u.mem = s.mem ∧ (u.slice n).aplic.level.getLsbD (pin.val + 1) = on
        ∧ ∀ b, b ≠ pin.val + 1 → (u.slice n).aplic.level.getLsbD b = x.aplic.level.getLsbD b)
    ∧ (∀ rid pasid addr data, port.linkUp = false ∨ port.busMaster = false → exec (.deviceWrite n rid pasid addr data) s = .next s
        ∧ exec (.deviceRead n rid pasid addr data.length) s = .next s ∧ ∀ w, exec (.deviceMsi n rid addr w) s = .next s)
    ∧ ∀ p rid (addr : DWord), x.part = some p → port.linkUp = true → port.busMaster = true →
      (∀ (pasid : Option (BitVec 20)) (k : HartKind) (len : Nat),
        (x.iommu.reg64 0x10 % 16 = 0 → s.way n p x.iommu.faultPlace ≠ .held → ∃ u, s.devTarget n p rid pasid k addr len = .stopped true u)
        ∧ (x.iommu.reg64 0x10 % 16 = 1 → s.violation p addr.toNat = none → s.way n p addr.toNat = .free → s.xenOf p = false → s.devTarget n p rid pasid k addr len = .at_ addr.toNat 0#12)
        ∧ (x.iommu.reg64 0x10 % 16 = 1 → s.violation p addr.toNat ≠ none → ∃ u, s.devTarget n p rid pasid k addr len = .stopped false u
            ∧ (u.slice n).fwHead = x.fwHead + 1#32 ∧ u.mem = s.mem))
      ∧ (∀ pasid data pa owner, 0 < data.length → data.length ≤ 512 → addr.toNat % 4096 + data.length ≤ 4096 → s.devTarget n p rid pasid .store addr data.length = .at_ pa owner →
        (s.partLaunches p pa data.length = [] → does (.deviceWrite n rid pasid addr data) fun u => u.readMem p pa data.length = data
          ∧ MemoryElsewhere s u p pa data.length ∧ (u.line p pa).owner = owner)
        ∧ (∀ i w, (i, w) ∈ s.partLaunches p pa data.length → ¬ (pa ≤ w ∧ w + 8 ≤ pa + data.length) →
            does (.deviceWrite n rid pasid addr data) fun u => u.mem = s.mem ∧ u.cores = s.cores))
      ∧ (∀ pasid len pa owner, 0 < len → addr.toNat % 4096 + len ≤ 4096 → s.devTarget n p rid pasid .load addr len = .at_ pa owner →
        ((∀ a, pa ≤ a → a < pa + len → (s.line p a).poison = false) →
          port' (.deviceRead n rid pasid addr len) { port with replies := port.replies ++ [⟨rid, 0, s.readMem p pa len⟩] })
        ∧ ((∃ a, pa ≤ a ∧ a < pa + len ∧ (s.line p a).poison = true) →
          port' (.deviceRead n rid pasid addr len) { port with replies := port.replies ++ [⟨rid, 1, s.readMem p pa len⟩] }))
      ∧ (∀ pasid len b u, 0 < len → addr.toNat % 4096 + len ≤ 4096 → s.devTarget n p rid pasid .load addr len = .stopped b u →
          exec (.deviceRead n rid pasid addr len) s
            = .next (u.modPort n fun q => { q with replies := q.replies ++ [⟨rid, if b then 3 else 2, []⟩] }))
      ∧ (∀ pasid data, data.length ≤ 512 → s.devTarget n p rid pasid .store addr data.length = .waits → exec (.deviceWrite n rid pasid addr data) s = .next s)
      ∧ (∀ pasid data, 512 < data.length → exec (.deviceWrite n rid pasid addr data) s = .next s)
      ∧ ∀ d gpa e (w : Word), addr.toNat % 4096 + 4 ≤ 4096 → s.devSpace n p rid none .store = .ok d → s.devFirst n p d .store addr.toNat = .ok (gpa, e) →
        (s.msiTarget n p d gpa = none → does (.deviceMsi n rid addr w) fun u => u.mem = s.mem ∧ (u.slice n).fwHead = x.fwHead + 1#32)
        ∧ ∀ pa m h f, s.msiTarget n p d gpa = some (.ok pa) → imsicTarget pa = some (m, h, f) → (s.slice m).part = some p → 0 < w.toNat → w.toNat ≤ 2047 →
          does (.deviceMsi n rid addr w) fun u => u.mem = s.mem ∧ u.cores = s.cores ∧ ∃ q, (u.hartOf ⟨m, h⟩).files.find f = some q ∧ w.toNat ∈ q.pending)

/-- Detected errors and spares. A retry that corrects counts in its counter, and sets LASTCE and ESUM.CE; an entry with parity alone is dropped, to be fetched again, and
disabled at its second error. A lasting error of HBM poisons its line,
counts for its channel and is recorded (0x80), as does a MAC that does not match under ATTR 10; a clean way of a bank is quarantined, up to four, and a dirty one brings the owner rule, which poisons and records 0x82; a
clean first-level line only leaves, and its way is disabled; a register, tile, granule or block ends the team that holds it (0x83) and marks the sub-partition or core; a link fails (0x86); a lane is
marked (0x84) for the spare, which it takes in the next turn, or recorded (0x88); a port's last completion is damaged and its link goes down; a hart is marked. A record without a place waits. SPARE_SWAP replaces a marked unit once its core holds
no team (R405-R413). Where the owner of a line stands, which records follow and in what order is in part the model's (assumption 107); so are
what an error site names (assumption 108), swaps and units without a spare (assumption 109), records without a place (assumption 110), parity
entries (assumption 132) and damaged completions (assumption 133). -/
def Obligations.ErrorsAndSpares : Prop :=
  (∀ (s : State) (e : ErrorSite) (f : Option Agent) (n : Nat), (s.siteOf e).1 = n →
    let x := s.slice n
    let ce (b : ErrBlock) (k : Nat) : Word := if k = 0 then b.ceHbm else if k = 1 then b.ceMsc else if k = 2 then b.ceCore else b.ceLink
    let hit := exec (.errorDetected e false f) s
    let logs (u : State) (cause : Byte) (a : Nat) := ∃ r ∈ (u.slice n).fault.buffer, r.cause = cause ∧ r.info = true ∧ r.address = BitVec.ofNat 64 a
    let roomy := x.fault.waiting = [] ∧ x.fault.used < 31 ∧ x.fault.qbase = 0#64
    (∀ p l b, e = .lineMac p l → (s.line p (l * 128)).attr ≠ 2#2 → exec (.errorDetected e b f) s = .next s)
    ∧ ((∀ c u i, e ≠ .parity c u i) → (∀ p l, e = .lineMac p l → (s.line p (l * 128)).attr = 2#2) → ∃ u, exec (.errorDetected e true f) s = .next u ∧ u.mem = s.mem ∧ u.cores = s.cores ∧ u.lines = s.lines
      ∧ (u.slice n).err.lastCe = BitVec.ofNat 64 (s.siteOf e).2.2 ∧ (u.slice n).err.esum = x.err.esum ||| 1#8
      ∧ ∀ k, k < 4 → ce (u.slice n).err k = if k = (s.siteOf e).2.1 ∧ ce x.err k ≠ 0xFFFF_FFFF#32 then ce x.err k + 1#32 else ce x.err k)
    ∧ (∀ c q i, e = .parity c q i → ∀ b, 
        let k := s.core c
        let key := (c % 16 * 64 + q) * 65536 + i
        let count := x.err.parity.get key 0 + 1
        ∃ u, exec (.errorDetected e b f) s = .next u ∧ u.mem = s.mem ∧ (∀ d, d ≠ c → u.core d = s.core d) ∧ (u.slice n).err.parity.get key 0 = count
        ∧ (u.core c).constCache.cells = (if q = 0 then k.constCache.cells.eraseIdx i else k.constCache.cells)
        ∧ (u.core c).genCache.cells = (if q = 1 then k.genCache.cells.eraseIdx i else k.genCache.cells)
        ∧ (u.core c).tlb = (if q = 2 then k.tlb.eraseIdx i else k.tlb)
        ∧ (∀ b, ((u.core c).sub b).tlb = if q = 3 + b then (k.sub b).tlb.eraseIdx i else (k.sub b).tlb)
        ∧ (u.core c).parityOff.get q 0 = k.parityOff.get q 0 + (if count = 2 then 1 else 0))
    ∧ (s.recordRoom n = false → holdsRecord e = true → hit = .next s)
    ∧ (roomy →
      (∀ p l, e = .hbmLine p l ∨ (e = .lineMac p l ∧ (s.line p (l * 128)).attr = 2#2) → ∃ u, hit = .next u ∧ (u.line p (l * 128)).poison = true ∧ logs u 0x80#8 (l * 128) ∧ (u.slice n).err.esum.getLsbD 1 = true
        ∧ u.mem = s.mem ∧ u.cores = s.cores
        ∧ (u.slice n).err.chErrs.get (homeBank (l * 128)) 0 = x.err.chErrs.get (homeBank (l * 128)) 0 + 1)
      ∧ (∀ p l way, e = .mscLine p l way false → way < 12 →
        let b := homeBank (l * 128)
        let q := x.err.qmap.get b 0#12
        ∃ u, hit = .next u ∧ u.mem = s.mem ∧ u.lines = s.lines ∧ u.cores = s.cores
          ∧ (q.getLsbD way = true → u = s)
          ∧ (q.getLsbD way = false → ((List.range 12).filter fun i => q.getLsbD i).length < 4 →
              (u.slice n).err.qmap.get b 0#12 = q ||| (1#12 <<< way) ∧ logs u 0x85#8 (l * 128))
          ∧ (q.getLsbD way = false → 4 ≤ ((List.range 12).filter fun i => q.getLsbD i).length → (u.slice n).err.qmap.get b 0#12 = q ∧ logs u 0x88#8 (l * 128)))
      ∧ (∀ p l way, e = .mscLine p l way true → (s.line p (l * 128)).owner = 0#12 → ∃ u, hit = .next u ∧ (u.line p (l * 128)).poison = true
        ∧ logs u 0x82#8 (l * 128) ∧ u.mem = s.mem ∧ u.cores = s.cores)
      ∧ (∀ c l y, e = .l1Line c l → (s.core c).l1.find l = some y → y.dirty = [] → ∃ u, hit = .next u ∧ (u.core c).l1.find l = none
        ∧ (u.slice n).err.waysOff.get c 0 = x.err.waysOff.get c 0 + 1
        ∧ ((s.core c).l1.cells.length ≤ 1 + (3072 - (x.err.waysOff.get c 0 + 1) * Config.l1WayLines) → u.mem = s.mem ∧ u.lines = s.lines)
        ∧ (s.cacheStuck c = false → (u.core c).l1.cells.length ≤ 3072 - (x.err.waysOff.get c 0 + 1) * Config.l1WayLines))
      ∧ (∀ c l y, e = .l1Line c l → (s.core c).l1.find l = some y → y.dirty ≠ [] → y.owner = 0#12 → ∃ u, hit = .next u ∧ (u.core c).l1.find l = none
        ∧ ((s.core c).l1.cells.length ≤ 1 + (3072 - (x.err.waysOff.get c 0 + 1) * Config.l1WayLines) → u.mem = s.mem) ∧ (u.line (s.partOf c) (l * 128)).poison = true ∧ logs u 0x82#8 (l * 128))
      ∧ (∀ c ctx t b i, e = .register c b i → ((s.core c).sub b).holdersOf i = [ctx] → s.team? c ctx = some t → ∃ u, hit = .next u ∧ logs u 0x83#8 0
        ∧ ∀ m, u.team? c ctx = some m → m.gen.run = .exited)
      ∧ (∀ c ctx t b i, e = .tile c b i → ((s.core c).sub b).tileOwner.find i = some ctx → s.team? c ctx = some t → ∃ u, hit = .next u ∧ logs u 0x83#8 0
        ∧ ∀ m, u.team? c ctx = some m → m.gen.run = .exited)
      ∧ (∀ c b i, (e = .register c b i ∧ ((s.core c).sub b).holdersOf i = []) ∨ (e = .tile c b i ∧ ((s.core c).sub b).tileOwner.find i = none) →
          (s.core c).spareUsed = false → (∀ z ∈ (s.core c).subs.vals, z.marked = false) → ∃ u, hit = .next u ∧ u.mem = s.mem ∧ logs u 0x83#8 0 ∧ logs u 0x84#8 0
            ∧ ((u.core c).sub b).marked = true ∧ (u.slice n).err.waitCore.getLsbD (c % 16) = true ∧ (u.slice n).err.esum.getLsbD 6 = true)
      ∧ (∀ c ctx t i, (e = .granule c i ∧ ((s.core c).granules.get i ⟨0, none⟩).ctx = some ctx) ∨ (e = .emitBlock c i ∧ (s.core c).blockHolders c i = [ctx]) →
          s.team? c ctx = some t → ∃ u, hit = .next u ∧ logs u 0x83#8 0 ∧ ∀ m, u.team? c ctx = some m → m.gen.run = .exited)
      ∧ (∀ c i, (e = .granule c i ∧ ((s.core c).granules.get i ⟨0, none⟩).ctx = none) ∨ (e = .emitBlock c i ∧ (s.core c).blockHolders c i = []) →
          (s.core c).marked = false → (s.core c).retired = false → ∃ u, hit = .next u ∧ u.mem = s.mem ∧ logs u 0x83#8 0
            ∧ (x.err.spCore = 0 → (u.core c).retired = true ∧ logs u 0x88#8 0)
            ∧ ((∀ i, i < 16 → (s.core (16 * n + i)).marked = false) → 0 < x.err.spCore → (u.core c).marked = true ∧ logs u 0x84#8 0))
      ∧ (∀ d, e = .meshLink n d → ∃ u, hit = .next u ∧ u.mem = s.mem ∧ u.cores = s.cores ∧ (u.slice n).err.links = x.err.links ||| (1#4 <<< d.val)
        ∧ logs u 0x86#8 0)
      ∧ (e = .ethernet n → ∃ u, hit = .next u ∧ u.mem = s.mem ∧ u.cores = s.cores
        ∧ (0 < x.err.spLane → (u.slice n).net = { x.net with laneMarked := true } ∧ u.agenda = .lane n :: s.agenda ∧ logs u 0x84#8 0)
        ∧ (x.err.spLane = 0 → (u.slice n).net = x.net ∧ logs u 0x88#8 0))
      ∧ (∀ h l, e = .hartCache h l false → ∃ u, hit = .next u ∧ u.mem = s.mem ∧ u.cores = s.cores
        ∧ (0 < x.err.spHart → x.err.waitHart = 0#4 → h.hart < 4 → (u.slice n).err.waitHart = 1#4 <<< h.hart ∧ logs u 0x84#8 0)))
    ∧ (e = .pcie n →
        let damage (abort : Bool) (y : DevReply) : DevReply := if abort then { y with status := 2, data := [] } else { y with status := 1 }
        ∃ u, hit = .next u ∧ u.mem = s.mem ∧ u.cores = s.cores ∧ ∃ abort, (u.slice n).port =
          { x.port with linkUp := false, replies := x.port.replies.dropLast ++ x.port.replies.getLast?.toList.map (damage abort) }))
  ∧ ∀ (s : State) (c b n : Nat),
    let k := s.core c
    let slice := sliceOf c
    ((k.sub b).marked = true → k.teams.cells = [] → k.spareUsed = false → ∃ u, exec (.spareSwap (.subPartition c b)) s = .next u ∧ u.mem = s.mem
      ∧ (u.core c).sub b = Sub.reset ∧ (u.core c).spareUsed = true ∧ (u.core c).parityOff.get (3 + b) 0 = 0 ∧ ∀ j, j ≠ b → (u.core c).sub j = k.sub j)
    ∧ ((k.sub b).marked = false ∨ k.teams.cells ≠ [] ∨ k.spareUsed = true → exec (.spareSwap (.subPartition c b)) s = .next s)
    ∧ (k.marked = true → k.teams.cells = [] → 0 < (s.slice slice).err.spCore → ∃ u, exec (.spareSwap (.core c)) s = .next u ∧ u.mem = s.mem
      ∧ (u.core c).marked = false ∧ (u.slice slice).err.spCore = (s.slice slice).err.spCore - 1 ∧ (u.core c).scratch = .empty ∧ (u.core c).store = .empty
      ∧ (u.core c).constCache = .empty ∧ (u.core c).genCache = .empty ∧ (u.core c).l1 = .empty ∧ (u.core c).tlb = [] ∧ (u.core c).parityOff = .empty
      ∧ (u.core c).sysvec = k.sysvec ∧ (u.core c).clock = k.clock ∧ (∀ j, (u.core c).sub j = Sub.reset) ∧ (u.slice slice).err.waitCore.getLsbD (c % 16) = false)
    ∧ (k.marked = false ∨ k.teams.cells ≠ [] ∨ (s.slice slice).err.spCore = 0 → exec (.spareSwap (.core c)) s = .next s)
    ∧ ((s.slice n).net.laneMarked = true → 0 < (s.slice n).err.spLane → ∃ u, exec (.spareSwap (.lane n)) s = .next u ∧ u.mem = s.mem ∧ (u.slice n).net.spare = true
      ∧ (u.slice n).net.laneMarked = false ∧ (u.slice n).err.spLane = (s.slice n).err.spLane - 1)
    ∧ ((s.slice n).net.laneMarked = false ∨ (s.slice n).err.spLane = 0 → exec (.spareSwap (.lane n)) s = .next s)
end

