-- ==== Sys2Proof/Laws/Memory.lean ====
section
/-!
SUPPORT. The laws of the home banks' bytes (R2, R235): a byte written is the byte read and every other byte stays, and every
operation that changes memory keeps the canonical form.
-/

namespace Sys2Proof.Machine

/-- The canonical form, said over the whole list: addresses strictly rising, no entry equal to the default. -/
theorem Memory.wf_iff (m : List Host.Cell) :
    Memory.wf m = true ↔ m.Pairwise (fun p q => p.1 < q.1) ∧ ∀ p ∈ m, p.2 ≠ memDefault := by
  induction m with
  | nil => simp [Memory.wf]
  | cons p r ih =>
    obtain ⟨a, v⟩ := p
    cases r with
    | nil => simp [Memory.wf]
    | cons q r =>
      obtain ⟨b, w⟩ := q
      simp only [Memory.wf, Bool.and_eq_true, bne_iff_ne, decide_eq_true_eq, ih]
      simp only [List.pairwise_cons, List.mem_cons, forall_eq_or_imp]
      constructor
      · rintro ⟨⟨hv, hab⟩, ⟨hb, hr⟩, hw, hrest⟩
        exact ⟨⟨⟨hab, fun x hx => lt_trans hab (hb x hx)⟩, hb, hr⟩, hv, hw, hrest⟩
      · rintro ⟨⟨⟨hab, -⟩, hb, hr⟩, hv, hw, hrest⟩
        exact ⟨⟨hv, hab⟩, ⟨hb, hr⟩, hw, hrest⟩

@[simp] theorem Memory.wf_nil : Memory.wf [] = true := rfl

theorem memWrite_mem {m : List Host.Cell} {k : Nat} {v : Byte} {p : Host.Cell} (h : p ∈ memWrite m k v) :
    p ∈ m ∨ (p = (k, v) ∧ v ≠ memDefault) := by
  induction m with
  | nil =>
    simp only [memWrite] at h
    split at h <;> simp_all
  | cons q r ih =>
    obtain ⟨a, b⟩ := q
    simp only [memWrite] at h
    split at h
    · split at h <;> simp_all
      rcases h with h | h | h <;> simp_all
    · split at h
      · split at h <;> simp_all
        rcases h with h | h <;> simp_all
      · simp only [List.mem_cons] at h ⊢
        rcases h with h | h
        · exact .inl (.inl h)
        · rcases ih h with h | h
          · exact .inl (.inr h)
          · exact .inr h

/-- Writing a byte keeps the canonical form. -/
theorem Memory.wf_write {m : List Host.Cell} (h : Memory.wf m = true) (k : Nat) (v : Byte) :
    Memory.wf (memWrite m k v) = true := by
  rw [Memory.wf_iff] at h ⊢
  obtain ⟨hp, hd⟩ := h
  constructor
  · clear hd
    induction m with
    | nil => simp only [memWrite]; split <;> simp
    | cons q r ih =>
      obtain ⟨a, b⟩ := q
      rw [List.pairwise_cons] at hp
      obtain ⟨h1, h2⟩ := hp
      simp only [memWrite]
      split
      · rename_i hk
        split
        · exact List.pairwise_cons.2 ⟨h1, h2⟩
        · refine List.pairwise_cons.2 ⟨?_, List.pairwise_cons.2 ⟨h1, h2⟩⟩
          intro x hx
          rcases List.mem_cons.1 hx with rfl | hx
          · exact hk
          · exact lt_trans hk (h1 x hx)
      · split
        · rename_i hk
          subst hk
          split
          · exact h2
          · exact List.pairwise_cons.2 ⟨h1, h2⟩
        · rename_i hk hne
          refine List.pairwise_cons.2 ⟨?_, ih h2⟩
          intro x hx
          rcases memWrite_mem hx with hx | ⟨rfl, -⟩
          · exact h1 x hx
          · show a < k
            omega
  · intro p hpm
    rcases memWrite_mem hpm with hm | ⟨rfl, hv⟩
    · exact hd p hm
    · exact hv

/-- Writing bytes in a row keeps the canonical form. -/
theorem Memory.wf_writeBytes {m : List Host.Cell} (h : Memory.wf m = true) (k : Nat) (bs : List Byte) :
    Memory.wf (memWriteBytes m k bs) = true := by
  induction bs generalizing m k with
  | nil => exact h
  | cons b bs ih => exact ih (Memory.wf_write h k b) (k + 1)

/-- Writing bytes by offset keeps the canonical form. -/
theorem Memory.wf_put {m : List Host.Cell} (h : Memory.wf m = true) (base : Nat) (cells : List (Nat × Byte)) :
    Memory.wf (memPut m base cells) = true := by
  unfold memPut
  induction cells generalizing m with
  | nil => exact h
  | cons c cs ih => exact ih (Memory.wf_write h _ _)

/-- Keeping some of the entries keeps the canonical form. -/
theorem Memory.wf_filter {m : List Host.Cell} (h : Memory.wf m = true) (p : Host.Cell → Bool) :
    Memory.wf (m.filter p) = true := by
  rw [Memory.wf_iff] at h ⊢
  exact ⟨h.1.filter p, fun q hq => h.2 q (List.mem_filter.1 hq).1⟩

theorem State.writeMem_wf {s : State} (h : Memory.wf s.mem = true) (part pa : Nat) (bs : List Byte) :
    Memory.wf (s.writeMem part pa bs).mem = true := Memory.wf_writeBytes h _ bs

theorem State.bankWrite_wf {s : State} (h : Memory.wf s.mem = true) (part line : Nat) (cells : List (Nat × Byte))
    (owner : BitVec 12) : Memory.wf (s.bankWrite part line cells owner).mem = true := by
  unfold State.bankWrite
  split
  · exact h
  · exact Memory.wf_put h _ cells

theorem State.clearRange_wf {s : State} (h : Memory.wf s.mem = true) (part pa n : Nat) :
    Memory.wf (s.clearRange part pa n).mem = true := Memory.wf_filter h _

/-! ### Reading after writing -/

theorem memRead_of_lt {m : List Host.Cell} {k : Nat} (h : ∀ p ∈ m, k < p.1) : memRead m k = memDefault := by
  cases m with
  | nil => rfl
  | cons q r =>
    obtain ⟨a, b⟩ := q
    have : k < a := h (a, b) (by simp)
    simp [memRead, Nat.ne_of_lt this, this]

/-- A byte written is the byte read. -/
theorem memRead_memWrite_self {m : List Host.Cell} (h : Memory.wf m = true) (k : Nat) (v : Byte) :
    memRead (memWrite m k v) k = v := by
  rw [Memory.wf_iff] at h
  obtain ⟨hp, -⟩ := h
  induction m with
  | nil =>
    simp only [memWrite]
    split <;> simp_all [memRead]
  | cons q r ih =>
    obtain ⟨a, b⟩ := q
    rw [List.pairwise_cons] at hp
    simp only [memWrite]
    split
    · rename_i hk
      split
      · rename_i hv
        simp [memRead, Nat.ne_of_lt hk, hk, hv]
      · simp [memRead]
    · split
      · rename_i hk
        subst hk
        split
        · rename_i hv
          rw [hv]
          exact memRead_of_lt fun p hpm => hp.1 p hpm
        · simp [memRead]
      · rename_i hk hne
        simp only [memRead, if_neg hne, if_neg hk]
        exact ih hp.2

/-- Writing one byte leaves every other byte as it was. -/
theorem memRead_memWrite_ne {m : List Host.Cell} (h : Memory.wf m = true) {j k : Nat} (hjk : j ≠ k) (v : Byte) :
    memRead (memWrite m k v) j = memRead m j := by
  rw [Memory.wf_iff] at h
  obtain ⟨hp, -⟩ := h
  induction m with
  | nil =>
    simp only [memWrite]
    split
    · rfl
    · simp [memRead, hjk]
  | cons q r ih =>
    obtain ⟨a, b⟩ := q
    rw [List.pairwise_cons] at hp
    simp only [memWrite]
    split
    · rename_i hk
      split
      · rfl
      · simp only [memRead, if_neg hjk]
        by_cases h1 : j < k
        · have h2 : j ≠ a := by omega
          have h3 : j < a := by omega
          simp [h1, h2, h3]
        · simp [h1]
    · split
      · rename_i hk
        subst hk
        split
        · simp only [memRead, if_neg hjk]
          split
          · rename_i hja
            exact memRead_of_lt fun p hpm => lt_trans hja (hp.1 p hpm)
          · rfl
        · simp [memRead, hjk]
      · simp only [memRead]
        rw [ih hp.2]

/-- Bytes outside the written ones stay. -/
theorem memRead_memWriteBytes_out {m : List Host.Cell} (h : Memory.wf m = true) {j k : Nat} {bs : List Byte}
    (hj : j < k ∨ k + bs.length ≤ j) : memRead (memWriteBytes m k bs) j = memRead m j := by
  induction bs generalizing m k with
  | nil => rfl
  | cons b bs ih =>
    simp only [memWriteBytes]
    simp only [List.length_cons] at hj
    rw [ih (Memory.wf_write h k b) (by omega), memRead_memWrite_ne h (by omega)]

/-- Each written byte is the byte read. -/
theorem memRead_memWriteBytes_in {m : List Host.Cell} (h : Memory.wf m = true) {k i : Nat} {bs : List Byte}
    (hi : i < bs.length) : memRead (memWriteBytes m k bs) (k + i) = bs[i] := by
  induction bs generalizing m k i with
  | nil => simp at hi
  | cons b bs ih =>
    cases i with
    | zero =>
      simp only [memWriteBytes, Nat.add_zero, List.getElem_cons_zero]
      rw [memRead_memWriteBytes_out (Memory.wf_write h k b) (by omega), memRead_memWrite_self h]
    | succ i =>
      simp only [memWriteBytes, List.getElem_cons_succ]
      rw [show k + (i + 1) = k + 1 + i by omega]
      exact ih (Memory.wf_write h k b) (by simpa using hi)

end Sys2Proof.Machine
end

