-- ==== Sys2Proof/Laws/Map.lean ====
section
/-!
SUPPORT. The laws of numbered entries: what a map finds after an entry is set or erased.
-/

namespace Sys2Proof.Machine.SMap

variable {α : Type}

theorem findIn_setIn_self (k : Nat) (a : α) (l : List (Nat × α)) : findIn k (setIn k a l) = some a := by
  induction l with
  | nil => simp [setIn, findIn]
  | cons p r ih =>
    obtain ⟨i, b⟩ := p
    simp only [setIn]
    split
    · simp [findIn]
    · split
      · simp [findIn]
      · rename_i h
        simp [findIn, Ne.symm h, ih]

theorem findIn_setIn_ne {j k : Nat} (h : j ≠ k) (a : α) (l : List (Nat × α)) : findIn j (setIn k a l) = findIn j l := by
  induction l with
  | nil => simp [setIn, findIn, Ne.symm h]
  | cons p r ih =>
    obtain ⟨i, b⟩ := p
    simp only [setIn]
    split
    · simp [findIn, Ne.symm h]
    · split
      · rename_i e
        subst e
        simp [findIn, Ne.symm h]
      · simp [findIn, ih]

/-- A number that was set is found with what was set. -/
@[simp] theorem find_set_self (m : SMap α) (k : Nat) (a : α) : (m.set k a).find k = some a := findIn_setIn_self k a m.cells

/-- Setting one number leaves every other as it was. -/
theorem find_set_ne (m : SMap α) {j k : Nat} (h : j ≠ k) (a : α) : (m.set k a).find j = m.find j :=
  findIn_setIn_ne h a m.cells

theorem find_set (m : SMap α) (j k : Nat) (a : α) : (m.set k a).find j = if j = k then some a else m.find j := by
  by_cases h : j = k
  · subst h; simp
  · simp [h, find_set_ne m h]

@[simp] theorem get_set_self (m : SMap α) (k : Nat) (a d : α) : (m.set k a).get k d = a := by simp [get]

theorem get_set_ne (m : SMap α) {j k : Nat} (h : j ≠ k) (a d : α) : (m.set k a).get j d = m.get j d := by
  simp [get, find_set_ne m h]

theorem get_set (m : SMap α) (j k : Nat) (a d : α) : (m.set k a).get j d = if j = k then a else m.get j d := by
  by_cases h : j = k
  · subst h; simp
  · simp [h, get_set_ne m h]

@[simp] theorem find_empty (k : Nat) : (empty : SMap α).find k = none := rfl
@[simp] theorem get_empty (k : Nat) (d : α) : (empty : SMap α).get k d = d := rfl

/-- Erasing one number leaves every other as it was. -/
theorem find_erase_ne (m : SMap α) {j k : Nat} (h : j ≠ k) : (m.erase k).find j = m.find j := by
  obtain ⟨l⟩ := m
  simp only [find, erase]
  induction l with
  | nil => rfl
  | cons p r ih =>
    obtain ⟨i, b⟩ := p
    by_cases e : i = k
    · subst e
      simpa [findIn, h.symm] using ih
    · by_cases e2 : i = j
      · simp [findIn, e2, h]
      · simpa [findIn, e, e2] using ih

/-- A number that was erased is not found. -/
@[simp] theorem find_erase_self (m : SMap α) (k : Nat) : (m.erase k).find k = none := by
  obtain ⟨l⟩ := m
  simp only [find, erase]
  induction l with
  | nil => rfl
  | cons p r ih =>
    obtain ⟨i, b⟩ := p
    by_cases e : i = k
    · simpa [e] using ih
    · simpa [findIn, e] using ih

end Sys2Proof.Machine.SMap
end

