-- ==== Sys2Proof/Laws/State.lean ====
section
/-!
SUPPORT. What each update of the state leaves: one lemma per field per update, true by the form of the update.
-/

namespace Sys2Proof.Machine.State

@[simp] theorem setCore_agenda (s : State) (c : Nat) (k : Core) : (s.setCore c k).agenda = s.agenda := rfl
@[simp] theorem setCore_cur (s : State) (c : Nat) (k : Core) : (s.setCore c k).cur = s.cur := rfl
@[simp] theorem setCore_freeCtr (s : State) (c : Nat) (k : Core) : (s.setCore c k).freeCtr = s.freeCtr := rfl
@[simp] theorem setCore_bodies (s : State) (c : Nat) (k : Core) : (s.setCore c k).bodies = s.bodies := rfl
@[simp] theorem setCore_mem (s : State) (c : Nat) (k : Core) : (s.setCore c k).mem = s.mem := rfl
@[simp] theorem setCore_lines (s : State) (c : Nat) (k : Core) : (s.setCore c k).lines = s.lines := rfl
@[simp] theorem setCore_pins (s : State) (c : Nat) (k : Core) : (s.setCore c k).pins = s.pins := rfl
@[simp] theorem setCore_cells (s : State) (c : Nat) (k : Core) : (s.setCore c k).cells = s.cells := rfl
@[simp] theorem setCore_clusters (s : State) (c : Nat) (k : Core) : (s.setCore c k).clusters = s.clusters := rfl
@[simp] theorem setCore_slices (s : State) (c : Nat) (k : Core) : (s.setCore c k).slices = s.slices := rfl
@[simp] theorem setCore_parts (s : State) (c : Nat) (k : Core) : (s.setCore c k).parts = s.parts := rfl
@[simp] theorem setCore_markhor (s : State) (c : Nat) (k : Core) : (s.setCore c k).markhor = s.markhor := rfl

@[simp] theorem modCore_agenda (s : State) (c : Nat) (f : Core → Core) : (s.modCore c f).agenda = s.agenda := rfl
@[simp] theorem modCore_cur (s : State) (c : Nat) (f : Core → Core) : (s.modCore c f).cur = s.cur := rfl
@[simp] theorem modCore_freeCtr (s : State) (c : Nat) (f : Core → Core) : (s.modCore c f).freeCtr = s.freeCtr := rfl
@[simp] theorem modCore_bodies (s : State) (c : Nat) (f : Core → Core) : (s.modCore c f).bodies = s.bodies := rfl
@[simp] theorem modCore_mem (s : State) (c : Nat) (f : Core → Core) : (s.modCore c f).mem = s.mem := rfl
@[simp] theorem modCore_lines (s : State) (c : Nat) (f : Core → Core) : (s.modCore c f).lines = s.lines := rfl
@[simp] theorem modCore_pins (s : State) (c : Nat) (f : Core → Core) : (s.modCore c f).pins = s.pins := rfl
@[simp] theorem modCore_cells (s : State) (c : Nat) (f : Core → Core) : (s.modCore c f).cells = s.cells := rfl
@[simp] theorem modCore_clusters (s : State) (c : Nat) (f : Core → Core) : (s.modCore c f).clusters = s.clusters := rfl
@[simp] theorem modCore_slices (s : State) (c : Nat) (f : Core → Core) : (s.modCore c f).slices = s.slices := rfl
@[simp] theorem modCore_parts (s : State) (c : Nat) (f : Core → Core) : (s.modCore c f).parts = s.parts := rfl
@[simp] theorem modCore_markhor (s : State) (c : Nat) (f : Core → Core) : (s.modCore c f).markhor = s.markhor := rfl

@[simp] theorem setSlice_agenda (s : State) (n : Nat) (x : Slice) : (s.setSlice n x).agenda = s.agenda := rfl
@[simp] theorem setSlice_cur (s : State) (n : Nat) (x : Slice) : (s.setSlice n x).cur = s.cur := rfl
@[simp] theorem setSlice_freeCtr (s : State) (n : Nat) (x : Slice) : (s.setSlice n x).freeCtr = s.freeCtr := rfl
@[simp] theorem setSlice_bodies (s : State) (n : Nat) (x : Slice) : (s.setSlice n x).bodies = s.bodies := rfl
@[simp] theorem setSlice_mem (s : State) (n : Nat) (x : Slice) : (s.setSlice n x).mem = s.mem := rfl
@[simp] theorem setSlice_lines (s : State) (n : Nat) (x : Slice) : (s.setSlice n x).lines = s.lines := rfl
@[simp] theorem setSlice_pins (s : State) (n : Nat) (x : Slice) : (s.setSlice n x).pins = s.pins := rfl
@[simp] theorem setSlice_cells (s : State) (n : Nat) (x : Slice) : (s.setSlice n x).cells = s.cells := rfl
@[simp] theorem setSlice_clusters (s : State) (n : Nat) (x : Slice) : (s.setSlice n x).clusters = s.clusters := rfl
@[simp] theorem setSlice_cores (s : State) (n : Nat) (x : Slice) : (s.setSlice n x).cores = s.cores := rfl
@[simp] theorem setSlice_parts (s : State) (n : Nat) (x : Slice) : (s.setSlice n x).parts = s.parts := rfl
@[simp] theorem setSlice_markhor (s : State) (n : Nat) (x : Slice) : (s.setSlice n x).markhor = s.markhor := rfl

@[simp] theorem modSlice_agenda (s : State) (n : Nat) (f : Slice → Slice) : (s.modSlice n f).agenda = s.agenda := rfl
@[simp] theorem modSlice_cur (s : State) (n : Nat) (f : Slice → Slice) : (s.modSlice n f).cur = s.cur := rfl
@[simp] theorem modSlice_freeCtr (s : State) (n : Nat) (f : Slice → Slice) : (s.modSlice n f).freeCtr = s.freeCtr := rfl
@[simp] theorem modSlice_bodies (s : State) (n : Nat) (f : Slice → Slice) : (s.modSlice n f).bodies = s.bodies := rfl
@[simp] theorem modSlice_mem (s : State) (n : Nat) (f : Slice → Slice) : (s.modSlice n f).mem = s.mem := rfl
@[simp] theorem modSlice_lines (s : State) (n : Nat) (f : Slice → Slice) : (s.modSlice n f).lines = s.lines := rfl
@[simp] theorem modSlice_pins (s : State) (n : Nat) (f : Slice → Slice) : (s.modSlice n f).pins = s.pins := rfl
@[simp] theorem modSlice_cells (s : State) (n : Nat) (f : Slice → Slice) : (s.modSlice n f).cells = s.cells := rfl
@[simp] theorem modSlice_clusters (s : State) (n : Nat) (f : Slice → Slice) : (s.modSlice n f).clusters = s.clusters := rfl
@[simp] theorem modSlice_cores (s : State) (n : Nat) (f : Slice → Slice) : (s.modSlice n f).cores = s.cores := rfl
@[simp] theorem modSlice_parts (s : State) (n : Nat) (f : Slice → Slice) : (s.modSlice n f).parts = s.parts := rfl
@[simp] theorem modSlice_markhor (s : State) (n : Nat) (f : Slice → Slice) : (s.modSlice n f).markhor = s.markhor := rfl

@[simp] theorem setPart_agenda (s : State) (p : Nat) (x : Part) : (s.setPart p x).agenda = s.agenda := rfl
@[simp] theorem setPart_cur (s : State) (p : Nat) (x : Part) : (s.setPart p x).cur = s.cur := rfl
@[simp] theorem setPart_freeCtr (s : State) (p : Nat) (x : Part) : (s.setPart p x).freeCtr = s.freeCtr := rfl
@[simp] theorem setPart_bodies (s : State) (p : Nat) (x : Part) : (s.setPart p x).bodies = s.bodies := rfl
@[simp] theorem setPart_mem (s : State) (p : Nat) (x : Part) : (s.setPart p x).mem = s.mem := rfl
@[simp] theorem setPart_lines (s : State) (p : Nat) (x : Part) : (s.setPart p x).lines = s.lines := rfl
@[simp] theorem setPart_pins (s : State) (p : Nat) (x : Part) : (s.setPart p x).pins = s.pins := rfl
@[simp] theorem setPart_cells (s : State) (p : Nat) (x : Part) : (s.setPart p x).cells = s.cells := rfl
@[simp] theorem setPart_clusters (s : State) (p : Nat) (x : Part) : (s.setPart p x).clusters = s.clusters := rfl
@[simp] theorem setPart_cores (s : State) (p : Nat) (x : Part) : (s.setPart p x).cores = s.cores := rfl
@[simp] theorem setPart_slices (s : State) (p : Nat) (x : Part) : (s.setPart p x).slices = s.slices := rfl
@[simp] theorem setPart_markhor (s : State) (p : Nat) (x : Part) : (s.setPart p x).markhor = s.markhor := rfl

@[simp] theorem modSub_agenda (s : State) (c i : Nat) (f : Sub → Sub) : (s.modSub c i f).agenda = s.agenda := rfl
@[simp] theorem modSub_cur (s : State) (c i : Nat) (f : Sub → Sub) : (s.modSub c i f).cur = s.cur := rfl
@[simp] theorem modSub_freeCtr (s : State) (c i : Nat) (f : Sub → Sub) : (s.modSub c i f).freeCtr = s.freeCtr := rfl
@[simp] theorem modSub_bodies (s : State) (c i : Nat) (f : Sub → Sub) : (s.modSub c i f).bodies = s.bodies := rfl
@[simp] theorem modSub_mem (s : State) (c i : Nat) (f : Sub → Sub) : (s.modSub c i f).mem = s.mem := rfl
@[simp] theorem modSub_lines (s : State) (c i : Nat) (f : Sub → Sub) : (s.modSub c i f).lines = s.lines := rfl
@[simp] theorem modSub_pins (s : State) (c i : Nat) (f : Sub → Sub) : (s.modSub c i f).pins = s.pins := rfl
@[simp] theorem modSub_cells (s : State) (c i : Nat) (f : Sub → Sub) : (s.modSub c i f).cells = s.cells := rfl
@[simp] theorem modSub_clusters (s : State) (c i : Nat) (f : Sub → Sub) : (s.modSub c i f).clusters = s.clusters := rfl
@[simp] theorem modSub_slices (s : State) (c i : Nat) (f : Sub → Sub) : (s.modSub c i f).slices = s.slices := rfl
@[simp] theorem modSub_parts (s : State) (c i : Nat) (f : Sub → Sub) : (s.modSub c i f).parts = s.parts := rfl
@[simp] theorem modSub_markhor (s : State) (c i : Nat) (f : Sub → Sub) : (s.modSub c i f).markhor = s.markhor := rfl

@[simp] theorem modTeam_agenda (s : State) (c i : Nat) (f : Team → Team) : (s.modTeam c i f).agenda = s.agenda := rfl
@[simp] theorem modTeam_cur (s : State) (c i : Nat) (f : Team → Team) : (s.modTeam c i f).cur = s.cur := rfl
@[simp] theorem modTeam_freeCtr (s : State) (c i : Nat) (f : Team → Team) : (s.modTeam c i f).freeCtr = s.freeCtr := rfl
@[simp] theorem modTeam_bodies (s : State) (c i : Nat) (f : Team → Team) : (s.modTeam c i f).bodies = s.bodies := rfl
@[simp] theorem modTeam_mem (s : State) (c i : Nat) (f : Team → Team) : (s.modTeam c i f).mem = s.mem := rfl
@[simp] theorem modTeam_lines (s : State) (c i : Nat) (f : Team → Team) : (s.modTeam c i f).lines = s.lines := rfl
@[simp] theorem modTeam_pins (s : State) (c i : Nat) (f : Team → Team) : (s.modTeam c i f).pins = s.pins := rfl
@[simp] theorem modTeam_cells (s : State) (c i : Nat) (f : Team → Team) : (s.modTeam c i f).cells = s.cells := rfl
@[simp] theorem modTeam_clusters (s : State) (c i : Nat) (f : Team → Team) : (s.modTeam c i f).clusters = s.clusters := rfl
@[simp] theorem modTeam_slices (s : State) (c i : Nat) (f : Team → Team) : (s.modTeam c i f).slices = s.slices := rfl
@[simp] theorem modTeam_parts (s : State) (c i : Nat) (f : Team → Team) : (s.modTeam c i f).parts = s.parts := rfl
@[simp] theorem modTeam_markhor (s : State) (c i : Nat) (f : Team → Team) : (s.modTeam c i f).markhor = s.markhor := rfl

@[simp] theorem modSlot_agenda (s : State) (g : GroupRef) (f : Slot → Slot) : (s.modSlot g f).agenda = s.agenda := rfl
@[simp] theorem modSlot_cur (s : State) (g : GroupRef) (f : Slot → Slot) : (s.modSlot g f).cur = s.cur := rfl
@[simp] theorem modSlot_freeCtr (s : State) (g : GroupRef) (f : Slot → Slot) : (s.modSlot g f).freeCtr = s.freeCtr := rfl
@[simp] theorem modSlot_bodies (s : State) (g : GroupRef) (f : Slot → Slot) : (s.modSlot g f).bodies = s.bodies := rfl
@[simp] theorem modSlot_mem (s : State) (g : GroupRef) (f : Slot → Slot) : (s.modSlot g f).mem = s.mem := rfl
@[simp] theorem modSlot_lines (s : State) (g : GroupRef) (f : Slot → Slot) : (s.modSlot g f).lines = s.lines := rfl
@[simp] theorem modSlot_pins (s : State) (g : GroupRef) (f : Slot → Slot) : (s.modSlot g f).pins = s.pins := rfl
@[simp] theorem modSlot_cells (s : State) (g : GroupRef) (f : Slot → Slot) : (s.modSlot g f).cells = s.cells := rfl
@[simp] theorem modSlot_clusters (s : State) (g : GroupRef) (f : Slot → Slot) : (s.modSlot g f).clusters = s.clusters := rfl
@[simp] theorem modSlot_slices (s : State) (g : GroupRef) (f : Slot → Slot) : (s.modSlot g f).slices = s.slices := rfl
@[simp] theorem modSlot_parts (s : State) (g : GroupRef) (f : Slot → Slot) : (s.modSlot g f).parts = s.parts := rfl
@[simp] theorem modSlot_markhor (s : State) (g : GroupRef) (f : Slot → Slot) : (s.modSlot g f).markhor = s.markhor := rfl

@[simp] theorem modFibre_agenda (s : State) (g : GroupRef) (f : Fibre → Fibre) : (s.modFibre g f).agenda = s.agenda := rfl
@[simp] theorem modFibre_cur (s : State) (g : GroupRef) (f : Fibre → Fibre) : (s.modFibre g f).cur = s.cur := rfl
@[simp] theorem modFibre_freeCtr (s : State) (g : GroupRef) (f : Fibre → Fibre) : (s.modFibre g f).freeCtr = s.freeCtr := rfl
@[simp] theorem modFibre_bodies (s : State) (g : GroupRef) (f : Fibre → Fibre) : (s.modFibre g f).bodies = s.bodies := rfl
@[simp] theorem modFibre_mem (s : State) (g : GroupRef) (f : Fibre → Fibre) : (s.modFibre g f).mem = s.mem := rfl
@[simp] theorem modFibre_lines (s : State) (g : GroupRef) (f : Fibre → Fibre) : (s.modFibre g f).lines = s.lines := rfl
@[simp] theorem modFibre_pins (s : State) (g : GroupRef) (f : Fibre → Fibre) : (s.modFibre g f).pins = s.pins := rfl
@[simp] theorem modFibre_cells (s : State) (g : GroupRef) (f : Fibre → Fibre) : (s.modFibre g f).cells = s.cells := rfl
@[simp] theorem modFibre_clusters (s : State) (g : GroupRef) (f : Fibre → Fibre) : (s.modFibre g f).clusters = s.clusters := rfl
@[simp] theorem modFibre_slices (s : State) (g : GroupRef) (f : Fibre → Fibre) : (s.modFibre g f).slices = s.slices := rfl
@[simp] theorem modFibre_parts (s : State) (g : GroupRef) (f : Fibre → Fibre) : (s.modFibre g f).parts = s.parts := rfl
@[simp] theorem modFibre_markhor (s : State) (g : GroupRef) (f : Fibre → Fibre) : (s.modFibre g f).markhor = s.markhor := rfl

@[simp] theorem modHart_agenda (s : State) (h : HartRef) (f : Hart → Hart) : (s.modHart h f).agenda = s.agenda := rfl
@[simp] theorem modHart_cur (s : State) (h : HartRef) (f : Hart → Hart) : (s.modHart h f).cur = s.cur := rfl
@[simp] theorem modHart_freeCtr (s : State) (h : HartRef) (f : Hart → Hart) : (s.modHart h f).freeCtr = s.freeCtr := rfl
@[simp] theorem modHart_bodies (s : State) (h : HartRef) (f : Hart → Hart) : (s.modHart h f).bodies = s.bodies := rfl
@[simp] theorem modHart_mem (s : State) (h : HartRef) (f : Hart → Hart) : (s.modHart h f).mem = s.mem := rfl
@[simp] theorem modHart_lines (s : State) (h : HartRef) (f : Hart → Hart) : (s.modHart h f).lines = s.lines := rfl
@[simp] theorem modHart_pins (s : State) (h : HartRef) (f : Hart → Hart) : (s.modHart h f).pins = s.pins := rfl
@[simp] theorem modHart_cells (s : State) (h : HartRef) (f : Hart → Hart) : (s.modHart h f).cells = s.cells := rfl
@[simp] theorem modHart_clusters (s : State) (h : HartRef) (f : Hart → Hart) : (s.modHart h f).clusters = s.clusters := rfl
@[simp] theorem modHart_cores (s : State) (h : HartRef) (f : Hart → Hart) : (s.modHart h f).cores = s.cores := rfl
@[simp] theorem modHart_parts (s : State) (h : HartRef) (f : Hart → Hart) : (s.modHart h f).parts = s.parts := rfl
@[simp] theorem modHart_markhor (s : State) (h : HartRef) (f : Hart → Hart) : (s.modHart h f).markhor = s.markhor := rfl

@[simp] theorem hartTrap_agenda (s : State) (h : HartRef) (c : Nat) (v : DWord) : (s.hartTrap h c v).agenda = s.agenda := rfl
@[simp] theorem hartTrap_cur (s : State) (h : HartRef) (c : Nat) (v : DWord) : (s.hartTrap h c v).cur = s.cur := rfl
@[simp] theorem hartTrap_freeCtr (s : State) (h : HartRef) (c : Nat) (v : DWord) : (s.hartTrap h c v).freeCtr = s.freeCtr := rfl
@[simp] theorem hartTrap_bodies (s : State) (h : HartRef) (c : Nat) (v : DWord) : (s.hartTrap h c v).bodies = s.bodies := rfl
@[simp] theorem hartTrap_mem (s : State) (h : HartRef) (c : Nat) (v : DWord) : (s.hartTrap h c v).mem = s.mem := rfl
@[simp] theorem hartTrap_lines (s : State) (h : HartRef) (c : Nat) (v : DWord) : (s.hartTrap h c v).lines = s.lines := rfl
@[simp] theorem hartTrap_pins (s : State) (h : HartRef) (c : Nat) (v : DWord) : (s.hartTrap h c v).pins = s.pins := rfl
@[simp] theorem hartTrap_cells (s : State) (h : HartRef) (c : Nat) (v : DWord) : (s.hartTrap h c v).cells = s.cells := rfl
@[simp] theorem hartTrap_clusters (s : State) (h : HartRef) (c : Nat) (v : DWord) : (s.hartTrap h c v).clusters = s.clusters := rfl
@[simp] theorem hartTrap_cores (s : State) (h : HartRef) (c : Nat) (v : DWord) : (s.hartTrap h c v).cores = s.cores := rfl
@[simp] theorem hartTrap_parts (s : State) (h : HartRef) (c : Nat) (v : DWord) : (s.hartTrap h c v).parts = s.parts := rfl
@[simp] theorem hartTrap_markhor (s : State) (h : HartRef) (c : Nat) (v : DWord) : (s.hartTrap h c v).markhor = s.markhor := rfl

@[simp] theorem writeMem_agenda (s : State) (p a : Nat) (bs : List Byte) : (s.writeMem p a bs).agenda = s.agenda := rfl
@[simp] theorem writeMem_cur (s : State) (p a : Nat) (bs : List Byte) : (s.writeMem p a bs).cur = s.cur := rfl
@[simp] theorem writeMem_freeCtr (s : State) (p a : Nat) (bs : List Byte) : (s.writeMem p a bs).freeCtr = s.freeCtr := rfl
@[simp] theorem writeMem_bodies (s : State) (p a : Nat) (bs : List Byte) : (s.writeMem p a bs).bodies = s.bodies := rfl
@[simp] theorem writeMem_lines (s : State) (p a : Nat) (bs : List Byte) : (s.writeMem p a bs).lines = s.lines := rfl
@[simp] theorem writeMem_pins (s : State) (p a : Nat) (bs : List Byte) : (s.writeMem p a bs).pins = s.pins := rfl
@[simp] theorem writeMem_cells (s : State) (p a : Nat) (bs : List Byte) : (s.writeMem p a bs).cells = s.cells := rfl
@[simp] theorem writeMem_clusters (s : State) (p a : Nat) (bs : List Byte) : (s.writeMem p a bs).clusters = s.clusters := rfl
@[simp] theorem writeMem_cores (s : State) (p a : Nat) (bs : List Byte) : (s.writeMem p a bs).cores = s.cores := rfl
@[simp] theorem writeMem_slices (s : State) (p a : Nat) (bs : List Byte) : (s.writeMem p a bs).slices = s.slices := rfl
@[simp] theorem writeMem_parts (s : State) (p a : Nat) (bs : List Byte) : (s.writeMem p a bs).parts = s.parts := rfl
@[simp] theorem writeMem_markhor (s : State) (p a : Nat) (bs : List Byte) : (s.writeMem p a bs).markhor = s.markhor := rfl

@[simp] theorem modLine_agenda (s : State) (p a : Nat) (f : LineMeta → LineMeta) : (s.modLine p a f).agenda = s.agenda := rfl
@[simp] theorem modLine_cur (s : State) (p a : Nat) (f : LineMeta → LineMeta) : (s.modLine p a f).cur = s.cur := rfl
@[simp] theorem modLine_freeCtr (s : State) (p a : Nat) (f : LineMeta → LineMeta) : (s.modLine p a f).freeCtr = s.freeCtr := rfl
@[simp] theorem modLine_bodies (s : State) (p a : Nat) (f : LineMeta → LineMeta) : (s.modLine p a f).bodies = s.bodies := rfl
@[simp] theorem modLine_mem (s : State) (p a : Nat) (f : LineMeta → LineMeta) : (s.modLine p a f).mem = s.mem := rfl
@[simp] theorem modLine_pins (s : State) (p a : Nat) (f : LineMeta → LineMeta) : (s.modLine p a f).pins = s.pins := rfl
@[simp] theorem modLine_cells (s : State) (p a : Nat) (f : LineMeta → LineMeta) : (s.modLine p a f).cells = s.cells := rfl
@[simp] theorem modLine_clusters (s : State) (p a : Nat) (f : LineMeta → LineMeta) : (s.modLine p a f).clusters = s.clusters := rfl
@[simp] theorem modLine_cores (s : State) (p a : Nat) (f : LineMeta → LineMeta) : (s.modLine p a f).cores = s.cores := rfl
@[simp] theorem modLine_slices (s : State) (p a : Nat) (f : LineMeta → LineMeta) : (s.modLine p a f).slices = s.slices := rfl
@[simp] theorem modLine_parts (s : State) (p a : Nat) (f : LineMeta → LineMeta) : (s.modLine p a f).parts = s.parts := rfl
@[simp] theorem modLine_markhor (s : State) (p a : Nat) (f : LineMeta → LineMeta) : (s.modLine p a f).markhor = s.markhor := rfl

@[simp] theorem issued_agenda (s : State) (g : GroupRef) (d : Nat) : (s.issued g d).agenda = s.agenda := rfl
@[simp] theorem issued_cur (s : State) (g : GroupRef) (d : Nat) : (s.issued g d).cur = s.cur := rfl
@[simp] theorem issued_freeCtr (s : State) (g : GroupRef) (d : Nat) : (s.issued g d).freeCtr = s.freeCtr := rfl
@[simp] theorem issued_bodies (s : State) (g : GroupRef) (d : Nat) : (s.issued g d).bodies = s.bodies := rfl
@[simp] theorem issued_mem (s : State) (g : GroupRef) (d : Nat) : (s.issued g d).mem = s.mem := rfl
@[simp] theorem issued_lines (s : State) (g : GroupRef) (d : Nat) : (s.issued g d).lines = s.lines := rfl
@[simp] theorem issued_pins (s : State) (g : GroupRef) (d : Nat) : (s.issued g d).pins = s.pins := rfl
@[simp] theorem issued_cells (s : State) (g : GroupRef) (d : Nat) : (s.issued g d).cells = s.cells := rfl
@[simp] theorem issued_clusters (s : State) (g : GroupRef) (d : Nat) : (s.issued g d).clusters = s.clusters := rfl
@[simp] theorem issued_slices (s : State) (g : GroupRef) (d : Nat) : (s.issued g d).slices = s.slices := rfl
@[simp] theorem issued_parts (s : State) (g : GroupRef) (d : Nat) : (s.issued g d).parts = s.parts := rfl
@[simp] theorem issued_markhor (s : State) (g : GroupRef) (d : Nat) : (s.issued g d).markhor = s.markhor := rfl

@[simp] theorem issue_agenda (s : State) (g : GroupRef) (i : Instr) : (s.issue g i).agenda = s.agenda := rfl
@[simp] theorem issue_cur (s : State) (g : GroupRef) (i : Instr) : (s.issue g i).cur = s.cur := rfl
@[simp] theorem issue_freeCtr (s : State) (g : GroupRef) (i : Instr) : (s.issue g i).freeCtr = s.freeCtr := rfl
@[simp] theorem issue_bodies (s : State) (g : GroupRef) (i : Instr) : (s.issue g i).bodies = s.bodies := rfl
@[simp] theorem issue_mem (s : State) (g : GroupRef) (i : Instr) : (s.issue g i).mem = s.mem := rfl
@[simp] theorem issue_lines (s : State) (g : GroupRef) (i : Instr) : (s.issue g i).lines = s.lines := rfl
@[simp] theorem issue_pins (s : State) (g : GroupRef) (i : Instr) : (s.issue g i).pins = s.pins := rfl
@[simp] theorem issue_cells (s : State) (g : GroupRef) (i : Instr) : (s.issue g i).cells = s.cells := rfl
@[simp] theorem issue_clusters (s : State) (g : GroupRef) (i : Instr) : (s.issue g i).clusters = s.clusters := rfl
@[simp] theorem issue_slices (s : State) (g : GroupRef) (i : Instr) : (s.issue g i).slices = s.slices := rfl
@[simp] theorem issue_parts (s : State) (g : GroupRef) (i : Instr) : (s.issue g i).parts = s.parts := rfl
@[simp] theorem issue_markhor (s : State) (g : GroupRef) (i : Instr) : (s.issue g i).markhor = s.markhor := rfl

@[simp] theorem modPart_agenda (s : State) (p : Nat) (f : Part → Part) : (s.modPart p f).agenda = s.agenda := by
  unfold modPart; split <;> rfl
@[simp] theorem modPart_cur (s : State) (p : Nat) (f : Part → Part) : (s.modPart p f).cur = s.cur := by
  unfold modPart; split <;> rfl
@[simp] theorem modPart_freeCtr (s : State) (p : Nat) (f : Part → Part) : (s.modPart p f).freeCtr = s.freeCtr := by
  unfold modPart; split <;> rfl
@[simp] theorem modPart_bodies (s : State) (p : Nat) (f : Part → Part) : (s.modPart p f).bodies = s.bodies := by
  unfold modPart; split <;> rfl
@[simp] theorem modPart_mem (s : State) (p : Nat) (f : Part → Part) : (s.modPart p f).mem = s.mem := by
  unfold modPart; split <;> rfl
@[simp] theorem modPart_lines (s : State) (p : Nat) (f : Part → Part) : (s.modPart p f).lines = s.lines := by
  unfold modPart; split <;> rfl
@[simp] theorem modPart_pins (s : State) (p : Nat) (f : Part → Part) : (s.modPart p f).pins = s.pins := by
  unfold modPart; split <;> rfl
@[simp] theorem modPart_cells (s : State) (p : Nat) (f : Part → Part) : (s.modPart p f).cells = s.cells := by
  unfold modPart; split <;> rfl
@[simp] theorem modPart_clusters (s : State) (p : Nat) (f : Part → Part) : (s.modPart p f).clusters = s.clusters := by
  unfold modPart; split <;> rfl
@[simp] theorem modPart_cores (s : State) (p : Nat) (f : Part → Part) : (s.modPart p f).cores = s.cores := by
  unfold modPart; split <;> rfl
@[simp] theorem modPart_slices (s : State) (p : Nat) (f : Part → Part) : (s.modPart p f).slices = s.slices := by
  unfold modPart; split <;> rfl
@[simp] theorem modPart_markhor (s : State) (p : Nat) (f : Part → Part) : (s.modPart p f).markhor = s.markhor := by
  unfold modPart; split <;> rfl

@[simp] theorem writeReg_agenda (s : State) (g : GroupRef) (w : RegWrite) : (s.writeReg g w).agenda = s.agenda := by
  unfold writeReg; split <;> rfl
@[simp] theorem writeReg_cur (s : State) (g : GroupRef) (w : RegWrite) : (s.writeReg g w).cur = s.cur := by
  unfold writeReg; split <;> rfl
@[simp] theorem writeReg_freeCtr (s : State) (g : GroupRef) (w : RegWrite) : (s.writeReg g w).freeCtr = s.freeCtr := by
  unfold writeReg; split <;> rfl
@[simp] theorem writeReg_bodies (s : State) (g : GroupRef) (w : RegWrite) : (s.writeReg g w).bodies = s.bodies := by
  unfold writeReg; split <;> rfl
@[simp] theorem writeReg_mem (s : State) (g : GroupRef) (w : RegWrite) : (s.writeReg g w).mem = s.mem := by
  unfold writeReg; split <;> rfl
@[simp] theorem writeReg_lines (s : State) (g : GroupRef) (w : RegWrite) : (s.writeReg g w).lines = s.lines := by
  unfold writeReg; split <;> rfl
@[simp] theorem writeReg_pins (s : State) (g : GroupRef) (w : RegWrite) : (s.writeReg g w).pins = s.pins := by
  unfold writeReg; split <;> rfl
@[simp] theorem writeReg_cells (s : State) (g : GroupRef) (w : RegWrite) : (s.writeReg g w).cells = s.cells := by
  unfold writeReg; split <;> rfl
@[simp] theorem writeReg_clusters (s : State) (g : GroupRef) (w : RegWrite) : (s.writeReg g w).clusters = s.clusters := by
  unfold writeReg; split <;> rfl
@[simp] theorem writeReg_slices (s : State) (g : GroupRef) (w : RegWrite) : (s.writeReg g w).slices = s.slices := by
  unfold writeReg; split <;> rfl
@[simp] theorem writeReg_parts (s : State) (g : GroupRef) (w : RegWrite) : (s.writeReg g w).parts = s.parts := by
  unfold writeReg; split <;> rfl
@[simp] theorem writeReg_markhor (s : State) (g : GroupRef) (w : RegWrite) : (s.writeReg g w).markhor = s.markhor := by
  unfold writeReg; split <;> rfl

@[simp] theorem writeRegs_agenda (s : State) (g : GroupRef) (ws : List RegWrite) : (s.writeRegs g ws).agenda = s.agenda := by
  unfold writeRegs
  induction ws generalizing s with
  | nil => rfl
  | cons w ws ih => simp [ih]
@[simp] theorem writeRegs_cur (s : State) (g : GroupRef) (ws : List RegWrite) : (s.writeRegs g ws).cur = s.cur := by
  unfold writeRegs
  induction ws generalizing s with
  | nil => rfl
  | cons w ws ih => simp [ih]
@[simp] theorem writeRegs_freeCtr (s : State) (g : GroupRef) (ws : List RegWrite) : (s.writeRegs g ws).freeCtr = s.freeCtr := by
  unfold writeRegs
  induction ws generalizing s with
  | nil => rfl
  | cons w ws ih => simp [ih]
@[simp] theorem writeRegs_bodies (s : State) (g : GroupRef) (ws : List RegWrite) : (s.writeRegs g ws).bodies = s.bodies := by
  unfold writeRegs
  induction ws generalizing s with
  | nil => rfl
  | cons w ws ih => simp [ih]
@[simp] theorem writeRegs_mem (s : State) (g : GroupRef) (ws : List RegWrite) : (s.writeRegs g ws).mem = s.mem := by
  unfold writeRegs
  induction ws generalizing s with
  | nil => rfl
  | cons w ws ih => simp [ih]
@[simp] theorem writeRegs_lines (s : State) (g : GroupRef) (ws : List RegWrite) : (s.writeRegs g ws).lines = s.lines := by
  unfold writeRegs
  induction ws generalizing s with
  | nil => rfl
  | cons w ws ih => simp [ih]
@[simp] theorem writeRegs_pins (s : State) (g : GroupRef) (ws : List RegWrite) : (s.writeRegs g ws).pins = s.pins := by
  unfold writeRegs
  induction ws generalizing s with
  | nil => rfl
  | cons w ws ih => simp [ih]
@[simp] theorem writeRegs_cells (s : State) (g : GroupRef) (ws : List RegWrite) : (s.writeRegs g ws).cells = s.cells := by
  unfold writeRegs
  induction ws generalizing s with
  | nil => rfl
  | cons w ws ih => simp [ih]
@[simp] theorem writeRegs_clusters (s : State) (g : GroupRef) (ws : List RegWrite) : (s.writeRegs g ws).clusters = s.clusters := by
  unfold writeRegs
  induction ws generalizing s with
  | nil => rfl
  | cons w ws ih => simp [ih]
@[simp] theorem writeRegs_slices (s : State) (g : GroupRef) (ws : List RegWrite) : (s.writeRegs g ws).slices = s.slices := by
  unfold writeRegs
  induction ws generalizing s with
  | nil => rfl
  | cons w ws ih => simp [ih]
@[simp] theorem writeRegs_parts (s : State) (g : GroupRef) (ws : List RegWrite) : (s.writeRegs g ws).parts = s.parts := by
  unfold writeRegs
  induction ws generalizing s with
  | nil => rfl
  | cons w ws ih => simp [ih]
@[simp] theorem writeRegs_markhor (s : State) (g : GroupRef) (ws : List RegWrite) : (s.writeRegs g ws).markhor = s.markhor := by
  unfold writeRegs
  induction ws generalizing s with
  | nil => rfl
  | cons w ws ih => simp [ih]

@[simp] theorem landOne_agenda (s : State) (g : GroupRef) : (s.landOne g).agenda = s.agenda := by
  unfold landOne; split <;> [rfl; split <;> simp]
@[simp] theorem landOne_cur (s : State) (g : GroupRef) : (s.landOne g).cur = s.cur := by
  unfold landOne; split <;> [rfl; split <;> simp]
@[simp] theorem landOne_freeCtr (s : State) (g : GroupRef) : (s.landOne g).freeCtr = s.freeCtr := by
  unfold landOne; split <;> [rfl; split <;> simp]
@[simp] theorem landOne_bodies (s : State) (g : GroupRef) : (s.landOne g).bodies = s.bodies := by
  unfold landOne; split <;> [rfl; split <;> simp]
@[simp] theorem landOne_mem (s : State) (g : GroupRef) : (s.landOne g).mem = s.mem := by
  unfold landOne; split <;> [rfl; split <;> simp]
@[simp] theorem landOne_lines (s : State) (g : GroupRef) : (s.landOne g).lines = s.lines := by
  unfold landOne; split <;> [rfl; split <;> simp]
@[simp] theorem landOne_pins (s : State) (g : GroupRef) : (s.landOne g).pins = s.pins := by
  unfold landOne; split <;> [rfl; split <;> simp]
@[simp] theorem landOne_cells (s : State) (g : GroupRef) : (s.landOne g).cells = s.cells := by
  unfold landOne; split <;> [rfl; split <;> simp]
@[simp] theorem landOne_clusters (s : State) (g : GroupRef) : (s.landOne g).clusters = s.clusters := by
  unfold landOne; split <;> [rfl; split <;> simp]
@[simp] theorem landOne_slices (s : State) (g : GroupRef) : (s.landOne g).slices = s.slices := by
  unfold landOne; split <;> [rfl; split <;> simp]
@[simp] theorem landOne_parts (s : State) (g : GroupRef) : (s.landOne g).parts = s.parts := by
  unfold landOne; split <;> [rfl; split <;> simp]
@[simp] theorem landOne_markhor (s : State) (g : GroupRef) : (s.landOne g).markhor = s.markhor := by
  unfold landOne; split <;> [rfl; split <;> simp]

@[simp] theorem commitFixed_agenda (s : State) (v : View) (i : Instr) (k : Option Nat) (n : Nat) (o : FixedOut) :
    (s.commitFixed v i k n o).agenda = s.agenda := rfl
@[simp] theorem commitFixed_cur (s : State) (v : View) (i : Instr) (k : Option Nat) (n : Nat) (o : FixedOut) :
    (s.commitFixed v i k n o).cur = s.cur := rfl
@[simp] theorem commitFixed_freeCtr (s : State) (v : View) (i : Instr) (k : Option Nat) (n : Nat) (o : FixedOut) :
    (s.commitFixed v i k n o).freeCtr = s.freeCtr := rfl
@[simp] theorem commitFixed_bodies (s : State) (v : View) (i : Instr) (k : Option Nat) (n : Nat) (o : FixedOut) :
    (s.commitFixed v i k n o).bodies = s.bodies := rfl
@[simp] theorem commitFixed_mem (s : State) (v : View) (i : Instr) (k : Option Nat) (n : Nat) (o : FixedOut) :
    (s.commitFixed v i k n o).mem = s.mem := rfl
@[simp] theorem commitFixed_lines (s : State) (v : View) (i : Instr) (k : Option Nat) (n : Nat) (o : FixedOut) :
    (s.commitFixed v i k n o).lines = s.lines := rfl
@[simp] theorem commitFixed_pins (s : State) (v : View) (i : Instr) (k : Option Nat) (n : Nat) (o : FixedOut) :
    (s.commitFixed v i k n o).pins = s.pins := rfl
@[simp] theorem commitFixed_cells (s : State) (v : View) (i : Instr) (k : Option Nat) (n : Nat) (o : FixedOut) :
    (s.commitFixed v i k n o).cells = s.cells := rfl
@[simp] theorem commitFixed_clusters (s : State) (v : View) (i : Instr) (k : Option Nat) (n : Nat) (o : FixedOut) :
    (s.commitFixed v i k n o).clusters = s.clusters := rfl
@[simp] theorem commitFixed_slices (s : State) (v : View) (i : Instr) (k : Option Nat) (n : Nat) (o : FixedOut) :
    (s.commitFixed v i k n o).slices = s.slices := rfl
@[simp] theorem commitFixed_parts (s : State) (v : View) (i : Instr) (k : Option Nat) (n : Nat) (o : FixedOut) :
    (s.commitFixed v i k n o).parts = s.parts := rfl
@[simp] theorem commitFixed_markhor (s : State) (v : View) (i : Instr) (k : Option Nat) (n : Nat) (o : FixedOut) :
    (s.commitFixed v i k n o).markhor = s.markhor := rfl

end Sys2Proof.Machine.State
end

