-- ==== Sys2Proof/Laws/Reach.lean ====
section
/-!
SUPPORT. What is found at a place of the state after a change at a place: cores, slices, sub-partitions, slots, fibres, teams,
harts, and the view of a group.
-/

namespace Sys2Proof.Machine

/-! ### Cores and slices -/

theorem State.core_setCore (s : State) (c j : Nat) (k : Core) : (s.setCore c k).core j = if j = c then k else s.core j := by
  by_cases h : j = c
  · subst h; simp [State.core, State.setCore]
  · simp [State.core, State.setCore, h, SMap.get_set_ne _ h]

@[simp] theorem State.core_setCore_self (s : State) (c : Nat) (k : Core) : (s.setCore c k).core c = k := by
  simp [State.core_setCore]

theorem State.core_modCore (s : State) (c j : Nat) (f : Core → Core) :
    (s.modCore c f).core j = if j = c then f (s.core c) else s.core j := State.core_setCore ..

@[simp] theorem State.core_modCore_self (s : State) (c : Nat) (f : Core → Core) : (s.modCore c f).core c = f (s.core c) := by
  simp [State.core_modCore]

theorem State.slice_setSlice (s : State) (c j : Nat) (x : Slice) :
    (s.setSlice c x).slice j = if j = c then x else s.slice j := by
  by_cases h : j = c
  · subst h; simp [State.slice, State.setSlice]
  · simp [State.slice, State.setSlice, h, SMap.get_set_ne _ h]

theorem State.slice_modSlice (s : State) (c j : Nat) (f : Slice → Slice) :
    (s.modSlice c f).slice j = if j = c then f (s.slice c) else s.slice j := State.slice_setSlice ..

@[simp] theorem State.slice_modSlice_self (s : State) (c : Nat) (f : Slice → Slice) :
    (s.modSlice c f).slice c = f (s.slice c) := by simp [State.slice_modSlice]

@[simp] theorem State.slice_setSlice_self (s : State) (c : Nat) (x : Slice) : (s.setSlice c x).slice c = x := by
  simp [State.slice_setSlice]

@[simp] theorem State.slice_modCore (s : State) (c j : Nat) (f : Core → Core) : (s.modCore c f).slice j = s.slice j := rfl
@[simp] theorem State.core_modSlice (s : State) (c j : Nat) (f : Slice → Slice) : (s.modSlice c f).core j = s.core j := rfl
@[simp] theorem State.core_setSlice (s : State) (c j : Nat) (x : Slice) : (s.setSlice c x).core j = s.core j := rfl
@[simp] theorem State.core_writeMem (s : State) (p a j : Nat) (bs : List Byte) : (s.writeMem p a bs).core j = s.core j := rfl
@[simp] theorem State.slice_writeMem (s : State) (p a j : Nat) (bs : List Byte) : (s.writeMem p a bs).slice j = s.slice j := rfl
@[simp] theorem State.part?_modCore (s : State) (c p : Nat) (f : Core → Core) : (s.modCore c f).part? p = s.part? p := rfl
@[simp] theorem State.part?_modSlice (s : State) (c p : Nat) (f : Slice → Slice) : (s.modSlice c f).part? p = s.part? p := rfl

theorem State.part?_setPart (s : State) (p q : Nat) (x : Part) :
    (s.setPart p x).part? q = if q = p then some x else s.part? q := SMap.find_set ..

/-! ### Sub-partitions and teams -/

theorem Core.sub_setSub (k : Core) (i j : Nat) (x : Sub) : (k.setSub i x).sub j = if j = i then x else k.sub j := by
  by_cases h : j = i
  · subst h; simp [Core.sub, Core.setSub]
  · simp [Core.sub, Core.setSub, h, SMap.get_set_ne _ h]

theorem Core.sub_modSub (k : Core) (i j : Nat) (f : Sub → Sub) :
    (k.modSub i f).sub j = if j = i then f (k.sub i) else k.sub j := Core.sub_setSub ..

@[simp] theorem Core.sub_modSub_self (k : Core) (i : Nat) (f : Sub → Sub) : (k.modSub i f).sub i = f (k.sub i) := by
  simp [Core.sub_modSub]

@[simp] theorem Core.teams_modSub (k : Core) (i : Nat) (f : Sub → Sub) : (k.modSub i f).teams = k.teams := rfl
@[simp] theorem Core.clock_modSub (k : Core) (i : Nat) (f : Sub → Sub) : (k.modSub i f).clock = k.clock := rfl
@[simp] theorem Core.blocks_modSub (k : Core) (i : Nat) (f : Sub → Sub) : (k.modSub i f).blocks = k.blocks := rfl
@[simp] theorem Core.store_modSub (k : Core) (i : Nat) (f : Sub → Sub) : (k.modSub i f).store = k.store := rfl

theorem Core.find_modTeam (k : Core) (c j : Nat) (f : Team → Team) :
    (k.modTeam c f).teams.find j = if j = c then (k.teams.find c).map f else k.teams.find j := by
  unfold Core.modTeam
  by_cases h : j = c
  · subst h
    cases e : k.teams.find j <;> simp [e]
  · simp only [h, if_false]
    split
    · exact SMap.find_set_ne _ h _
    · rfl

@[simp] theorem Core.subs_modTeam (k : Core) (c : Nat) (f : Team → Team) : (k.modTeam c f).subs = k.subs := by
  unfold Core.modTeam; split <;> rfl

@[simp] theorem Core.clock_modTeam (k : Core) (c : Nat) (f : Team → Team) : (k.modTeam c f).clock = k.clock := by
  unfold Core.modTeam; split <;> rfl

theorem State.team?_modTeam (s : State) (c i c' j : Nat) (f : Team → Team) :
    (s.modTeam c i f).team? c' j = if c' = c ∧ j = i then (s.team? c i).map f else s.team? c' j := by
  unfold State.team? State.modTeam
  rw [State.core_modCore]
  by_cases h : c' = c
  · subst h
    simp [Core.find_modTeam]
  · simp [h]

/-! ### Slots and fibres -/

theorem Sub.find_modSlot (x : Sub) (i j : Nat) (f : Slot → Slot) :
    (x.modSlot i f).slots.find j = if j = i then (x.slots.find i).map f else x.slots.find j := by
  unfold Sub.modSlot
  by_cases h : j = i
  · subst h
    cases e : x.slots.find j <;> simp [e]
  · simp only [h, if_false]
    split
    · exact SMap.find_set_ne _ h _
    · rfl

theorem Slot.find_modFibre (t : Slot) (i j : Nat) (f : Fibre → Fibre) :
    (t.modFibre i f).fibres.find j = if j = i then (t.fibres.find i).map f else t.fibres.find j := by
  unfold Slot.modFibre
  by_cases h : j = i
  · subst h
    cases e : t.fibres.find j <;> simp [e]
  · simp only [h, if_false]
    split
    · exact SMap.find_set_ne _ h _
    · rfl

@[simp] theorem Sub.bank_modSlot (x : Sub) (i : Nat) (f : Slot → Slot) : (x.modSlot i f).bank = x.bank := by
  unfold Sub.modSlot; split <;> rfl

/-- The place of a slot: core, sub-partition and number. -/
def sameSlot (g h : GroupRef) : Prop := h.core = g.core ∧ h.sub = g.sub ∧ h.slot = g.slot

theorem State.slot?_modSlot (s : State) (g h : GroupRef) (f : Slot → Slot) [Decidable (sameSlot g h)] :
    (s.modSlot g f).slot? h = if sameSlot g h then (s.slot? g).map f else s.slot? h := by
  unfold State.slot? State.modSlot State.modSub
  rw [State.core_modCore]
  unfold sameSlot at *
  by_cases h1 : h.core = g.core
  · simp only [h1, if_true, Core.sub_modSub, true_and]
    by_cases h2 : h.sub = g.sub
    · simp only [h2, if_true, Sub.find_modSlot, true_and]
    · simp [h2]
  · simp [h1]

@[simp] theorem State.slot?_modSlot_self (s : State) (g : GroupRef) (f : Slot → Slot) :
    (s.modSlot g f).slot? g = (s.slot? g).map f := by
  classical
  rw [State.slot?_modSlot]
  simp [sameSlot]

@[simp] theorem State.fibre?_modFibre_self (s : State) (g : GroupRef) (f : Fibre → Fibre) :
    (s.modFibre g f).fibre? g = (s.fibre? g).map f := by
  unfold State.fibre? State.modFibre
  rw [State.slot?_modSlot_self]
  cases e : s.slot? g <;> simp [Slot.find_modFibre]

/-- A change of one fibre leaves every other. -/
theorem State.fibre?_modFibre_ne (s : State) {g h : GroupRef} (n : h ≠ g) (f : Fibre → Fibre) :
    (s.modFibre g f).fibre? h = s.fibre? h := by
  classical
  unfold State.fibre? State.modFibre
  rw [State.slot?_modSlot]
  by_cases e : sameSlot g h
  · have hf : h.fib ≠ g.fib := by
      intro q
      apply n
      obtain ⟨a, b, c, d⟩ := g
      obtain ⟨a', b', c', d'⟩ := h
      simp only [sameSlot] at e
      simp_all
    have hs : s.slot? h = s.slot? g := by
      unfold State.slot?
      obtain ⟨a, b, c⟩ := e
      rw [a, b, c]
    rw [if_pos e, hs]
    cases q : s.slot? g <;> simp [Slot.find_modFibre, hf]
  · rw [if_neg e]

/-- A change of a slot's own fields leaves its fibres. -/
theorem State.fibre?_modSlot_of (s : State) (g h : GroupRef) (f : Slot → Slot) (q : ∀ t, (f t).fibres = t.fibres) :
    (s.modSlot g f).fibre? h = s.fibre? h := by
  classical
  unfold State.fibre?
  rw [State.slot?_modSlot]
  by_cases e : sameSlot g h
  · have hs : s.slot? h = s.slot? g := by
      unfold State.slot?
      obtain ⟨a, b, c⟩ := e
      rw [a, b, c]
    rw [if_pos e, hs]
    cases s.slot? g <;> simp [q]
  · rw [if_neg e]

/-- A change of a core that keeps its sub-partitions leaves every fibre. -/
theorem State.fibre?_modCore_of (s : State) (c : Nat) (h : GroupRef) (f : Core → Core) (q : ∀ k, (f k).subs = k.subs) :
    (s.modCore c f).fibre? h = s.fibre? h := by
  unfold State.fibre? State.slot?
  rw [State.core_modCore]
  split
  · rename_i e
    rw [e]
    simp only [Core.sub, q]
  · rfl

/-! ### Views -/

/-- What the view of a group holds. -/
theorem State.view_eq_some {s : State} {g : GroupRef} {v : View} (h : s.view g = some v) :
    v.g = g ∧ v.core = s.core g.core ∧ v.sub = (s.core g.core).sub g.sub ∧ s.slot? g = some v.slot
      ∧ s.fibre? g = some v.fib ∧ s.team? g.core v.slot.ctx = some v.team := by
  unfold State.view at h
  simp only at h
  split at h
  · exact absurd h (by simp)
  · rename_i t ht
    split at h
    · exact absurd h (by simp)
    · rename_i f hf
      split at h
      · exact absurd h (by simp)
      · rename_i m hm
        cases h
        exact ⟨rfl, rfl, rfl, ht, by simp [State.fibre?, State.slot?, ht, hf], hm⟩

/-- A group is seen where its slot, its fibre and its team stand. -/
theorem State.view_of {s : State} {g : GroupRef} {t : Slot} {f : Fibre} {m : Team} (ht : s.slot? g = some t)
    (hf : s.fibre? g = some f) (hm : s.team? g.core t.ctx = some m) :
    s.view g = some ⟨g, s.core g.core, (s.core g.core).sub g.sub, t, f, m⟩ := by
  unfold State.fibre? at hf
  rw [ht] at hf
  unfold State.slot? at ht
  unfold State.team? at hm
  simp only [Option.bind_some] at hf
  unfold State.view
  simp only [ht, hf, hm]

/-- The acting group is the one that holds the turn. -/
theorem State.curView_eq_some {s : State} {v : View} (h : s.curView = some v) : s.cur = .group v.g ∧ s.view v.g = some v := by
  unfold State.curView at h
  split at h
  · rename_i g hg
    have := (State.view_eq_some h).1
    subst this
    exact ⟨hg, h⟩
  · exact absurd h (by simp)

/-! ### Harts -/

@[simp] theorem State.hartOf_modHart_self (s : State) (h : HartRef) (f : Hart → Hart) :
    (s.modHart h f).hartOf h = f (s.hartOf h) := by
  simp [State.hartOf, State.modHart]

/-- A change of one hart leaves every other. -/
theorem State.hartOf_modHart_ne (s : State) {h j : HartRef} (n : j ≠ h) (f : Hart → Hart) :
    (s.modHart h f).hartOf j = s.hartOf j := by
  unfold State.hartOf State.modHart
  rw [State.slice_modSlice]
  by_cases e : j.slice = h.slice
  · have : j.hart ≠ h.hart := by
      intro q
      exact n (by cases j; cases h; simp_all)
    rw [if_pos e, SMap.get_set_ne _ this, e]
  · rw [if_neg e]

end Sys2Proof.Machine
end

