-- ==== Sys2Proof/Laws/Frames.lean ====
section
/-!
SUPPORT. What the shared operations of faults, records and interrupts leave: the cores, the lines' metadata, the cells, and the canonical form of the
memory.
-/

namespace Sys2Proof.Machine.State

/-! ### Bytes of memory -/

/-- What is written is read. -/
theorem readMem_writeMem {s : State} (h : Memory.wf s.mem = true) (p a : Nat) (bs : List Byte) : (s.writeMem p a bs).readMem p a bs.length = bs := by
  refine List.ext_getElem (by simp [readMem, memReadBytes]) fun i h1 h2 => ?_
  simp only [readMem, memReadBytes, List.getElem_map, List.getElem_range]
  exact memRead_memWriteBytes_in h h2

/-- A write leaves every byte outside it. -/
theorem writeMem_elsewhere {s : State} (h : Memory.wf s.mem = true) (p a : Nat) (bs : List Byte) : MemoryElsewhere s (s.writeMem p a bs) p a bs.length := by
  intro q b hb
  simp only [readMem, memReadBytes, List.range_one, List.map_cons, List.map_nil, Nat.add_zero, List.cons.injEq, and_true]
  exact memRead_memWriteBytes_out h hb

/-- Bytes put by offset leave every other byte. -/
theorem memRead_memPut_out {m : List Host.Cell} (h : Memory.wf m = true) {base j : Nat} {cells : List (Nat × Byte)} (hj : ∀ c ∈ cells, j ≠ base + c.1) :
    memRead (memPut m base cells) j = memRead m j := by
  unfold memPut
  induction cells generalizing m with
  | nil => rfl
  | cons c cs ih =>
    rw [List.foldl_cons, ih (Memory.wf_write h _ _) fun d hd => hj d (List.mem_cons_of_mem _ hd)]
    exact memRead_memWrite_ne h (hj c List.mem_cons_self) _

@[simp] theorem bankWrite_cores (s : State) (p l : Nat) (cs : List (Nat × Byte)) (o : BitVec 12) : (s.bankWrite p l cs o).cores = s.cores := by
  simp only [bankWrite]; split <;> simp
@[simp] theorem bankWrite_parts (s : State) (p l : Nat) (cs : List (Nat × Byte)) (o : BitVec 12) : (s.bankWrite p l cs o).parts = s.parts := by
  simp only [bankWrite]; split <;> simp

/-- A write at a home bank leaves every byte but those of its line that it names. -/
theorem bankWrite_out {s : State} (h : Memory.wf s.mem = true) {p l q a : Nat} {cs : List (Nat × Byte)} {o : BitVec 12}
    (hj : ∀ c ∈ cs, memKey q a ≠ memKey p (l * 128) + c.1) : (s.bankWrite p l cs o).readMem q a 1 = s.readMem q a 1 := by
  simp only [bankWrite]
  split
  · rfl
  · simp only [readMem, memReadBytes, List.range_one, List.map_cons, List.map_nil, Nat.add_zero, modLine_mem, List.cons.injEq, and_true]
    exact memRead_memPut_out h hj

/-! ### Interrupts -/

@[simp] theorem setPending_mem (s : State) (n h f i : Nat) : (s.setPending n h f i).mem = s.mem := by unfold setPending; split <;> simp
@[simp] theorem setPending_cores (s : State) (n h f i : Nat) : (s.setPending n h f i).cores = s.cores := by unfold setPending; split <;> simp
@[simp] theorem setPending_lines (s : State) (n h f i : Nat) : (s.setPending n h f i).lines = s.lines := by unfold setPending; split <;> simp
@[simp] theorem setPending_parts (s : State) (n h f i : Nat) : (s.setPending n h f i).parts = s.parts := by unfold setPending; split <;> simp

/-- An MSI that is delivered changes interrupt files alone. -/
theorem deliverMsi_frame {s t : State} {p : Nat} {a : DWord} {d : Word} (h : s.deliverMsi p a d = some t) :
    t.mem = s.mem ∧ t.cores = s.cores ∧ t.lines = s.lines ∧ t.parts = s.parts := by
  unfold deliverMsi at h; repeat' split at h
  all_goals cases h
  all_goals simp

@[simp] theorem logViolation_mem (s : State) (n k c q : Nat) (a : DWord) : (s.logViolation n k c q a).mem = s.mem := by
  unfold logViolation; dsimp only; split
  · unfold Option.getD; split
    · rename_i h; simpa using (deliverMsi_frame h).1
    · simp
  · simp
@[simp] theorem logViolation_cores (s : State) (n k c q : Nat) (a : DWord) : (s.logViolation n k c q a).cores = s.cores := by
  unfold logViolation; dsimp only; split
  · unfold Option.getD; split
    · rename_i h; simpa using (deliverMsi_frame h).2.1
    · simp
  · simp
@[simp] theorem logViolation_lines (s : State) (n k c q : Nat) (a : DWord) : (s.logViolation n k c q a).lines = s.lines := by
  unfold logViolation; dsimp only; split
  · unfold Option.getD; split
    · rename_i h; simpa using (deliverMsi_frame h).2.2.1
    · simp
  · simp
@[simp] theorem logViolation_parts (s : State) (n k c q : Nat) (a : DWord) : (s.logViolation n k c q a).parts = s.parts := by
  unfold logViolation; dsimp only; split
  · unfold Option.getD; split
    · rename_i h; simpa using (deliverMsi_frame h).2.2.2
    · simp
  · simp
@[simp] theorem sendMsi_mem (s : State) (n p : Nat) (a : DWord) (d : Word) : (s.sendMsi n p a d).mem = s.mem := by
  unfold sendMsi Option.getD; split
  · rename_i h; exact (deliverMsi_frame h).1
  · simp
@[simp] theorem sendMsi_cores (s : State) (n p : Nat) (a : DWord) (d : Word) : (s.sendMsi n p a d).cores = s.cores := by
  unfold sendMsi Option.getD; split
  · rename_i h; exact (deliverMsi_frame h).2.1
  · simp
@[simp] theorem sendMsi_lines (s : State) (n p : Nat) (a : DWord) (d : Word) : (s.sendMsi n p a d).lines = s.lines := by
  unfold sendMsi Option.getD; split
  · rename_i h; exact (deliverMsi_frame h).2.2.1
  · simp
@[simp] theorem sendMsi_parts (s : State) (n p : Nat) (a : DWord) (d : Word) : (s.sendMsi n p a d).parts = s.parts := by
  unfold sendMsi Option.getD; split
  · rename_i h; exact (deliverMsi_frame h).2.2.2
  · simp

@[simp] theorem aplicMsi_mem (s : State) (n h : Nat) (i : BitVec 11) : (s.aplicMsi n h i).mem = s.mem := by simp [aplicMsi]
@[simp] theorem aplicMsi_cores (s : State) (n h : Nat) (i : BitVec 11) : (s.aplicMsi n h i).cores = s.cores := by simp [aplicMsi]
@[simp] theorem aplicMsi_lines (s : State) (n h : Nat) (i : BitVec 11) : (s.aplicMsi n h i).lines = s.lines := by simp [aplicMsi]
@[simp] theorem aplicMsi_parts (s : State) (n h : Nat) (i : BitVec 11) : (s.aplicMsi n h i).parts = s.parts := by simp [aplicMsi]

@[simp] theorem forwardWire_mem (s : State) (n k : Nat) : (s.forwardWire n k).mem = s.mem := by simp only [forwardWire]; split <;> simp
@[simp] theorem forwardWire_cores (s : State) (n k : Nat) : (s.forwardWire n k).cores = s.cores := by simp only [forwardWire]; split <;> simp
@[simp] theorem forwardWire_lines (s : State) (n k : Nat) : (s.forwardWire n k).lines = s.lines := by simp only [forwardWire]; split <;> simp
@[simp] theorem forwardWire_parts (s : State) (n k : Nat) : (s.forwardWire n k).parts = s.parts := by simp only [forwardWire]; split <;> simp

@[simp] theorem wire_mem (s : State) (n k : Nat) (b : Bool) : (s.wire n k b).mem = s.mem := by
  simp only [wire, apply_ite State.mem, forwardWire_mem, modSlice_mem, ite_self]
@[simp] theorem wire_cores (s : State) (n k : Nat) (b : Bool) : (s.wire n k b).cores = s.cores := by
  simp only [wire, apply_ite State.cores, forwardWire_cores, modSlice_cores, ite_self]
@[simp] theorem wire_lines (s : State) (n k : Nat) (b : Bool) : (s.wire n k b).lines = s.lines := by
  simp only [wire, apply_ite State.lines, forwardWire_lines, modSlice_lines, ite_self]
@[simp] theorem wire_parts (s : State) (n k : Nat) (b : Bool) : (s.wire n k b).parts = s.parts := by
  simp only [wire, apply_ite State.parts, forwardWire_parts, modSlice_parts, ite_self]

@[simp] theorem setEsum_mem (s : State) (n : Nat) (v : BitVec 8) : (s.setEsum n v).mem = s.mem := by simp [setEsum]
@[simp] theorem setEsum_cores (s : State) (n : Nat) (v : BitVec 8) : (s.setEsum n v).cores = s.cores := by simp [setEsum]
@[simp] theorem setEsum_lines (s : State) (n : Nat) (v : BitVec 8) : (s.setEsum n v).lines = s.lines := by simp [setEsum]
@[simp] theorem setEsum_parts (s : State) (n : Nat) (v : BitVec 8) : (s.setEsum n v).parts = s.parts := by simp [setEsum]

/-! ### Writes of the units of a slice -/

@[simp] theorem portWrite_cores (s : State) (p a : Nat) (bs : List Byte) (o : BitVec 12) : (s.portWrite p a bs o).cores = s.cores := by
  unfold portWrite
  generalize List.range _ = l
  induction l generalizing s with
  | nil => rfl
  | cons i l ih => rw [List.foldl_cons, ih]; simp
@[simp] theorem portWrite_parts (s : State) (p a : Nat) (bs : List Byte) (o : BitVec 12) : (s.portWrite p a bs o).parts = s.parts := by
  unfold portWrite
  generalize List.range _ = l
  induction l generalizing s with
  | nil => rfl
  | cons i l ih => rw [List.foldl_cons, ih]; simp
theorem portWrite_wf {s : State} (h : Memory.wf s.mem = true) (p a : Nat) (bs : List Byte) (o : BitVec 12) :
    Memory.wf (s.portWrite p a bs o).mem = true := by
  unfold portWrite
  generalize List.range _ = l
  induction l generalizing s with
  | nil => exact h
  | cons i l ih => rw [List.foldl_cons]; exact ih (bankWrite_wf h _ _ _ _)

@[simp] theorem refuseUnit_mem (s : State) (n p a : Nat) : (s.refuseUnit n p a).mem = s.mem := by unfold refuseUnit; split <;> simp
@[simp] theorem refuseUnit_cores (s : State) (n p a : Nat) : (s.refuseUnit n p a).cores = s.cores := by unfold refuseUnit; split <;> simp
@[simp] theorem refuseUnit_lines (s : State) (n p a : Nat) : (s.refuseUnit n p a).lines = s.lines := by unfold refuseUnit; split <;> simp
@[simp] theorem refuseUnit_parts (s : State) (n p a : Nat) : (s.refuseUnit n p a).parts = s.parts := by unfold refuseUnit; split <;> simp

@[simp] theorem unitWrite_cores (s : State) (n p a : Nat) (bs : List Byte) : (s.unitWrite n p a bs).cores = s.cores := by
  unfold unitWrite; split <;> simp
@[simp] theorem unitWrite_parts (s : State) (n p a : Nat) (bs : List Byte) : (s.unitWrite n p a bs).parts = s.parts := by
  unfold unitWrite; split <;> simp
theorem unitWrite_wf {s : State} (h : Memory.wf s.mem = true) (n p a : Nat) (bs : List Byte) : Memory.wf (s.unitWrite n p a bs).mem = true := by
  unfold unitWrite; split
  · simpa using h
  · exact portWrite_wf h _ _ _ _

/-! ### Records -/

@[simp] theorem writeRecord_cores (s : State) (n p : Nat) (r : Rec) : (s.writeRecord n p r).cores = s.cores := by
  simp only [writeRecord]; repeat' split
  all_goals simp
@[simp] theorem writeRecord_parts (s : State) (n p : Nat) (r : Rec) : (s.writeRecord n p r).parts = s.parts := by
  simp only [writeRecord]; repeat' split
  all_goals simp
theorem writeRecord_wf {s : State} (h : Memory.wf s.mem = true) (n p : Nat) (r : Rec) : Memory.wf (s.writeRecord n p r).mem = true := by
  simp only [writeRecord]; repeat' split
  all_goals simp [h, unitWrite_wf]

@[simp] theorem peerRefuses_mem (s : State) (n : Nat) : (s.peerRefuses n).2.mem = s.mem := by unfold peerRefuses; split <;> rfl
@[simp] theorem peerRefuses_cores (s : State) (n : Nat) : (s.peerRefuses n).2.cores = s.cores := by unfold peerRefuses; split <;> rfl
@[simp] theorem peerRefuses_lines (s : State) (n : Nat) : (s.peerRefuses n).2.lines = s.lines := by unfold peerRefuses; split <;> rfl
@[simp] theorem peerRefuses_parts (s : State) (n : Nat) : (s.peerRefuses n).2.parts = s.parts := by unfold peerRefuses; split <;> rfl

@[simp] theorem drainFault_cores (s : State) (n : Nat) : (s.drainFault n).cores = s.cores := by
  simp only [drainFault]; repeat' split
  all_goals simp
@[simp] theorem drainFault_parts (s : State) (n : Nat) : (s.drainFault n).parts = s.parts := by
  simp only [drainFault]; repeat' split
  all_goals simp
theorem drainFault_wf {s : State} (h : Memory.wf s.mem = true) (n : Nat) : Memory.wf (s.drainFault n).mem = true := by
  simp only [drainFault]; repeat' split
  all_goals simp [h, writeRecord_wf]

@[simp] theorem postRecord_cores (s : State) (n : Nat) (r : Rec) : (s.postRecord n r).cores = s.cores := by simp only [postRecord]; split <;> simp
@[simp] theorem postRecord_parts (s : State) (n : Nat) (r : Rec) : (s.postRecord n r).parts = s.parts := by simp only [postRecord]; split <;> simp
theorem postRecord_wf {s : State} (h : Memory.wf s.mem = true) (n : Nat) (r : Rec) : Memory.wf (s.postRecord n r).mem = true := by
  simp only [postRecord]; split <;> simp [h, drainFault_wf]

@[simp] theorem postAnswerable_cores (s : State) (n : Nat) (r : Rec) (a : Agent) (o : Nat) : (s.postAnswerable n r a o).cores = s.cores := by
  simp [postAnswerable]
@[simp] theorem postAnswerable_parts (s : State) (n : Nat) (r : Rec) (a : Agent) (o : Nat) : (s.postAnswerable n r a o).parts = s.parts := by
  simp [postAnswerable]
theorem postAnswerable_wf {s : State} (h : Memory.wf s.mem = true) (n : Nat) (r : Rec) (a : Agent) (o : Nat) :
    Memory.wf (s.postAnswerable n r a o).mem = true := postRecord_wf (by simpa using h) _ _

@[simp] theorem postError_cores (s : State) (n : Nat) (r : Rec) : (s.postError n r).cores = s.cores := by simp [postError]
@[simp] theorem postError_parts (s : State) (n : Nat) (r : Rec) : (s.postError n r).parts = s.parts := by simp [postError]
theorem postError_wf {s : State} (h : Memory.wf s.mem = true) (n : Nat) (r : Rec) : Memory.wf (s.postError n r).mem = true :=
  postRecord_wf (by simpa using h) _ _

@[simp] theorem postUnit_cores (s : State) (n u : Nat) (r : Rec) : (s.postUnit n u r).cores = s.cores := by simp only [postUnit]; split <;> simp
@[simp] theorem postUnit_parts (s : State) (n u : Nat) (r : Rec) : (s.postUnit n u r).parts = s.parts := by simp only [postUnit]; split <;> simp
theorem postUnit_wf {s : State} (h : Memory.wf s.mem = true) (n u : Nat) (r : Rec) : Memory.wf (s.postUnit n u r).mem = true := by
  simp only [postUnit]; split <;> simp [h, postRecord_wf]

/-! ### Faults taken -/

@[simp] theorem takeFaultS_parts (s : State) (v : View) (i : FaultInfo) : (s.takeFaultS v i).parts = s.parts := by simp [takeFaultS]
@[simp] theorem takeFaultS_cores (s : State) (v : View) (i : FaultInfo) :
    (s.takeFaultS v i).cores = (s.modFibre v.g fun f => { f with frozen := true }).cores := by simp [takeFaultS]
theorem takeFaultS_wf {s : State} (h : Memory.wf s.mem = true) (v : View) (i : FaultInfo) : Memory.wf (s.takeFaultS v i).mem = true :=
  postAnswerable_wf (by simpa using h) _ _ _ _

theorem takeFaultG_wf {s : State} (h : Memory.wf s.mem = true) (c : CtxRef) (k o b : Byte) (a : DWord) (n : Nat) (w : Option IWord) :
    Memory.wf (s.takeFaultG c k o b a n w).mem = true := by
  simp only [takeFaultG]; split
  · exact h
  · exact postAnswerable_wf (by simpa using h) _ _ _ _

@[simp] theorem unfreeze_mem (s : State) (g : GroupRef) : (s.unfreeze g).mem = s.mem := by simp only [unfreeze]; split <;> simp
@[simp] theorem unfreeze_lines (s : State) (g : GroupRef) : (s.unfreeze g).lines = s.lines := by simp only [unfreeze]; split <;> simp
@[simp] theorem unfreeze_slices (s : State) (g : GroupRef) : (s.unfreeze g).slices = s.slices := by simp only [unfreeze]; split <;> simp

end Sys2Proof.Machine.State
end

