-- ==== Sys2Proof/Laws/PerInstr.lean ====
section
/-!
SUPPORT. What holds of every instruction as syntax, constructor by constructor.
-/

namespace Sys2Proof.Laws

/-- The opcode tables agree in both directions (R47): the major opcode that a well-formed word of a group class has gives the
instruction back from its fields and lies above the generator's opcodes; that of a generator word likewise, and lies among them. -/
def Opcode.Statement (i : Instr) : Prop :=
  (∀ op f, i.groupFields = some (op, f) → i.wellFormed = true → groupOfOp op f = some i ∧ 0x1A < op.toNat ∧ op ≠ 0xE0#8)
    ∧ (∀ op f, i.genFields = some (op, f) → i.wellFormed = true → genOfOp op f = some i ∧ op.toNat ≤ 0x1A)

/-- An instruction without an encoding of 96 bits. -/
theorem Opcode.none_of {i : Instr} (h : i.groupFields = none) (k : i.genFields = none) : Opcode.Statement i :=
  ⟨fun op f e => (by rw [h] at e; cases e), fun op f e => (by rw [k] at e; cases e)⟩

/-- A word of a group class whose opcode gives it back when it is well formed. -/
theorem Opcode.group_of {i : Instr} {op : BitVec 8} {f : Fields} (h : i.groupFields = some (op, f)) (k : i.genFields = none)
    (e : i.wellFormed = true → groupOfOp op f = some i) (n : 0x1A < op.toNat ∧ op ≠ 0xE0#8) : Opcode.Statement i := by
  refine ⟨fun op' f' q w => ?_, fun op' f' q => (by rw [k] at q; cases q)⟩
  rw [h] at q
  cases q
  exact ⟨e w, n⟩

/-- A generator word whose opcode gives it back when it is well formed. -/
theorem Opcode.gen_of {i : Instr} {op : BitVec 8} {f : GenFields} (h : i.genFields = some (op, f)) (k : i.groupFields = none)
    (e : i.wellFormed = true → genOfOp op f = some i) (n : op.toNat ≤ 0x1A) : Opcode.Statement i := by
  refine ⟨fun op' f' q => (by rw [k] at q; cases q), fun op' f' q w => ?_⟩
  rw [h] at q
  cases q
  exact ⟨e w, n⟩

/-- A group word that breaks its row's extension rule is not well formed. -/
theorem wellFormed_ext {i : Instr} {f : Fields} {s : Shape} (h : i.shape = some (f, s)) (w : i.wellFormed = true) :
    s.extOk = true := by
  unfold Instr.wellFormed at w
  rw [h] at w
  simp only [Shape.ok, Bool.and_eq_true] at w
  exact w.1.1.1.1.1.2

/-- A generator word that breaks its row's extension rule is not well formed. -/
theorem wellFormed_genExt {i : Instr} {f : GenFields} {s : GenShape} (k : i.shape = none) (h : i.genShape = some (f, s))
    (w : i.wellFormed = true) : s.extOk = true := by
  unfold Instr.wellFormed at w
  rw [k, h] at w
  simp only [GenShape.ok, Bool.and_eq_true] at w
  exact w.1.1.1.2

/-- An extension with no value is neither an immediate nor a relative target. -/
theorem ext_none {e : Ext} (h : e.isNone = true) : e = .none := by simpa [Ext.isNone] using h

theorem Opcode.galu (f : GenFields) : Opcode.Statement (.galu f) :=
  Opcode.gen_of rfl rfl (fun _ => rfl) (by decide)
theorem Opcode.gmovi (f : GenFields) : Opcode.Statement (.gmovi f) :=
  Opcode.gen_of rfl rfl (fun _ => rfl) (by decide)
theorem Opcode.gld (f : GenFields) : Opcode.Statement (.gld f) :=
  Opcode.gen_of rfl rfl (fun _ => rfl) (by decide)
theorem Opcode.gst (f : GenFields) : Opcode.Statement (.gst f) :=
  Opcode.gen_of rfl rfl (fun _ => rfl) (by decide)
theorem Opcode.gbr (f : GenFields) : Opcode.Statement (.gbr f) :=
  Opcode.gen_of rfl rfl (fun _ => rfl) (by decide)
theorem Opcode.gjmp (f : GenFields) : Opcode.Statement (.gjmp f) :=
  Opcode.gen_of rfl rfl (fun w => by simp [genOfOp, show f.ext.isRel = true from wellFormed_genExt rfl rfl w]) (by decide)
theorem Opcode.gjmpReg (f : GenFields) : Opcode.Statement (.gjmpReg f) :=
  Opcode.gen_of rfl rfl (fun w => by simp [genOfOp, show f.ext = .none from ext_none (wellFormed_genExt rfl rfl w), Ext.isRel]) (by decide)
theorem Opcode.gcall (f : GenFields) : Opcode.Statement (.gcall f) :=
  Opcode.gen_of rfl rfl (fun w => by simp [genOfOp, show f.ext.isRel = true from wellFormed_genExt rfl rfl w]) (by decide)
theorem Opcode.gcallReg (f : GenFields) : Opcode.Statement (.gcallReg f) :=
  Opcode.gen_of rfl rfl (fun w => by simp [genOfOp, show f.ext = .none from ext_none (wellFormed_genExt rfl rfl w), Ext.isRel]) (by decide)
theorem Opcode.gret (f : GenFields) : Opcode.Statement (.gret f) :=
  Opcode.gen_of rfl rfl (fun _ => rfl) (by decide)
theorem Opcode.gemit (f : GenFields) : Opcode.Statement (.gemit f) :=
  Opcode.gen_of rfl rfl (fun _ => rfl) (by decide)
theorem Opcode.gemitt (f : GenFields) : Opcode.Statement (.gemitt f) :=
  Opcode.gen_of rfl rfl (fun _ => rfl) (by decide)
theorem Opcode.gemitb (f : GenFields) : Opcode.Statement (.gemitb f) :=
  Opcode.gen_of rfl rfl (fun _ => rfl) (by decide)
theorem Opcode.gblkopen (f : GenFields) : Opcode.Statement (.gblkopen f) :=
  Opcode.gen_of rfl rfl (fun _ => rfl) (by decide)
theorem Opcode.gblkseal (f : GenFields) : Opcode.Statement (.gblkseal f) :=
  Opcode.gen_of rfl rfl (fun _ => rfl) (by decide)
theorem Opcode.gblkfind (f : GenFields) : Opcode.Statement (.gblkfind f) :=
  Opcode.gen_of rfl rfl (fun _ => rfl) (by decide)
theorem Opcode.gblkfree (f : GenFields) : Opcode.Statement (.gblkfree f) :=
  Opcode.gen_of rfl rfl (fun _ => rfl) (by decide)
theorem Opcode.gblkload (f : GenFields) : Opcode.Statement (.gblkload f) :=
  Opcode.gen_of rfl rfl (fun _ => rfl) (by decide)
theorem Opcode.gstart (f : GenFields) : Opcode.Statement (.gstart f) :=
  Opcode.gen_of rfl rfl (fun _ => rfl) (by decide)
theorem Opcode.gentry (f : GenFields) : Opcode.Statement (.gentry f) :=
  Opcode.gen_of rfl rfl (fun _ => rfl) (by decide)
theorem Opcode.gwaitb (f : GenFields) : Opcode.Statement (.gwaitb f) :=
  Opcode.gen_of rfl rfl (fun _ => rfl) (by decide)
theorem Opcode.gyield (f : GenFields) : Opcode.Statement (.gyield f) :=
  Opcode.gen_of rfl rfl (fun _ => rfl) (by decide)
theorem Opcode.gexit (f : GenFields) : Opcode.Statement (.gexit f) :=
  Opcode.gen_of rfl rfl (fun _ => rfl) (by decide)
theorem Opcode.gacq (f : GenFields) : Opcode.Statement (.gacq f) :=
  Opcode.gen_of rfl rfl (fun _ => rfl) (by decide)
theorem Opcode.grel (f : GenFields) : Opcode.Statement (.grel f) :=
  Opcode.gen_of rfl rfl (fun _ => rfl) (by decide)
theorem Opcode.grdsr (f : GenFields) : Opcode.Statement (.grdsr f) :=
  Opcode.gen_of rfl rfl (fun _ => rfl) (by decide)
theorem Opcode.gatom (f : GenFields) : Opcode.Statement (.gatom f) :=
  Opcode.gen_of rfl rfl (fun _ => rfl) (by decide)
theorem Opcode.gfence (f : GenFields) : Opcode.Statement (.gfence f) :=
  Opcode.gen_of rfl rfl (fun _ => rfl) (by decide)
theorem Opcode.nop (f : Fields) : Opcode.Statement (.nop f) :=
  Opcode.group_of rfl rfl (fun _ => rfl) (by decide)
theorem Opcode.bra (f : Fields) : Opcode.Statement (.bra f) :=
  Opcode.group_of rfl rfl (fun _ => rfl) (by decide)
theorem Opcode.brc (f : Fields) : Opcode.Statement (.brc f) :=
  Opcode.group_of rfl rfl (fun _ => rfl) (by decide)
theorem Opcode.brx (f : Fields) : Opcode.Statement (.brx f) :=
  Opcode.group_of rfl rfl (fun _ => rfl) (by decide)
theorem Opcode.call (f : Fields) : Opcode.Statement (.call f) :=
  Opcode.group_of rfl rfl (fun w => by simp [groupOfOp, show f.ext.isRel = true from wellFormed_ext rfl w]) (by decide)
theorem Opcode.callReg (f : Fields) : Opcode.Statement (.callReg f) :=
  Opcode.group_of rfl rfl (fun w => by simp [groupOfOp, show f.ext = .none from ext_none (wellFormed_ext rfl w), Ext.isRel]) (by decide)
theorem Opcode.ret (f : Fields) : Opcode.Statement (.ret f) :=
  Opcode.group_of rfl rfl (fun _ => rfl) (by decide)
theorem Opcode.loop (f : Fields) : Opcode.Statement (.loop f) :=
  Opcode.group_of rfl rfl (fun _ => rfl) (by decide)
theorem Opcode.mask (f : Fields) : Opcode.Statement (.mask f) :=
  Opcode.group_of rfl rfl (fun _ => rfl) (by decide)
theorem Opcode.spawn (f : Fields) : Opcode.Statement (.spawn f) :=
  Opcode.group_of rfl rfl (fun _ => rfl) (by decide)
theorem Opcode.exit (f : Fields) : Opcode.Statement (.exit f) :=
  Opcode.group_of rfl rfl (fun _ => rfl) (by decide)
theorem Opcode.yield (f : Fields) : Opcode.Statement (.yield f) :=
  Opcode.group_of rfl rfl (fun _ => rfl) (by decide)
theorem Opcode.fbar (f : Fields) : Opcode.Statement (.fbar f) :=
  Opcode.group_of rfl rfl (fun _ => rfl) (by decide)
theorem Opcode.waitc (f : Fields) : Opcode.Statement (.waitc f) :=
  Opcode.group_of rfl rfl (fun w => by have e : f.ext.immBelow 6 = true := wellFormed_ext rfl w; cases h : f.ext <;> simp_all [groupOfOp, Ext.immBelow, Ext.isImm]) (by decide)
theorem Opcode.waitcReg (f : Fields) : Opcode.Statement (.waitcReg f) :=
  Opcode.group_of rfl rfl (fun w => by simp [groupOfOp, show f.ext = .none from ext_none (wellFormed_ext rfl w), Ext.isImm]) (by decide)
theorem Opcode.iadd (f : Fields) : Opcode.Statement (.iadd f) :=
  Opcode.group_of rfl rfl (fun _ => rfl) (by decide)
theorem Opcode.isub (f : Fields) : Opcode.Statement (.isub f) :=
  Opcode.group_of rfl rfl (fun _ => rfl) (by decide)
theorem Opcode.imul (f : Fields) : Opcode.Statement (.imul f) :=
  Opcode.group_of rfl rfl (fun _ => rfl) (by decide)
theorem Opcode.imulh (f : Fields) : Opcode.Statement (.imulh f) :=
  Opcode.group_of rfl rfl (fun _ => rfl) (by decide)
theorem Opcode.imad (f : Fields) : Opcode.Statement (.imad f) :=
  Opcode.group_of rfl rfl (fun _ => rfl) (by decide)
theorem Opcode.imulw (f : Fields) : Opcode.Statement (.imulw f) :=
  Opcode.group_of rfl rfl (fun _ => rfl) (by decide)
theorem Opcode.idiv (f : Fields) : Opcode.Statement (.idiv f) :=
  Opcode.group_of rfl rfl (fun _ => rfl) (by decide)
theorem Opcode.imin (f : Fields) : Opcode.Statement (.imin f) :=
  Opcode.group_of rfl rfl (fun _ => rfl) (by decide)
theorem Opcode.imax (f : Fields) : Opcode.Statement (.imax f) :=
  Opcode.group_of rfl rfl (fun _ => rfl) (by decide)
theorem Opcode.iabs (f : Fields) : Opcode.Statement (.iabs f) :=
  Opcode.group_of rfl rfl (fun _ => rfl) (by decide)
theorem Opcode.and (f : Fields) : Opcode.Statement (.and f) :=
  Opcode.group_of rfl rfl (fun _ => rfl) (by decide)
theorem Opcode.or (f : Fields) : Opcode.Statement (.or f) :=
  Opcode.group_of rfl rfl (fun _ => rfl) (by decide)
theorem Opcode.xor (f : Fields) : Opcode.Statement (.xor f) :=
  Opcode.group_of rfl rfl (fun _ => rfl) (by decide)
theorem Opcode.andn (f : Fields) : Opcode.Statement (.andn f) :=
  Opcode.group_of rfl rfl (fun _ => rfl) (by decide)
theorem Opcode.shl (f : Fields) : Opcode.Statement (.shl f) :=
  Opcode.group_of rfl rfl (fun _ => rfl) (by decide)
theorem Opcode.shr (f : Fields) : Opcode.Statement (.shr f) :=
  Opcode.group_of rfl rfl (fun _ => rfl) (by decide)
theorem Opcode.sra (f : Fields) : Opcode.Statement (.sra f) :=
  Opcode.group_of rfl rfl (fun _ => rfl) (by decide)
theorem Opcode.rot (f : Fields) : Opcode.Statement (.rot f) :=
  Opcode.group_of rfl rfl (fun _ => rfl) (by decide)
theorem Opcode.shf (f : Fields) : Opcode.Statement (.shf f) :=
  Opcode.group_of rfl rfl (fun _ => rfl) (by decide)
theorem Opcode.bfx (f : Fields) : Opcode.Statement (.bfx f) :=
  Opcode.group_of rfl rfl (fun _ => rfl) (by decide)
theorem Opcode.bfi (f : Fields) : Opcode.Statement (.bfi f) :=
  Opcode.group_of rfl rfl (fun _ => rfl) (by decide)
theorem Opcode.popc (f : Fields) : Opcode.Statement (.popc f) :=
  Opcode.group_of rfl rfl (fun _ => rfl) (by decide)
theorem Opcode.clz (f : Fields) : Opcode.Statement (.clz f) :=
  Opcode.group_of rfl rfl (fun _ => rfl) (by decide)
theorem Opcode.ctz (f : Fields) : Opcode.Statement (.ctz f) :=
  Opcode.group_of rfl rfl (fun _ => rfl) (by decide)
theorem Opcode.brev (f : Fields) : Opcode.Statement (.brev f) :=
  Opcode.group_of rfl rfl (fun _ => rfl) (by decide)
theorem Opcode.icmp (f : Fields) : Opcode.Statement (.icmp f) :=
  Opcode.group_of rfl rfl (fun _ => rfl) (by decide)
theorem Opcode.sel (f : Fields) : Opcode.Statement (.sel f) :=
  Opcode.group_of rfl rfl (fun _ => rfl) (by decide)
theorem Opcode.mov (f : Fields) : Opcode.Statement (.mov f) :=
  Opcode.group_of rfl rfl (fun _ => rfl) (by decide)
theorem Opcode.iadd64 (f : Fields) : Opcode.Statement (.iadd64 f) :=
  Opcode.group_of rfl rfl (fun _ => rfl) (by decide)
theorem Opcode.isub64 (f : Fields) : Opcode.Statement (.isub64 f) :=
  Opcode.group_of rfl rfl (fun _ => rfl) (by decide)
theorem Opcode.lea (f : Fields) : Opcode.Statement (.lea f) :=
  Opcode.group_of rfl rfl (fun _ => rfl) (by decide)
theorem Opcode.isad (f : Fields) : Opcode.Statement (.isad f) :=
  Opcode.group_of rfl rfl (fun _ => rfl) (by decide)
theorem Opcode.fadd (f : Fields) : Opcode.Statement (.fadd f) :=
  Opcode.group_of rfl rfl (fun _ => rfl) (by decide)
theorem Opcode.fsub (f : Fields) : Opcode.Statement (.fsub f) :=
  Opcode.group_of rfl rfl (fun _ => rfl) (by decide)
theorem Opcode.fmul (f : Fields) : Opcode.Statement (.fmul f) :=
  Opcode.group_of rfl rfl (fun _ => rfl) (by decide)
theorem Opcode.ffma (f : Fields) : Opcode.Statement (.ffma f) :=
  Opcode.group_of rfl rfl (fun _ => rfl) (by decide)
theorem Opcode.fmin (f : Fields) : Opcode.Statement (.fmin f) :=
  Opcode.group_of rfl rfl (fun _ => rfl) (by decide)
theorem Opcode.fmax (f : Fields) : Opcode.Statement (.fmax f) :=
  Opcode.group_of rfl rfl (fun _ => rfl) (by decide)
theorem Opcode.fcmp (f : Fields) : Opcode.Statement (.fcmp f) :=
  Opcode.group_of rfl rfl (fun _ => rfl) (by decide)
theorem Opcode.frnd (f : Fields) : Opcode.Statement (.frnd f) :=
  Opcode.group_of rfl rfl (fun _ => rfl) (by decide)
theorem Opcode.fclass (f : Fields) : Opcode.Statement (.fclass f) :=
  Opcode.group_of rfl rfl (fun _ => rfl) (by decide)
theorem Opcode.fscale (f : Fields) : Opcode.Statement (.fscale f) :=
  Opcode.group_of rfl rfl (fun _ => rfl) (by decide)
theorem Opcode.fdot2 (f : Fields) : Opcode.Statement (.fdot2 f) :=
  Opcode.group_of rfl rfl (fun _ => rfl) (by decide)
theorem Opcode.fdot4 (f : Fields) : Opcode.Statement (.fdot4 f) :=
  Opcode.group_of rfl rfl (fun _ => rfl) (by decide)
theorem Opcode.hadd2 (f : Fields) : Opcode.Statement (.hadd2 f) :=
  Opcode.group_of rfl rfl (fun _ => rfl) (by decide)
theorem Opcode.hmul2 (f : Fields) : Opcode.Statement (.hmul2 f) :=
  Opcode.group_of rfl rfl (fun _ => rfl) (by decide)
theorem Opcode.hfma2 (f : Fields) : Opcode.Statement (.hfma2 f) :=
  Opcode.group_of rfl rfl (fun _ => rfl) (by decide)
theorem Opcode.hmnx2 (f : Fields) : Opcode.Statement (.hmnx2 f) :=
  Opcode.group_of rfl rfl (fun _ => rfl) (by decide)
theorem Opcode.hcmp2 (f : Fields) : Opcode.Statement (.hcmp2 f) :=
  Opcode.group_of rfl rfl (fun _ => rfl) (by decide)
theorem Opcode.rcp (f : Fields) : Opcode.Statement (.rcp f) :=
  Opcode.group_of rfl rfl (fun _ => rfl) (by decide)
theorem Opcode.rsq (f : Fields) : Opcode.Statement (.rsq f) :=
  Opcode.group_of rfl rfl (fun _ => rfl) (by decide)
theorem Opcode.sqrt (f : Fields) : Opcode.Statement (.sqrt f) :=
  Opcode.group_of rfl rfl (fun _ => rfl) (by decide)
theorem Opcode.exp2 (f : Fields) : Opcode.Statement (.exp2 f) :=
  Opcode.group_of rfl rfl (fun _ => rfl) (by decide)
theorem Opcode.log2 (f : Fields) : Opcode.Statement (.log2 f) :=
  Opcode.group_of rfl rfl (fun _ => rfl) (by decide)
theorem Opcode.sin (f : Fields) : Opcode.Statement (.sin f) :=
  Opcode.group_of rfl rfl (fun _ => rfl) (by decide)
theorem Opcode.cos (f : Fields) : Opcode.Statement (.cos f) :=
  Opcode.group_of rfl rfl (fun _ => rfl) (by decide)
theorem Opcode.tanh (f : Fields) : Opcode.Statement (.tanh f) :=
  Opcode.group_of rfl rfl (fun _ => rfl) (by decide)
theorem Opcode.fdiv (f : Fields) : Opcode.Statement (.fdiv f) :=
  Opcode.group_of rfl rfl (fun _ => rfl) (by decide)
theorem Opcode.cvt (f : Fields) : Opcode.Statement (.cvt f) :=
  Opcode.group_of rfl rfl (fun _ => rfl) (by decide)
theorem Opcode.cvtq (f : Fields) : Opcode.Statement (.cvtq f) :=
  Opcode.group_of rfl rfl (fun _ => rfl) (by decide)
theorem Opcode.cvtd (f : Fields) : Opcode.Statement (.cvtd f) :=
  Opcode.group_of rfl rfl (fun _ => rfl) (by decide)
theorem Opcode.pack6 (f : Fields) : Opcode.Statement (.pack6 f) :=
  Opcode.group_of rfl rfl (fun _ => rfl) (by decide)
theorem Opcode.unpk6 (f : Fields) : Opcode.Statement (.unpk6 f) :=
  Opcode.group_of rfl rfl (fun _ => rfl) (by decide)
theorem Opcode.prmt (f : Fields) : Opcode.Statement (.prmt f) :=
  Opcode.group_of rfl rfl (fun _ => rfl) (by decide)
theorem Opcode.tag (f : Fields) : Opcode.Statement (.tag f) :=
  Opcode.group_of rfl rfl (fun _ => rfl) (by decide)
theorem Opcode.bscale (f : Fields) : Opcode.Statement (.bscale f) :=
  Opcode.group_of rfl rfl (fun _ => rfl) (by decide)
theorem Opcode.shfl (f : Fields) : Opcode.Statement (.shfl f) :=
  Opcode.group_of rfl rfl (fun _ => rfl) (by decide)
theorem Opcode.vote (f : Fields) : Opcode.Statement (.vote f) :=
  Opcode.group_of rfl rfl (fun _ => rfl) (by decide)
theorem Opcode.matchLanes (f : Fields) : Opcode.Statement (.matchLanes f) :=
  Opcode.group_of rfl rfl (fun _ => rfl) (by decide)
theorem Opcode.red (f : Fields) : Opcode.Statement (.red f) :=
  Opcode.group_of rfl rfl (fun _ => rfl) (by decide)
theorem Opcode.redmi (f : Fields) : Opcode.Statement (.redmi f) :=
  Opcode.group_of rfl rfl (fun _ => rfl) (by decide)
theorem Opcode.scan (f : Fields) : Opcode.Statement (.scan f) :=
  Opcode.group_of rfl rfl (fun _ => rfl) (by decide)
theorem Opcode.bcst (f : Fields) : Opcode.Statement (.bcst f) :=
  Opcode.group_of rfl rfl (fun _ => rfl) (by decide)
theorem Opcode.ld (f : Fields) : Opcode.Statement (.ld f) :=
  Opcode.group_of rfl rfl (fun _ => rfl) (by decide)
theorem Opcode.st (f : Fields) : Opcode.Statement (.st f) :=
  Opcode.group_of rfl rfl (fun _ => rfl) (by decide)
theorem Opcode.lds (f : Fields) : Opcode.Statement (.lds f) :=
  Opcode.group_of rfl rfl (fun _ => rfl) (by decide)
theorem Opcode.sts (f : Fields) : Opcode.Statement (.sts f) :=
  Opcode.group_of rfl rfl (fun _ => rfl) (by decide)
theorem Opcode.ldr (f : Fields) : Opcode.Statement (.ldr f) :=
  Opcode.group_of rfl rfl (fun _ => rfl) (by decide)
theorem Opcode.str (f : Fields) : Opcode.Statement (.str f) :=
  Opcode.group_of rfl rfl (fun _ => rfl) (by decide)
theorem Opcode.ldc (f : Fields) : Opcode.Statement (.ldc f) :=
  Opcode.group_of rfl rfl (fun _ => rfl) (by decide)
theorem Opcode.atom (f : Fields) : Opcode.Statement (.atom f) :=
  Opcode.group_of rfl rfl (fun _ => rfl) (by decide)
theorem Opcode.atoms (f : Fields) : Opcode.Statement (.atoms f) :=
  Opcode.group_of rfl rfl (fun _ => rfl) (by decide)
theorem Opcode.pref (f : Fields) : Opcode.Statement (.pref f) :=
  Opcode.group_of rfl rfl (fun _ => rfl) (by decide)
theorem Opcode.cinv (f : Fields) : Opcode.Statement (.cinv f) :=
  Opcode.group_of rfl rfl (fun _ => rfl) (by decide)
theorem Opcode.cwb (f : Fields) : Opcode.Statement (.cwb f) :=
  Opcode.group_of rfl rfl (fun _ => rfl) (by decide)
theorem Opcode.acq (f : Fields) : Opcode.Statement (.acq f) :=
  Opcode.group_of rfl rfl (fun _ => rfl) (by decide)
theorem Opcode.rel (f : Fields) : Opcode.Statement (.rel f) :=
  Opcode.group_of rfl rfl (fun _ => rfl) (by decide)
theorem Opcode.mbind (f : Fields) : Opcode.Statement (.mbind f) :=
  Opcode.group_of rfl rfl (fun _ => rfl) (by decide)
theorem Opcode.munbind (f : Fields) : Opcode.Statement (.munbind f) :=
  Opcode.group_of rfl rfl (fun _ => rfl) (by decide)
theorem Opcode.fence (f : Fields) : Opcode.Statement (.fence f) :=
  Opcode.group_of rfl rfl (fun _ => rfl) (by decide)
theorem Opcode.bar (f : Fields) : Opcode.Statement (.bar f) :=
  Opcode.group_of rfl rfl (fun _ => rfl) (by decide)
theorem Opcode.cbar (f : Fields) : Opcode.Statement (.cbar f) :=
  Opcode.group_of rfl rfl (fun _ => rfl) (by decide)
theorem Opcode.await (f : Fields) : Opcode.Statement (.await f) :=
  Opcode.group_of rfl rfl (fun _ => rfl) (by decide)
theorem Opcode.awake (f : Fields) : Opcode.Statement (.awake f) :=
  Opcode.group_of rfl rfl (fun _ => rfl) (by decide)
theorem Opcode.cpy (f : Fields) : Opcode.Statement (.cpy f) :=
  Opcode.group_of rfl rfl (fun _ => rfl) (by decide)
theorem Opcode.cpyg (f : Fields) : Opcode.Statement (.cpyg f) :=
  Opcode.group_of rfl rfl (fun _ => rfl) (by decide)
theorem Opcode.cpym (f : Fields) : Opcode.Statement (.cpym f) :=
  Opcode.group_of rfl rfl (fun _ => rfl) (by decide)
theorem Opcode.cpyn (f : Fields) : Opcode.Statement (.cpyn f) :=
  Opcode.group_of rfl rfl (fun _ => rfl) (by decide)
theorem Opcode.cpyf (f : Fields) : Opcode.Statement (.cpyf f) :=
  Opcode.group_of rfl rfl (fun _ => rfl) (by decide)
theorem Opcode.mapres (f : Fields) : Opcode.Statement (.mapres f) :=
  Opcode.group_of rfl rfl (fun _ => rfl) (by decide)
theorem Opcode.mapset (f : Fields) : Opcode.Statement (.mapset f) :=
  Opcode.group_of rfl rfl (fun _ => rfl) (by decide)
theorem Opcode.mapget (f : Fields) : Opcode.Statement (.mapget f) :=
  Opcode.group_of rfl rfl (fun _ => rfl) (by decide)
theorem Opcode.maprel (f : Fields) : Opcode.Statement (.maprel f) :=
  Opcode.group_of rfl rfl (fun _ => rfl) (by decide)
theorem Opcode.mma (f : Fields) : Opcode.Statement (.mma f) :=
  Opcode.group_of rfl rfl (fun _ => rfl) (by decide)
theorem Opcode.mmas (f : Fields) : Opcode.Statement (.mmas f) :=
  Opcode.group_of rfl rfl (fun _ => rfl) (by decide)
theorem Opcode.mmag (f : Fields) : Opcode.Statement (.mmag f) :=
  Opcode.group_of rfl rfl (fun _ => rfl) (by decide)
theorem Opcode.accz (f : Fields) : Opcode.Statement (.accz f) :=
  Opcode.group_of rfl rfl (fun _ => rfl) (by decide)
theorem Opcode.accld (f : Fields) : Opcode.Statement (.accld f) :=
  Opcode.group_of rfl rfl (fun _ => rfl) (by decide)
theorem Opcode.accst (f : Fields) : Opcode.Statement (.accst f) :=
  Opcode.group_of rfl rfl (fun _ => rfl) (by decide)
theorem Opcode.accq (f : Fields) : Opcode.Statement (.accq f) :=
  Opcode.group_of rfl rfl (fun _ => rfl) (by decide)
theorem Opcode.accadd (f : Fields) : Opcode.Statement (.accadd f) :=
  Opcode.group_of rfl rfl (fun _ => rfl) (by decide)
theorem Opcode.sysc (f : Fields) : Opcode.Statement (.sysc f) :=
  Opcode.group_of rfl rfl (fun _ => rfl) (by decide)
theorem Opcode.rets (f : Fields) : Opcode.Statement (.rets f) :=
  Opcode.group_of rfl rfl (fun _ => rfl) (by decide)
theorem Opcode.trap (f : Fields) : Opcode.Statement (.trap f) :=
  Opcode.group_of rfl rfl (fun w => by simp [groupOfOp, show f.ext.isImm = true from wellFormed_ext rfl w]) (by decide)
theorem Opcode.trapReg (f : Fields) : Opcode.Statement (.trapReg f) :=
  Opcode.group_of rfl rfl (fun w => by simp [groupOfOp, show f.ext = .none from ext_none (wellFormed_ext rfl w), Ext.isImm]) (by decide)
theorem Opcode.brk (f : Fields) : Opcode.Statement (.brk f) :=
  Opcode.group_of rfl rfl (fun w => by simp [groupOfOp, show f.ext.isImm = true from wellFormed_ext rfl w]) (by decide)
theorem Opcode.brkReg (f : Fields) : Opcode.Statement (.brkReg f) :=
  Opcode.group_of rfl rfl (fun w => by simp [groupOfOp, show f.ext = .none from ext_none (wellFormed_ext rfl w), Ext.isImm]) (by decide)
theorem Opcode.rdsr (f : Fields) : Opcode.Statement (.rdsr f) :=
  Opcode.group_of rfl rfl (fun _ => rfl) (by decide)
theorem Opcode.wrsr (f : Fields) : Opcode.Statement (.wrsr f) :=
  Opcode.group_of rfl rfl (fun _ => rfl) (by decide)
theorem Opcode.intr (f : Fields) : Opcode.Statement (.intr f) :=
  Opcode.group_of rfl rfl (fun _ => rfl) (by decide)
theorem Opcode.psave (f : Fields) : Opcode.Statement (.psave f) :=
  Opcode.group_of rfl rfl (fun _ => rfl) (by decide)
theorem Opcode.ctxsave (f : Fields) : Opcode.Statement (.ctxsave f) :=
  Opcode.group_of rfl rfl (fun _ => rfl) (by decide)
theorem Opcode.ctxload (f : Fields) : Opcode.Statement (.ctxload f) :=
  Opcode.group_of rfl rfl (fun _ => rfl) (by decide)
theorem Opcode.tlbinv (f : Fields) : Opcode.Statement (.tlbinv f) :=
  Opcode.group_of rfl rfl (fun _ => rfl) (by decide)
theorem Opcode.pair (p : PairFields) : Opcode.Statement (.pair p) :=
  Opcode.none_of rfl rfl
theorem Opcode.dwAwait (rd rs1 rs2 : BitVec 5) : Opcode.Statement (.dwAwait rd rs1 rs2) :=
  Opcode.none_of rfl rfl
theorem Opcode.dwAwake (rd rs1 : BitVec 5) : Opcode.Statement (.dwAwake rd rs1) :=
  Opcode.none_of rfl rfl
theorem Opcode.dwAwakeAll (rd rs1 : BitVec 5) : Opcode.Statement (.dwAwakeAll rd rs1) :=
  Opcode.none_of rfl rfl
theorem Opcode.packageBoot (kernels : List (Nat × List Byte)) : Opcode.Statement (.packageBoot kernels) :=
  Opcode.none_of rfl rfl
theorem Opcode.loaderRetry (part : Nat) (image : List Byte) : Opcode.Statement (.loaderRetry part image) :=
  Opcode.none_of rfl rfl
theorem Opcode.bootWatchdogExpiry (part : Nat) : Opcode.Statement (.bootWatchdogExpiry part) :=
  Opcode.none_of rfl rfl
theorem Opcode.rootProvision (root : BitVec 256) (index : BitVec 20) : Opcode.Statement (.rootProvision root index) :=
  Opcode.none_of rfl rfl
theorem Opcode.ident (slice : Nat) : Opcode.Statement (.ident slice) :=
  Opcode.none_of rfl rfl
theorem Opcode.bootok (slice : Nat) : Opcode.Statement (.bootok slice) :=
  Opcode.none_of rfl rfl
theorem Opcode.ptext (slice : Nat) : Opcode.Statement (.ptext slice) :=
  Opcode.none_of rfl rfl
theorem Opcode.wbind (slice : Nat) : Opcode.Statement (.wbind slice) :=
  Opcode.none_of rfl rfl
theorem Opcode.assign (slice : Nat) : Opcode.Statement (.assign slice) :=
  Opcode.none_of rfl rfl
theorem Opcode.rdrop (slice : Nat) : Opcode.Statement (.rdrop slice) :=
  Opcode.none_of rfl rfl
theorem Opcode.radd (slice : Nat) : Opcode.Statement (.radd slice) :=
  Opcode.none_of rfl rfl
theorem Opcode.join (slice : Nat) : Opcode.Statement (.join slice) :=
  Opcode.none_of rfl rfl
theorem Opcode.leavebegin (slice : Nat) : Opcode.Statement (.leavebegin slice) :=
  Opcode.none_of rfl rfl
theorem Opcode.leave (slice : Nat) : Opcode.Statement (.leave slice) :=
  Opcode.none_of rfl rfl
theorem Opcode.attest (slice : Nat) : Opcode.Statement (.attest slice) :=
  Opcode.none_of rfl rfl
theorem Opcode.attkey (slice : Nat) : Opcode.Statement (.attkey slice) :=
  Opcode.none_of rfl rfl
theorem Opcode.recover (slice : Nat) : Opcode.Statement (.recover slice) :=
  Opcode.none_of rfl rfl
theorem Opcode.mailboxOverrun (slice : Nat) (code : Byte) : Opcode.Statement (.mailboxOverrun slice code) :=
  Opcode.none_of rfl rfl
theorem Opcode.launchTableWrite (part : Nat) (index : BitVec 8) (offset : Nat) (size : Nat) (value : DWord) : Opcode.Statement (.launchTableWrite part index offset size value) :=
  Opcode.none_of rfl rfl
theorem Opcode.launchTableTakeEffect (core : Nat) (index : BitVec 8) : Opcode.Statement (.launchTableTakeEffect core index) :=
  Opcode.none_of rfl rfl
theorem Opcode.spillRefill (part : Nat) (index : BitVec 8) : Opcode.Statement (.spillRefill part index) :=
  Opcode.none_of rfl rfl
theorem Opcode.launchDequeue (part : Nat) (index : BitVec 8) : Opcode.Statement (.launchDequeue part index) :=
  Opcode.none_of rfl rfl
theorem Opcode.teamPlace (part : Nat) (index : BitVec 8) (core : Nat) : Opcode.Statement (.teamPlace part index core) :=
  Opcode.none_of rfl rfl
theorem Opcode.blockReclaim (core block : Nat) : Opcode.Statement (.blockReclaim core block) :=
  Opcode.none_of rfl rfl
theorem Opcode.emitDrain (core : Nat) : Opcode.Statement (.emitDrain core) :=
  Opcode.none_of rfl rfl
theorem Opcode.blockOpenGrant (c : CtxRef) : Opcode.Statement (.blockOpenGrant c) :=
  Opcode.none_of rfl rfl
theorem Opcode.blockOpenTimeout (c : CtxRef) : Opcode.Statement (.blockOpenTimeout c) :=
  Opcode.none_of rfl rfl
theorem Opcode.gwaitbWake (c : CtxRef) : Opcode.Statement (.gwaitbWake c) :=
  Opcode.none_of rfl rfl
theorem Opcode.gwaitbTimeout (c : CtxRef) : Opcode.Statement (.gwaitbTimeout c) :=
  Opcode.none_of rfl rfl
theorem Opcode.gyieldEnd (c : CtxRef) : Opcode.Statement (.gyieldEnd c) :=
  Opcode.none_of rfl rfl
theorem Opcode.resultLand (g : GroupRef) : Opcode.Statement (.resultLand g) :=
  Opcode.none_of rfl rfl
theorem Opcode.memoryAccessComplete (g : GroupRef) (id : Nat) (lead : Fin 32) : Opcode.Statement (.memoryAccessComplete g id lead) :=
  Opcode.none_of rfl rfl
theorem Opcode.walkReturn (slice walk : Nat) : Opcode.Statement (.walkReturn slice walk) :=
  Opcode.none_of rfl rfl
theorem Opcode.accessFaultDetect (g : GroupRef) (id : Nat) : Opcode.Statement (.accessFaultDetect g id) :=
  Opcode.none_of rfl rfl
theorem Opcode.sfuAccept (core sub : Nat) : Opcode.Statement (.sfuAccept core sub) :=
  Opcode.none_of rfl rfl
theorem Opcode.sfuComplete (core sub id : Nat) : Opcode.Statement (.sfuComplete core sub id) :=
  Opcode.none_of rfl rfl
theorem Opcode.spawnComplete (g : GroupRef) (id : Nat) : Opcode.Statement (.spawnComplete g id) :=
  Opcode.none_of rfl rfl
theorem Opcode.cellGrant (part cell : Nat) : Opcode.Statement (.cellGrant part cell) :=
  Opcode.none_of rfl rfl
theorem Opcode.copySegmentIssue (core : Nat) : Opcode.Statement (.copySegmentIssue core) :=
  Opcode.none_of rfl rfl
theorem Opcode.copyComplete (core id : Nat) : Opcode.Statement (.copyComplete core id) :=
  Opcode.none_of rfl rfl
theorem Opcode.adeserSegmentRx (slice : Nat) (seg : AdeserSegment) : Opcode.Statement (.adeserSegmentRx slice seg) :=
  Opcode.none_of rfl rfl
theorem Opcode.adeserAck (core id segment : Nat) (data : List Byte) (refused : Bool) : Opcode.Statement (.adeserAck core id segment data refused) :=
  Opcode.none_of rfl rfl
theorem Opcode.adeserResendTimeout (core id segment : Nat) : Opcode.Statement (.adeserResendTimeout core id segment) :=
  Opcode.none_of rfl rfl
theorem Opcode.matrixOpStart (core sub : Nat) : Opcode.Statement (.matrixOpStart core sub) :=
  Opcode.none_of rfl rfl
theorem Opcode.matrixOccupancyEnd (core sub : Nat) : Opcode.Statement (.matrixOccupancyEnd core sub) :=
  Opcode.none_of rfl rfl
theorem Opcode.matrixOpComplete (core sub id : Nat) : Opcode.Statement (.matrixOpComplete core sub id) :=
  Opcode.none_of rfl rfl
theorem Opcode.limiterWindow (core : Nat) : Opcode.Statement (.limiterWindow core) :=
  Opcode.none_of rfl rfl
theorem Opcode.l1SpontaneousWriteback (core line : Nat) (drop : Bool) : Opcode.Statement (.l1SpontaneousWriteback core line drop) :=
  Opcode.none_of rfl rfl
theorem Opcode.preemptRequest (c : CtxRef) : Opcode.Statement (.preemptRequest c) :=
  Opcode.none_of rfl rfl
theorem Opcode.preemptCancel (c : CtxRef) : Opcode.Statement (.preemptCancel c) :=
  Opcode.none_of rfl rfl
theorem Opcode.force (c : CtxRef) : Opcode.Statement (.force c) :=
  Opcode.none_of rfl rfl
theorem Opcode.deadlineExpiry (c : CtxRef) : Opcode.Statement (.deadlineExpiry c) :=
  Opcode.none_of rfl rfl
theorem Opcode.parkedSave (c : CtxRef) : Opcode.Statement (.parkedSave c) :=
  Opcode.none_of rfl rfl
theorem Opcode.forcedSave (c : CtxRef) : Opcode.Statement (.forcedSave c) :=
  Opcode.none_of rfl rfl
theorem Opcode.saveComplete (c : CtxRef) : Opcode.Statement (.saveComplete c) :=
  Opcode.none_of rfl rfl
theorem Opcode.resume (slice : Nat) (a : Answer) : Opcode.Statement (.resume slice a) :=
  Opcode.none_of rfl rfl
theorem Opcode.abortGroup (slice : Nat) (a : Answer) : Opcode.Statement (.abortGroup slice a) :=
  Opcode.none_of rfl rfl
theorem Opcode.killTeam (slice : Nat) (a : Answer) : Opcode.Statement (.killTeam slice a) :=
  Opcode.none_of rfl rfl
theorem Opcode.faultQueueConfig (slice : Nat) (value : DWord) : Opcode.Statement (.faultQueueConfig slice value) :=
  Opcode.none_of rfl rfl
theorem Opcode.faultRecordDrain (slice : Nat) : Opcode.Statement (.faultRecordDrain slice) :=
  Opcode.none_of rfl rfl
theorem Opcode.remoteAnswer (slice : Nat) (value : DWord) : Opcode.Statement (.remoteAnswer slice value) :=
  Opcode.none_of rfl rfl
theorem Opcode.remoteFaultRecordRx (slice : Nat) (sender : BitVec 128) (record : BitVec 512) : Opcode.Statement (.remoteFaultRecordRx slice sender record) :=
  Opcode.none_of rfl rfl
theorem Opcode.hartStart (h : HartRef) (value : DWord) : Opcode.Statement (.hartStart h value) :=
  Opcode.none_of rfl rfl
theorem Opcode.railSwitchRequest (core : Nat) (low : Bool) : Opcode.Statement (.railSwitchRequest core low) :=
  Opcode.none_of rfl rfl
theorem Opcode.railChangeover (core : Nat) : Opcode.Statement (.railChangeover core) :=
  Opcode.none_of rfl rfl
theorem Opcode.railSwitchEnd (core : Nat) : Opcode.Statement (.railSwitchEnd core) :=
  Opcode.none_of rfl rfl
theorem Opcode.grantIntervalEnd : Opcode.Statement .grantIntervalEnd :=
  Opcode.none_of rfl rfl
theorem Opcode.grantTake (slice : Nat) : Opcode.Statement (.grantTake slice) :=
  Opcode.none_of rfl rfl
theorem Opcode.failsafeTimeout (core : Nat) : Opcode.Statement (.failsafeTimeout core) :=
  Opcode.none_of rfl rfl
theorem Opcode.allowanceUpdate (core : Nat) : Opcode.Statement (.allowanceUpdate core) :=
  Opcode.none_of rfl rfl
theorem Opcode.loanMake (slice lender : Nat) : Opcode.Statement (.loanMake slice lender) :=
  Opcode.none_of rfl rfl
theorem Opcode.loanRecallStart (slice loan : Nat) : Opcode.Statement (.loanRecallStart slice loan) :=
  Opcode.none_of rfl rfl
theorem Opcode.loanRecallComplete (slice loan : Nat) : Opcode.Statement (.loanRecallComplete slice loan) :=
  Opcode.none_of rfl rfl
theorem Opcode.errorDetected (site : ErrorSite) (retryOk : Bool) (finder : Option Agent) : Opcode.Statement (.errorDetected site retryOk finder) :=
  Opcode.none_of rfl rfl
theorem Opcode.spareSwap (unit : SpareUnit) : Opcode.Statement (.spareSwap unit) :=
  Opcode.none_of rfl rfl
theorem Opcode.txPost (slice : Nat) (tail : Word) : Opcode.Statement (.txPost slice tail) :=
  Opcode.none_of rfl rfl
theorem Opcode.rxPost (slice : Nat) (tail : Word) : Opcode.Statement (.rxPost slice tail) :=
  Opcode.none_of rfl rfl
theorem Opcode.frameTxDone (slice : Nat) (err : Bool) : Opcode.Statement (.frameTxDone slice err) :=
  Opcode.none_of rfl rfl
theorem Opcode.ethernetFrameRx (slice : Nat) (frame : List Byte) : Opcode.Statement (.ethernetFrameRx slice frame) :=
  Opcode.none_of rfl rfl
theorem Opcode.ethernetLinkChange (slice : Nat) (up : Bool) : Opcode.Statement (.ethernetLinkChange slice up) :=
  Opcode.none_of rfl rfl
theorem Opcode.exposureTakeEffect (slice : Nat) : Opcode.Statement (.exposureTakeEffect slice) :=
  Opcode.none_of rfl rfl
theorem Opcode.bondRequest (slice : Nat) (value : Word) : Opcode.Statement (.bondRequest slice value) :=
  Opcode.none_of rfl rfl
theorem Opcode.pcieLinkTraining (slice : Nat) (up : Bool) : Opcode.Statement (.pcieLinkTraining slice up) :=
  Opcode.none_of rfl rfl
theorem Opcode.deviceWrite (slice : Nat) (rid : BitVec 16) (pasid : Option (BitVec 20)) (addr : DWord) (data : List Byte) : Opcode.Statement (.deviceWrite slice rid pasid addr data) :=
  Opcode.none_of rfl rfl
theorem Opcode.deviceRead (slice : Nat) (rid : BitVec 16) (pasid : Option (BitVec 20)) (addr : DWord) (len : Nat) : Opcode.Statement (.deviceRead slice rid pasid addr len) :=
  Opcode.none_of rfl rfl
theorem Opcode.deviceMsi (slice : Nat) (rid : BitVec 16) (addr : DWord) (data : Word) : Opcode.Statement (.deviceMsi slice rid addr data) :=
  Opcode.none_of rfl rfl
theorem Opcode.timerCompare (h : HartRef) : Opcode.Statement (.timerCompare h) :=
  Opcode.none_of rfl rfl
theorem Opcode.hartAwaitInterruptWake (h : HartRef) : Opcode.Statement (.hartAwaitInterruptWake h) :=
  Opcode.none_of rfl rfl
theorem Opcode.registerWrite (h : HartRef) (addr : Nat) (size : Nat) (value : DWord) : Opcode.Statement (.registerWrite h addr size value) :=
  Opcode.none_of rfl rfl
theorem Opcode.hartAccess (h : HartRef) (acc : HartAcc) : Opcode.Statement (.hartAccess h acc) :=
  Opcode.none_of rfl rfl
theorem Opcode.powerLoss (bits : Nat) : Opcode.Statement (.powerLoss bits) :=
  Opcode.none_of rfl rfl
theorem Opcode.intxMessage (slice : Nat) (pin : Fin 4) (asserted : Bool) : Opcode.Statement (.intxMessage slice pin asserted) :=
  Opcode.none_of rfl rfl
theorem Opcode.ranswerArrival (slice : Nat) (value : DWord) : Opcode.Statement (.ranswerArrival slice value) :=
  Opcode.none_of rfl rfl
theorem Opcode.mailboxDone (part : Nat) : Opcode.Statement (.mailboxDone part) :=
  Opcode.none_of rfl rfl
theorem Opcode.systemOpComplete (g : GroupRef) (id : Nat) : Opcode.Statement (.systemOpComplete g id) :=
  Opcode.none_of rfl rfl

end Sys2Proof.Laws
end

