-- ==== Sys2Proof/Tests/Probe.lean ====
section
/-!
SUPPORT. Tests: the small states and the checks by which the witnesses of the statements are given.
-/

-- The witnesses are long kernel evaluations: one after another they need one thread.
set_option Elab.async false

namespace Sys2Proof.Tests

open Sys2Proof Sys2Proof.Machine
open Host (Outcome)

/-! ### Small states -/

/-- The probe's machine: slice 0 in partition 0, and one group of context 0 in slot 0 of sub-partition 0 of core 0, at a sealed block of one word (a
NOP), with v0-v31. -/
def base : State := State.reset.withFetchWord 96 0x2000_0000_0000_0000_01F0_000F

/-- The place of its group. -/
def g0 : GroupRef := ⟨0, 0, 0, 0⟩

/-- That machine with the turn at its group. -/
def gs : State := { base with cur := .group g0 }

/-- The group with a change to its fibre. -/
def gsF (u : Fibre → Fibre) : State := gs.modFibre g0 u

/-- A state with main-file registers of the group: number, tag, and the word in every lane. -/
def regs (s : State) (rs : List (Nat × Tag × Word)) : State :=
  s.modSub 0 0 fun x => { x with bank := rs.foldl (fun m r => m.set r.1 ⟨r.2.1, lanesAll r.2.2⟩) x.bank }

/-- A state with one main-file register of the group given lane by lane. -/
def lanesAt (s : State) (n : Nat) (t : Tag) (w : Fin 32 → Word) : State := s.modSub 0 0 fun x => { x with bank := x.bank.set n ⟨t, lanesOf w⟩ }

/-- The view of the group in a state, where it is there. -/
def viewOr (s : State) (p : View → Bool) : Bool := match s.view g0 with
  | some v => p v
  | none => false

/-- Fields without guard, wait or signal. -/
def fld (sub : Byte) (d a b : Operand) (x : Ext := .none) : Fields := ⟨sub, d, a, b, x, ⟨false, 31#5⟩, ⟨0#3, 0#12, false, 15#4⟩⟩

/-- Fields with signal 3. -/
def fldS (sub : Byte) (d a b : Operand) (x : Ext := .none) : Fields := ⟨sub, d, a, b, x, ⟨false, 31#5⟩, ⟨0#3, 0#12, false, 3#4⟩⟩

/-- Fields under a guard that passes in no lane of a register of zeros: v31. -/
def fldG (sub : Byte) (d a b : Operand) (x : Ext := .none) : Fields := ⟨sub, d, a, b, x, ⟨false, 30#5⟩, ⟨0#3, 0#12, false, 3#4⟩⟩

/-! ### Checks -/

/-- The group of a state reads the sources of a word, as Reads says, and what it reads satisfies p. -/
def readsWith (s : State) (i : Instr) (f : Fields) (srcs : List Src) (p : View → List Lanes → Word → Bool) : Bool :=
  match s.curView with
  | none => false
  | some v => v.fib.windowsOk (instrNamed i) && match s.readSrcs v (v.active f.guard) srcs with
    | some r => p v r.1 r.2
    | none => false

theorem readsWith_spec {s : State} {i : Instr} {f : Fields} {srcs : List Src} {p : View → List Lanes → Word → Bool}
    (h : readsWith s i f srcs p = true) : ∃ v ls fl, Reads s v i f srcs ls fl ∧ p v ls fl = true := by
  unfold readsWith at h
  split at h
  · cases h
  next v hv =>
    rw [Bool.and_eq_true] at h
    obtain ⟨hw, h⟩ := h
    split at h
    next r hr => exact ⟨v, r.1, r.2, ⟨hv, hw, hr⟩, h⟩
    · cases h

/-- One case of a statement about words: a state, the word, its fields and sources, and the statement's other hypotheses. -/
abbrev Case := State × Instr × Fields × List Src × (View → List Lanes → Word → Bool)

/-- No further hypothesis. -/
def free : View → List Lanes → Word → Bool := fun _ _ _ => true

/-- Every case is met. -/
def met (cs : List Case) : Bool := cs.all fun c => readsWith c.1 c.2.1 c.2.2.1 c.2.2.2.1 c.2.2.2.2

/-- What met says: in each case some view, sources and flags are read by Reads, with the other hypotheses. -/
theorem met_spec {cs : List Case} (h : met cs = true) :
    ∀ c ∈ cs, ∃ v ls fl, Reads c.1 v c.2.1 c.2.2.1 c.2.2.2.1 ls fl ∧ c.2.2.2.2 v ls fl = true := by
  intro c hc
  exact readsWith_spec (List.all_eq_true.mp h c hc)

/-- An instruction answers a next state that satisfies p. -/
def goes (i : Instr) (s : State) (p : State → Bool) : Bool := match exec i s with
  | .next t => p t
  | _ => false

/-- A plain next state. -/
def runs (i : Instr) (s : State) : Bool := goes i s fun _ => true

/-- A waiting instruction: memory, the group's slot, its bank and its team are as they were. -/
def stays (i : Instr) (s : State) : Bool :=
  goes i s fun t => t.mem == s.mem && t.slot? g0 == s.slot? g0 && t.team? 0 0 == s.team? 0 0 && ((t.core 0).sub 0).bank == ((s.core 0).sub 0).bank

/-- The group is frozen and the records that await an answer are those causes. -/
def faults (t : State) (cs : List Byte) : Bool := viewOr t (fun v => v.fib.frozen) && (t.slice 0).fault.live.map (·.cause) == cs

end Sys2Proof.Tests
end

