-- ==== Sys2Proof/Tests/Accesses.lean ====
section
/-!
SUPPORT. Tests: accesses, ordering and copies of a group: states that meet the hypotheses of their statements, and what one step then does.
-/

-- The witnesses are long kernel evaluations: one after another they need one thread.
set_option Elab.async false

namespace Sys2Proof.Tests

open Sys2Proof Sys2Proof.Machine
open Host (Outcome)

/-! ### Small states with an operation in flight -/

/-- A translation of the first 512 GiB to themselves, with every permission. -/
def tlbAll : TlbEntry := ⟨0#12, 0, 0, 39, 0, true, true, true, true, true, true, 0, 0⟩

/-- Clock 10, the translation cached, and a scratchpad of one granule for the team. -/
def mapped (s : State) : State :=
  (s.modTeam 0 0 fun t => { t with desc := { t.desc with scratch := 131072 }, granules := [0] }).modCore 0 fun k =>
    { k.modSub 0 (fun x => { x with tlb := [tlbAll] }) with tlb := [tlbAll], clock := 10 }

/-- An operation of lane 0 alone, with log entry 0 and number 0. -/
def opOf (i : Instr) (addr : DWord) (data : List Lanes) (dest : List Place) : Op :=
  ⟨0, i, some 0, 0#12, 0, 0#32, 0, true, 1#32, 1#32, 0#32, 0#32, [addr], data, dest, 0, [], 0, 0, [], 0#32, none⟩

/-- The group with that operation on counter 3. -/
def flying (o : Op) : State :=
  (mapped gs).modFibre g0 fun f => { f with ops := [o], outstanding := [⟨0, 3, false, 0#32⟩], nextId := 1 }

/-- The hypotheses of a performing operation: it is in flight, and its lane 0 is ready at an address of a valid region with no poison. -/
def flies (s : State) (o : Op) (pa : Nat) : Bool :=
  viewOr s fun v => v.fib.op? o.id == some o && o.held == 0#32 && !v.fib.aborting && o.pending == 1#32
    && (match s.checkLane v o 0 with
      | .ready p _ => p == pa
      | _ => false)
    && (s.violation v.team.part pa).isNone && s.way (sliceOf v.g.core) v.team.part pa == .free && !(s.line v.team.part pa).poison && v.core.watches == .empty && v.core.launchView == .empty
    && !s.waitsFor v o [((o.addr 0).toNat / 128, (o.addr 0).toNat / 128)] [(pa / 128, pa / 128)] && v.team.part == s.partOf 0

/-- The operation has completed: its log entry is free, its counter has fallen, and the fibre stands where it stood. -/
def finished (s t : State) (id : Nat) : Bool :=
  match s.fibre? g0, t.fibre? g0 with
  | some f, some h => h.ops == f.ops.filter (fun p => p.id ≠ id) && h.outstanding == (f.complete id).outstanding && h.off == f.off && h.handle == f.handle
      && h.exm == f.exm && h.results == f.results && h.frozen == f.frozen
  | _, _ => false

/-- A register of the group's bank in a state. -/
def bankIs (t : State) (n : Nat) (r : Reg) : Bool := ((t.core 0).sub 0).bank.get n Reg.zero == r
/-- A register that took a word of a tag in lane 0 and holds zero elsewhere. -/
def lane0 (t : Tag) (w : Word) : Reg := ⟨t, lanesOf fun l => if l.val = 0 then w else 0#32⟩

/-- The partition's memory homed in slice 1, which is recovering, or which a failed link cuts off. -/
def away (u : Slice → Slice) (s : State) : State :=
  ((s.modPart 0 fun p => { p with slices := [0, 1], regions := ⟨[(0, ⟨1, 0, false, 0, 0, 0⟩)]⟩, routes := ⟨[(1, [0, 1])]⟩ }).modSlice 1 fun x =>
    { x with part := some 0 }).modSlice 1 u
def recovering (s : State) : State := away (fun x => { x with err := { x.err with esum := 0x80#8 } }) s
def cutOff (s : State) : State := (away id s).modSlice 0 fun x => { x with err := { x.err with links := 15 } }

/-! ### Memory -/

/-- The words of the memory class read their sources with an active lane and with none, with a free log entry and without. -/
theorem met_memoryIssue :
    (let s := regs gs [(4, tagA64L, 0x1000#32), (5, tagA64H, 0#32), (6, tagN32, 0x40#32)]
     let full := s.modFibre g0 fun b => { b with ops := (List.range 8).map fun n => { opOf (.ld (fldS 0x40 (.v 8) (.v 4) (.v 0))) 0#64 [] [] with id := n, logSlot := some n } }
     let cases (f : Byte → Operand → Operand → Operand → Ext → Fields) : List (Instr × Fields × List Src) :=
      let n32 := [Expect.tag tagN32]
      let m := f 0x40 (.v 8) (.v 4) (.v 0) .none
      let w := f 0x40 (.v 0) (.v 4) (.v 6) .none
      let r := f 0x40 (.v 8) (.v 6) (.v 0) .none
      let x := f 0x40 (.v 0) (.v 6) (.v 7) .none
      let a := f 0x00 (.v 8) (.v 4) (.v 6) (.imm 0#20)
      let p := f 0x00 (.v 8) (.v 6) (.v 7) .none
      let c := f 0x00 (.v 0) (.v 4) (.v 6) .none
      let k := f 0x00 (.v 0) (.v 4) (.v 0) .none
      [(.ld m, m, pairSrcs m.a), (.st w, w, pairSrcs w.a ++ dataSrcs w 1), (.lds r, r, regSrcs r.a n32), (.sts x, x, regSrcs x.a n32 ++ dataSrcs x 1),
       (.ldr r, r, regSrcs r.a n32), (.str x, x, regSrcs x.a n32 ++ dataSrcs x 1), (.atom a, a, pairSrcs a.a ++ atomSrcs a), (.atoms p, p, regSrcs p.a n32 ++ atomSrcs p),
       (.cinv c, c, pairSrcs c.a ++ regSrcs c.b n32), (.cwb c, c, pairSrcs c.a ++ regSrcs c.b n32), (.ldc r, r, regSrcs r.a n32), (.pref k, k, pairSrcs k.a)]
     let ok := (cases fun sub d a b x => fldS sub d a b x)
     let off := (cases fun sub d a b x => fldG sub d a b x)
     met (ok.map fun c => (s, c.1, c.2.1, c.2.2, fun v _ _ => v.active c.2.1.guard != 0#32 && v.fib.freeLog == some 0))
      && met (off.map fun c => (s, c.1, c.2.1, c.2.2, fun v _ _ => v.active c.2.1.guard == 0#32))
      && met ((ok.take 10).map fun c => (full, c.1, c.2.1, c.2.2, fun v _ _ => v.fib.freeLog.isNone))
      && ok.all (fun c => goes c.1 s fun t => viewOr t fun v => v.fib.ops.length == 1 && v.fib.counter 3 == 1 && v.fib.off == 1)
      && off.all (fun c => goes c.1 s fun t => viewOr t fun v => v.fib.ops.isEmpty && v.fib.counter 3 == 0 && v.fib.off == 1)
      && (ok.take 10).all (fun c => stays c.1 full)
      && goes (.ld (fldS 0x40 (.v 8) (.v 4) (.v 0) (.imm 0xFFFFC#20))) s fun t => viewOr t fun v => v.fib.ops.map (fun o => (o.addr 0, o.addr 31, o.logSlot)) == [(0xFFC#64, 0xFFC#64, some 0)]) = true := by decide +kernel

/-- Loads and stores of one lane: a line that the core does not hold, one it holds, a bypassing store, a cached store, an atomic, and the scratchpad. -/
theorem met_accessesPerform :
    (let f (sub : Byte) (x : Ext := .none) := fldS sub (.v 8) (.v 4) (.v 6) x
     let d : List Lanes := [lanesAll 0x1122_3344#32]
     let mem (s : State) := s.writeMem 0 0x2004 [0xAA#8, 0xBB#8, 0xCC#8, 0xDD#8]
     let ld := opOf (.ld (f 0x40)) 0x2004#64 [] [.bank 8]
     let st3 := opOf (.st (f 0x4C)) 0x2004#64 d []
     let st0 := opOf (.st (f 0x40)) 0x2004#64 d []
     let at_ := opOf (.atom (f 0x00 (.imm 0#20))) 0x2004#64 [lanesAll 1#32] [.bank 8]
     let lds := opOf (.lds (f 0x40)) 0x20#64 [] [.bank 8]
     let sts := opOf (.sts (f 0x40)) 0x20#64 d []
     let cached (s : State) := s.modCore 0 fun k => { k with l1 := ⟨[(64, ⟨⟨[(4, (1#8, true)), (5, (2#8, false)), (6, (3#8, false)), (7, (4#8, false))]⟩, false, 0#12⟩)]⟩ }
     let does (s : State) (o : Op) (p : State → Bool) := goes (.memoryAccessComplete g0 0 0) s fun t => finished s t o.id && p t
     ([ld, st3, st0, at_].all fun o => flies (mem (flying o)) o 0x2004) && viewOr (flying lds) (fun v => (flying lds).checkLane v lds 0 == .ready 0x20 .bare)
      && viewOr (flying sts) (fun v => (flying sts).checkLane v sts 0 == .ready 0x20 .bare && !v.core.scratchHeld 0x20 4 && !v.core.rowPassed v.g.sub [8]) && flies (cached (mem (flying ld))) ld 0x2004
      && does (mem (flying ld)) ld (fun t => bankIs t 8 (lane0 tagRaw 0xDDCC_BBAA#32))
      && does (cached (mem (flying ld))) ld (fun t => bankIs t 8 (lane0 tagRaw 0x0403_0201#32))
      && does (mem (flying st3)) st3 (fun t => t.readMem 0 0x2000 12 == [0#8, 0#8, 0#8, 0#8, 0x44#8, 0x33#8, 0x22#8, 0x11#8, 0#8, 0#8, 0#8, 0#8])
      && does (mem (flying st0)) st0 (fun t => t.readMem 0 0x2004 4 == [0xAA#8, 0xBB#8, 0xCC#8, 0xDD#8] && ((t.core 0).l1.find 64).map (fun x => x.cells.find 4) == some (some (0x44#8, true)))
      && does (mem (flying at_)) at_ (fun t => t.readMem 0 0x2004 4 == [0xAB#8, 0xBB#8, 0xCC#8, 0xDD#8] && bankIs t 8 (lane0 tagN32 0xDDCC_BBAA#32))
      && does (flying lds) lds (fun t => bankIs t 8 (lane0 tagRaw 0#32))
      && does (flying sts) sts (fun t => (t.core 0).scratchBytes 0x20 4 == [0x44#8, 0x33#8, 0x22#8, 0x11#8])) = true := by decide +kernel

/-- One lane of every kind and size: loads and stores of 1, 2, 8 and 16 bytes, each AOP in 32 and 64 bits, the scratchpad and a member's scratchpad, constants
(zero by index, beyond the window, present, and fetched), the four prefetches, and a page written back and dropped. -/
theorem met_accessKinds :
    (let f (sub : Byte) (x : Ext := .none) := fldS sub (.v 8) (.v 4) (.v 6) x
     let bytes : List Byte := [0xFE#8, 0xFF#8, 3#8, 4#8, 5#8, 6#8, 7#8, 8#8, 9#8, 10#8, 11#8, 12#8, 13#8, 14#8, 15#8, 16#8]
     let mem (s : State) := s.writeMem 0 0x2010 bytes
     let at_ (n : Nat) : List Place := (List.range n).map fun i => .bank (8 + i)
     let does (s : State) (o : Op) (p : State → Bool) := goes (.memoryAccessComplete g0 0 0) s fun t => finished s t o.id && p t
     let takes (s : State) := s.l1Room 0 != 0 && s.l1Takes 0 64
     let loads (sub : Byte) (n : Nat) (rs : List Reg) := let o := opOf (.ld (f sub)) 0x2010#64 [] (at_ n)
       flies (mem (flying o)) o 0x2010 && takes (mem (flying o)) && does (mem (flying o)) o fun t => rs.zipIdx.all fun r => bankIs t (8 + r.2) r.1
     let words : List Lanes := [0x0403_0201#32, 0x0807_0605#32, 0x0C0B_0A09#32, 0x100F_0E0D#32].map lanesAll
     let stores (sub : Byte) (n size : Nat) := let o := opOf (.st (f sub)) 0x2010#64 (words.take n) []
       flies (mem (flying o)) o 0x2010 && does (mem (flying o)) o fun t => t.readMem 0 0x2010 size == (List.range size).map (fun i => BitVec.ofNat 8 (i + 1)) && t.readMem 0 (0x2010 + size) 16 == (mem gs).readMem 0 (0x2010 + size) 16
     let atomic (sub : Byte) (data : List Lanes) (n : Nat) (bs : List Byte) (rs : List Reg) := let o := opOf (.atom (f sub (.imm 0#20))) 0x2010#64 data (at_ n)
       flies (mem (flying o)) o 0x2010 && does (mem (flying o)) o fun t => t.readMem 0 0x2010 bs.length == bs && rs.zipIdx.all fun r => bankIs t (8 + r.2) r.1
     let w (x : Word) := [lanesAll x]
     let old := 0x0403_FFFE#32
     let swap (aop : Nat) (x v : Word) (tag : Tag := tagN32) := atomic (BitVec.ofNat 8 (16 * aop)) (w x) 1 (leBytes 4 v.toNat) [lane0 tag old]
     let wide (aop : Nat) (data : List Lanes) (v : Nat) := atomic (BitVec.ofNat 8 (16 * aop + 8)) data 2 (leBytes 8 v) [lane0 tagI64L old, lane0 tagI64H 0x0807_0605#32]
     let pad (i : Instr) (addr : DWord) (data : List Lanes) (n : Nat) (p : State → Bool) := let o := opOf i addr data (at_ n)
       viewOr (flying o) (fun v => (flying o).checkLane v o 0 == .ready 0x20 .bare && !(flying o).waitsFor v o [(0x20, 0x20)] [] && !(flying o).waitsFor v o [(0, 0)] []
         && !v.core.scratchHeld 0x20 16 && !v.core.rowPassed v.g.sub (wordsOf [0x20] 16) && !v.core.rowPassed remoteRank (wordsOf [0x20] 16)) && does (flying o) o p
     let const (s : State) := s.modTeam 0 0 fun t => { t with hdr := { t.hdr with windows := [(0, 2), (2, 1)], constOff := 0x2010 }, desc := { t.desc with image := 0#64 } }
     let ldc (sub : Byte) (x : Ext) (addr : DWord) (n : Nat) := opOf (.ldc (f sub x)) addr [] (at_ n)
     let filled (s : State) := s.modCore 0 fun k => { k with constCache := s.fillLine 0 64 8 k.constCache }
     let pref (sub : Byte) (addr : DWord := 0x2010#64) := opOf (.pref (f sub)) addr [] []
     let dirty (s : State) := s.modCore 0 fun k => { k with l1 := ⟨[(64, ⟨⟨[(0x10, (1#8, true)), (0x11, (2#8, false))]⟩, false, 0#12⟩)]⟩ }
     let range (i : Fields → Instr) (n : Word) := opOf (i (f 0x00)) 0x2010#64 (w n) []
     loads 0x00 1 [lane0 tagN32 0xFE#32] && loads 0x10 1 [lane0 tagS32 0xFFFF_FFFE#32] && loads 0x20 1 [lane0 tagN32 0xFFFE#32] && loads 0x30 1 [lane0 tagS32 0xFFFF_FFFE#32]
      && loads 0x60 2 [lane0 tagRaw old, lane0 tagRaw 0x0807_0605#32] && loads 0x80 4 [lane0 tagRaw old, lane0 tagRaw 0x0807_0605#32, lane0 tagRaw 0x0C0B_0A09#32, lane0 tagRaw 0x100F_0E0D#32]
      && stores 0x0C 1 1 && stores 0x2C 1 2 && stores 0x6C 2 8 && stores 0x8C 4 16
      && swap 0 2#32 0x0404_0000#32 && swap 1 0xFFFF_FFFF#32 0xFFFF_FFFF#32 tagS32 && swap 2 0xFFFF_FFFF#32 old tagS32 && swap 3 0xFFFF_FFFF#32 old && swap 4 0xFFFF_FFFF#32 0xFFFF_FFFF#32
      && swap 5 0xFF#32 0xFE#32 && swap 6 1#32 0x0403_FFFF#32 && swap 7 0xFFFF_FFFF#32 0xFBFC_0001#32 && swap 8 7#32 7#32
      && atomic 0x90 (w 7#32 ++ w old) 1 (leBytes 4 7) [lane0 tagN32 old] && atomic 0x90 (w 7#32 ++ w 8#32) 1 (leBytes 4 old.toNat) [lane0 tagN32 old] && swap 10 0x8403_FFFE#32 0#32 tagF32
      && wide 0 (w 2#32 ++ w 1#32) 0x0807_0606_0404_0000 && wide 9 (w 7#32 ++ w 0#32 ++ w old ++ w 0x0807_0605#32) 7 && wide 1 (w 0#32 ++ w 0x8000_0000#32) 0x8000_0000_0000_0000
      && pad (.lds (f 0x60)) 0x20#64 [] 2 (fun t => bankIs t 9 (lane0 tagRaw 0#32)) && pad (.ldr (f 0x00)) 0x20#64 [] 1 (fun t => bankIs t 8 (lane0 tagN32 0#32))
      && pad (.sts (f 0x80)) 0x20#64 words 0 (fun t => (t.core 0).scratchBytes 0x20 16 == (List.range 16).map fun i => BitVec.ofNat 8 (i + 1))
      && pad (.str (f 0x20)) 0x20#64 (words.take 1) 0 (fun t => (t.core 0).scratchBytes 0x20 4 == [1#8, 2#8, 0#8, 0#8])
      && pad (.atoms (f 0x08 (.imm 0#20))) 0x20#64 (words.take 2) 2 (fun t => (t.core 0).scratchBytes 0x20 8 == (List.range 8).map fun i => BitVec.ofNat 8 (i + 1))
      && does (const (mem (flying (ldc 0x60 (.imm 0xFFFFF#20) 0#64 2)))) (ldc 0x60 (.imm 0xFFFFF#20) 0#64 2) (fun t => bankIs t 8 (lane0 tagRaw 0#32) && bankIs t 9 (lane0 tagRaw 0#32))
      && does (const (mem (flying (ldc 0x40 .none 0x100000#64 1)))) (ldc 0x40 .none 0x100000#64 1) (fun t => bankIs t 8 (lane0 tagRaw 0#32))
      && does (filled (const (mem (flying (ldc 0x60 .none 1#64 2))))) (ldc 0x60 .none 1#64 2) (fun t => bankIs t 8 (lane0 tagRaw 0x0807_0605#32) && bankIs t 9 (lane0 tagRaw 0#32))
      && does (const (mem (flying (ldc 0x40 .none 0x20000#64 1)))) (ldc 0x40 .none 0x20000#64 1) (fun t => bankIs t 8 (lane0 tagRaw 0x0C0B_0A09#32))
      && does (mem (flying (pref 0))) (pref 0) (fun t => ((t.core 0).l1.find 64).any fun x => x.cells.find 0x10 == some (0xFE#8, false)) && does (mem (flying (pref 1))) (pref 1) (fun t => (t.core 0).l1.cells.isEmpty)
      && does (mem (flying (pref 2))) (pref 2) (fun t => (t.pins.find (lineKey 0 0x2010)).isSome) && does (mem (flying (pref 3))) (pref 3) (fun t => t.pins.cells.isEmpty)
      && does (flying (pref 0 0x8000_0000_0000_0000#64)) (pref 0 0x8000_0000_0000_0000#64) (fun t => (t.slice 0).prefdrop == 1#32)
      && viewOr (dirty (mem (flying (range .cwb 16#32)))) (fun v => (range .cwb 16#32).pagesLeft == [(0x2010#64, 16)] && (dirty (mem (flying (range .cwb 16#32)))).cacheTurn v (range .cwb 16#32))
      && (range .cinv 0#32).pagesLeft == [] && does (dirty (mem (flying (range .cinv 0#32)))) (range .cinv 0#32) (fun t => ((t.core 0).l1.find 64).isSome)
      && does (dirty (mem (flying (range .cwb 16#32)))) (range .cwb 16#32) (fun t => t.readMem 0 0x2010 2 == [1#8, 0xFF#8] && ((t.core 0).l1.find 64).map L1Line.dirty == some [])
      && does (dirty (mem (flying (range .cinv 16#32)))) (range .cinv 16#32) (fun t => t.readMem 0 0x2010 1 == [1#8] && ((t.core 0).l1.find 64).isNone)) = true := by decide +kernel

/-- Walks that end in a translation and in a fault, a lane that fails, and lines written back and dropped. -/
theorem met_walksFaultsAndWritebacks :
    (let o := opOf (.ld (fldS 0x40 (.v 8) (.v 4) (.v 0))) 0x2004#64 [] [.bank 8]
     let walk (root : DWord) := (flying o).modSlice 0 fun x => { x with walks := ⟨[(7, ⟨0#12, 0, 0x2000, root, 0, [(0, 0)]⟩)]⟩ }
     let bad := opOf (.ld (fldS 0x40 (.v 8) (.v 4) (.v 0))) 0x2006#64 [] [.bank 8]
     let line (d : Bool) := gs.modCore 0 fun k => { k with l1 := ⟨[(64, ⟨⟨[(4, (9#8, d))]⟩, false, 5#12⟩)]⟩ }
     (match (walk 0x100#64).walk 0 0x100#64 0 0x2000#64, (walk 0#64).walk 0 0#64 0 0x2000#64 with
      | .ok _, .error _ => true
      | _, _ => false)
      && goes (.walkReturn 0 7) (walk 0x100#64) (fun t => (t.slice 0).walks.cells.isEmpty && (t.core 0).tlb.any (fun e => e.va == 0 && e.size == 39) && ((t.core 0).sub 0).tlb.any fun e => e.size == 39)
      && goes (.walkReturn 0 7) (walk 0#64) (fun t => viewOr t fun v => (v.fib.op? 0).map (·.walkFaults) == some [(2, 0x10#8)] && v.fib.off == 0)
      && viewOr (flying bad) (fun v => (flying bad).laneFault v bad 0 == some ⟨0x12#8, 0x2006#64, 0, 0x2006#64⟩)
      && goes (.accessFaultDetect g0 0) (flying bad) (fun t => faults t [0x12#8] && (t.slice 0).fault.live.map (fun r => (r.entry, r.full.address, r.full.lanes, r.ftag)) == [(0#8, 0x2006#64, 1#32, 1#16)]
        && viewOr t fun v => (v.fib.op? 0).map (·.held) == some 1#32)
      && goes (.accessFaultDetect g0 0) ((flying bad).modFibre g0 fun b => { b with aborting := true }) (fun t => (t.view g0).isNone || viewOr t fun v => v.fib.ops.isEmpty)
      && goes (.l1SpontaneousWriteback 0 64 false) (line true) (fun t => t.readMem 0 0x2004 1 == [9#8] && ((t.core 0).l1.find 64).map L1Line.dirty == some [] && (t.line 0 0x2004).owner == 5#12)
      && goes (.walkReturn 0 7) (recovering (walk 0x100#64)) (fun t => (t.slice 0).walks.cells.length == 1 && ((t.core 0).sub 0).tlb == [tlbAll])
      && (match (cutOff (walk 0x100#64)).walkEnd 0 0 0x100#64 0 0x2000#64 with
        | .lost c _ => c == 0x87#8
        | _ => false) && goes (.walkReturn 0 7) (cutOff (walk 0x100#64)) (fun t => (t.slice 0).walks.cells.isEmpty && (t.core 0).tlb == [tlbAll])
      && (line true).way 0 0 0x2000 == .free && goes (.l1SpontaneousWriteback 0 64 true) (line false) (fun t => ((t.core 0).l1.find 64).isNone)) = true := by decide +kernel

/-! ### Ordering -/

/-- The words of the ordering class at issue, with an active lane, with none, and with no free log entry. -/
theorem met_orderingIssue :
    (let s := regs gs [(4, tagA64L, 0x1000#32), (5, tagA64H, 0#32), (6, tagA64L, 0x2000#32), (7, tagA64H, 0#32), (9, tagN32, 0x80#32)]
     let full := s.modFibre g0 fun b => { b with ops := (List.range 8).map fun n => { opOf (.ld (fldS 0x40 (.v 8) (.v 4) (.v 0))) 0#64 [] [] with id := n, logSlot := some n } }
     let cases (f : Byte → Operand → Operand → Operand → Ext → Fields) : List (Instr × Fields × List Src) :=
      let q := f 0x40 (.v 0) (.v 4) (.v 0) .none
      let w := f 0x00 (.v 8) (.v 4) (.v 9) .none
      let k := f 0x00 (.v 8) (.v 4) (.v 0) .none
      let u := f 0x00 (.v 0) (.v 4) (.v 0) .none
      let m := f 0x03 (.v 8) (.v 4) (.v 6) (.reg (.v 9))
      let z := f 0x03 (.v 8) (.v 4) (.v 6) (.imm 0#20)
      [(.acq q, q, pairSrcs q.a), (.rel q, q, pairSrcs q.a), (.await w, w, pairSrcs w.a ++ [.reg w.b .any]), (.awake k, k, pairSrcs k.a), (.munbind u, u, pairSrcs u.a),
       (.mbind m, m, pairSrcs m.a ++ pairSrcs m.b ++ src3 m .n32 [.tag tagN32]), (.mbind z, z, pairSrcs z.a ++ (fieldRegs z.b 2).map (Src.reg · .any) ++ src3 z .n32 [.tag tagN32])]
     let ok := cases fun sub d a b x => fldS sub d a b x
     let off := cases fun sub d a b x => fldG sub d a b x
     let e := fldS 0x30 (.v 0) (.v 0) (.v 0)
     let b := fldS 0x02 (.v 0) (.v 0) (.v 0)
     met (ok.map fun c => (s, c.1, c.2.1, c.2.2, fun v _ _ => v.active c.2.1.guard != 0#32 && v.fib.freeLog == some 0))
      && met (off.map fun c => (s, c.1, c.2.1, c.2.2, fun v _ _ => v.active c.2.1.guard == 0#32))
      && met ((ok.take 4).map fun c => (full, c.1, c.2.1, c.2.2, fun v _ _ => v.fib.freeLog.isNone))
      && met [(s, .fence e, e, [], free), (s, .bar b, b, [], free), (s, .cbar b, b, [], free)]
      && (Instr.fence e :: Instr.bar b :: Instr.cbar b :: ok.map Prod.fst).all (fun i => goes i s fun t => viewOr t fun v => v.fib.ops.length == 1 && v.fib.counter 3 == 1 && v.fib.off == 1)
      && off.all (fun c => goes c.1 s fun t => viewOr t fun v => v.fib.ops.isEmpty && v.fib.off == 1) && (ok.take 4).all (fun c => stays c.1 full)) = true := by decide +kernel

/-- What they do when they perform: a fence with an earlier access and with none, barriers with and without another group, a cell taken and given back both
ways, a wait that ends at once and one that sleeps, wakings of none and of one, bindings. -/
theorem met_orderingPerforms :
    (let f (sub : Byte) := fldS sub (.v 8) (.v 4) (.v 6)
     let does (s : State) (p : State → Bool) := goes (.memoryAccessComplete g0 0 0) s p
     let ends (s : State) (p : State → Bool) := does s fun t => finished s t 0 && p t
     let dirty (s : State) := s.modCore 0 fun k => { k with l1 := ⟨[(64, ⟨⟨[(4, (9#8, true))]⟩, false, 5#12⟩)]⟩ }
     let behind (s : State) := s.modFibre g0 fun b =>
        { b with ops := b.ops.map (fun (p : Op) => { p with id := 1 }) ++ [opOf (.ld (f 0x40)) 0x2000#64 [] [.bank 9]],
                 outstanding := [⟨0, 3, false, 0#32⟩, ⟨1, 3, false, 0#32⟩], nextId := 2 }
     let two (s : State) := s.modSub 0 0 fun x => match x.slots.find 0 with
      | some t => { x with slots := x.slots.set 1 { t with fibres := t.fibres.mapVals fun _ b => { b with grp := 1, ops := [], outstanding := [] } } }
      | none => x
     let cell (w : Nat) (s : State) := s.writeMem 0 0x4000 (leBytes 8 w)
     let acq (sub : Byte) := opOf (.acq (f sub)) 0x4000#64 [] []
     let rel := opOf (.rel (f 0x00)) 0x4000#64 [] []
     let word (o : Op) := (flying o).writeMem 0 0x4000 (leBytes 4 7)
     let wait (w : Word) := opOf (.await (f 0x00)) 0x4000#64 [lanesAll w] [.bank 8]
     let wake := opOf (.awake (f 0x00)) 0x4000#64 [] [.bank 8]
     let bind (n : Word) := opOf (.mbind (f 0x03)) 0x4000#64 [lanesAll 0x8000#32, lanesAll 0#32, lanesAll n] [.bank 8]
     let sleeper (s : State) := s.modSlice 0 fun x => { x with rendezvous := [⟨0x4000#64, 0#12, 0x4000, .group ⟨0, 0, 1, 0⟩, 0⟩] }
     ends (dirty (flying (opOf (.fence (f 0x48)) 0#64 [] []))) (fun t => (t.core 0).l1.cells.isEmpty && t.readMem 0 0x2004 1 == [9#8])
      && ends (dirty (flying (opOf (.fence (f 0x50)) 0#64 [] []))) (fun t => (t.core 0).l1.vals.map L1Line.dirty == [[]])
      && ends (dirty (flying (opOf (.fence (f 0x08)) 0#64 [] []))) (fun t => (t.core 0).l1.vals.map L1Line.dirty == [[(4, 9#8)]])
      && goes (.memoryAccessComplete g0 1 0) (behind (flying (opOf (.fence (f 0x48)) 0#64 [] []))) (fun t => viewOr t fun v => v.fib.ops.length == 2)
      && ends (flying (opOf (.bar (f 0x02)) 0#64 [] [])) (fun t => (t.team? 0 0).map (fun m => barAt m.bars 2) == some ⟨1#32, []⟩)
      && does (two (flying (opOf (.bar (f 0x02)) 0#64 [] []))) (fun t => (t.team? 0 0).map (fun m => barAt m.bars 2) == some ⟨0#32, [0]⟩ && viewOr t fun v => v.fib.counter 3 == 1)
      && flies (cell 2 (flying (acq 0x00))) (acq 0x00) 0x4000
      && does (cell 0 (flying (acq 0x01))) (fun t => t.cellState 0 0x4000 == 0x8000_0000_0000_0000#64) && does (cell 2 (flying (acq 0x00))) (fun t => t.cellState 0 0x4000 == 3#64)
      && ends (flying { acq 0x00 with stage := 2 }) (fun _ => true)
      && ends (cell 0x8000_0000_0000_0000 (flying rel)) (fun t => t.cellState 0 0x4000 == 0#64) && ends (cell 2 (flying rel)) (fun t => t.cellState 0 0x4000 == 1#64)
      && ends (word (wait 6#32)) (fun t => bankIs t 8 (lane0 tagN32 1#32)) && flies (word (wait 7#32)) (wait 7#32) 0x4000
      && does (word (wait 7#32)) (fun t => (t.slice 0).rendezvous == [⟨0x4000#64, 0#12, 0x4000, .group g0, 0⟩] && viewOr t fun v => v.fib.counter 3 == 1)
      && ends (flying wake) (fun t => bankIs t 8 (lane0 tagN32 0#32))
      && ends (sleeper (two (flying wake))) (fun t => bankIs t 8 (lane0 tagN32 1#32) && (t.slice 0).rendezvous.isEmpty)
      && ends (flying (bind 0#32)) (fun t => bankIs t 8 (lane0 tagN32 0#32) && (t.team? 0 0).map (·.bindings) == some [])
      && ends (flying (bind 0x80#32)) (fun t => (t.team? 0 0).map (fun m => m.bindings.map fun b => (b.cell, b.slots.find 3)) == some [(0x4000#64, some (0x8000#64, 128))])
      && viewOr (flying (bind 0#32)) (fun v => (flying (bind 0#32)).laneFault v (bind 0#32) 0 == none)
      && ends ((flying (bind 0#32)).modTeam 0 0 fun m => { m with bindings := List.replicate 16 ⟨0x5000#64, .empty⟩ }) (fun t => bankIs t 8 (lane0 tagN32 1#32))
      && (recovering (dirty (flying (opOf (.fence (f 0x48)) 0#64 [] [])))).cacheStuck 0 && stays (.memoryAccessComplete g0 0 0) (recovering (dirty (flying (opOf (.fence (f 0x48)) 0#64 [] []))))
      && ends (flying (opOf (.munbind (f 0x03)) 0x4000#64 [] [])) (fun t => (t.team? 0 0).map (·.bindings) == some [])) = true := by decide +kernel

/-- A request at the head of a cell's queue that the cell admits, and one that it does not. -/
theorem met_cellGrants :
    (let s (w : Nat) (excl : Bool) := ({ flying (opOf (.acq (fldS 0x01 (.v 0) (.v 4) (.v 0))) 0x4000#64 [] []) with
        cells := ⟨[(memKey 0 0x4000, [⟨.group g0, 0, excl⟩])]⟩ } : State).writeMem 0 0x4000 (leBytes 8 w)
     goes (.cellGrant 0 0x4000) (s 0 true) (fun t => t.cellState 0 0x4000 == 0x8000_0000_0000_0000#64 && t.cells.get (memKey 0 0x4000) [] == []
        && viewOr t fun v => (v.fib.op? 0).map (·.stage) == some 2)
      && goes (.cellGrant 0 0x4000) (s 4 false) (fun t => t.cellState 0 0x4000 == 5#64) && stays (.cellGrant 0 0x4000) (s 1 true)
      && stays (.cellGrant 0 0x4000) (s 0x8000_0000_0000_0000 false)) = true := by decide +kernel

end Sys2Proof.Tests
end

