-- ==== Sys2Proof/Tests/Answers.lean ====
section
/-!
SUPPORT. Tests: pre-emption, saves and the answers to fault records: states that meet the hypotheses of their statements, and what one step then does.
-/

-- The witnesses are long kernel evaluations: one after another they need one thread.
set_option Elab.async false

namespace Sys2Proof.Tests

open Sys2Proof Sys2Proof.Machine
open Host (Outcome)

/-- The team of the probe's group, changed; its save area is at 0x9000 and its slice's deadline is 50. -/
def save (u : Team → Team) : State :=
  ((gs.modTeam 0 0 u).modSlice 0 fun x => { x with fault := { x.fault with deadline := 50#32 }, cyc := 7#64 }).modCore 0 fun k => { k with preempt := k.preempt.set 0 ⟨0x9ABC#64, false, false⟩ }

/-- What holds of the team. -/
def teamHas (t : State) (p : Team → Bool) : Bool := match t.team? 0 0 with
  | some m => p m
  | none => false

/-- A save has begun. -/
def begunSave (forced : Bool) (t : State) : Bool := teamHas t fun m => match m.saving with
  | some v => v.forced == forced && v.captured == !forced && v.byGroup.isNone && v.addr == 0x9000
  | none => false

/-- The live record of an agent: cause, entry and operation. -/
def liveRec (a : Agent) (level : Bool) (entry : Byte) (opId : Nat) : LiveRec := ⟨5#16, 9#32, level, entry, 0x12#8, a, opId, Rec.blank⟩

/-- An answer that quotes it. -/
def quoting (level : Bool) (entry : Byte) : Answer := ⟨level, 5#16, entry, 9#32⟩

/-- A state whose fault block of slice 0 has live records. -/
def withLive (l : List LiveRec) (s : State) : State := s.modSlice 0 fun x => { x with fault := { x.fault with live := l } }

/-- Requests, cancels, deadlines and saves: each with and without what it waits for. -/
theorem met_preemption :
    (let plain := save id
     let asked := save fun t => { t with preq := true, deadline := some 8 }
     let due := save fun t => { t with deadline := some 7 }
     let parked := asked.modFibre g0 fun f => { f with parked := some 3#4 }
     let saving (c : Bool) := save fun t => { t with saving := some ⟨true, 0x9000, none, c, []⟩ }
     let busy (s : State) := s.modFibre g0 fun f => { f with results := [⟨0, 9, [], [], 0#32, none⟩] }
     let c : CtxRef := ⟨0, 0⟩
     Memory.wf plain.mem && teamHas plain (fun m => m.cluster.isNone && !m.preq && m.saving.isNone) && (plain.core 0).l1 == .empty && (plain.slice 0).fault.used == 0
      && goes (.preemptRequest c) plain (fun t => teamHas t fun m => m.preq && m.deadline == some 57 && m.saving.isNone)
      && goes (.preemptCancel c) parked (fun t => teamHas t (fun m => !m.preq && m.deadline.isNone) && viewOr t fun v => v.fib.parked.isNone)
      && goes (.force c) plain (begunSave true) && goes (.deadlineExpiry c) due (begunSave true) && goes (.deadlineExpiry c) asked (fun t => teamHas t fun m => m.saving.isNone)
      && (parked.core 0).allParked 0 0 && !(asked.core 0).allParked 0 0 && goes (.parkedSave c) parked (begunSave false) && goes (.parkedSave c) asked (fun t => teamHas t fun m => m.saving.isNone)
      && (saving false).quiesced 0 0 && !(busy (saving false)).quiesced 0 0
      && goes (.forcedSave c) (saving false) (fun t => teamHas t fun m => m.saving.map (·.captured) == some true)
      && goes (.forcedSave c) (busy (saving false)) (fun t => teamHas t fun m => m.saving.map (·.captured) == some false)
      && (saving true).quiesced 0 0 && ((saving true).violation 0 0x9000).isNone && (saving true).way 0 0 0x9000 == .free && (saving true).way 0 0 0x90000 == .free && ((saving true).core 0).l1 == .empty && ((saving true).slice 0).fault.qbase == 0#64 && ((saving true).slice 0).fault.waiting.isEmpty
      && ((saving true).slice 0).fault.live.isEmpty) = true := by decide +kernel

/-- Answers: one that quotes no record, RESUME of a held access, of one of two records and of a context, ABORT-GROUP, and KILL-TEAM. -/
theorem met_answers :
    (let o := opOf (.ld (fldS 0x40 (.v 8) (.v 4) (.v 0))) 0x2006#64 [] [.bank 8]
     let r := liveRec (.group g0) false 0#8 0
     let held := (flying { o with held := 1#32 }).modFibre g0 fun f => { f with frozen := true }
     let q := quoting false 0#8
     let stopped := gs.modFibre g0 fun f => { f with frozen := true }
     let rc := liveRec (.ctx ⟨0, 0⟩) true 0#8 0
     let ctx := withLive [rc] (save fun t => { t with gen := { t.gen with run := .frozen } })
     let live (t : State) : List LiveRec := (t.slice 0).fault.live
     [Instr.resume 0 (quoting false 1#8), .abortGroup 0 (quoting false 1#8), .killTeam 0 (quoting false 1#8)].all (fun i => goes i (withLive [r] held) fun t =>
        (t.slice 0).fault.stale == 1#32 && live t == [r])
      && goes (.resume 0 q) (withLive [r] held) (fun t => (live t).isEmpty && viewOr t fun v => v.fib.frozen && (v.fib.op? 0).map (fun p => (p.held, p.redo, p.pending)) == some (0#32, 1#32, 1#32))
      && goes (.resume 0 q) (withLive [r] stopped) (fun t => viewOr t fun v => !v.fib.frozen)
      && goes (.resume 0 q) (withLive [r, liveRec (.group g0) false 1#8 0] held) (fun t => (live t).length == 1 && viewOr t fun v => v.fib.frozen)
      && goes (.abortGroup 0 q) (withLive [r] stopped) (fun t => (t.fibre? g0).isNone && (live t).isEmpty)
      && teamHas ctx (fun m => m.gen.run == .frozen) && goes (.resume 0 (quoting true 0#8)) ctx (fun t => (live t).isEmpty && teamHas t fun m => m.gen.run == .ready (ctx.core 0).clock)
      && goes (.abortGroup 0 (quoting true 0#8)) ctx (fun t => !teamHas t fun m => m.gen.run != .exited)
      && goes (.killTeam 0 (quoting true 0#8)) ctx (fun t => !teamHas t fun m => m.gen.run != .exited || m.saving.isSome)
      && goes (.killTeam 0 q) (withLive [r] held) (fun t => !viewOr t fun v => !v.fib.aborting)) = true := by decide +kernel

/-- The record ring, answers to and from peers, and a peer's record with and without room. -/
theorem met_faultQueue :
    (let fb (u : FaultBlock → FaultBlock) : State := gs.modSlice 0 fun x => { x with fault := u x.fault }
     let queue := fb fun b => { b with buffer := [{ Rec.blank with cause := 0x12#8 }], qbase := 0x9000#64, log2n := 6, tail := 64#32, head := 1#32 }
     let peer (tail : Word) : State := gs.modSlice 0 fun x =>
       { x with net := { x.net with rslice := 3#4, rpeer := 2#4, viewPeers := ⟨[(2, ⟨77#128, 0xA006#64, 0#64, 0#32, tail, 0#32⟩)]⟩ } }
     let r := liveRec (.group g0) false 0#8 0
     let held := withLive [r] (gs.modFibre g0 fun f => { f with frozen := true })
     let word (cmd : Nat) : DWord := BitVec.ofNat 64 (cmd * 2 ^ 56 + 5 * 2 ^ 40 + 9)
     let queues (t : State) : DWord × Nat := ((t.slice 0).fault.qbase, (t.slice 0).fault.log2n)
     goes (.faultQueueConfig 0 0xB006#64) gs (fun t => queues t == (0xB000#64, 6)) && goes (.faultQueueConfig 0 0xB010#64) gs (fun t => queues t == (0xB000#64, 16))
      && goes (.faultQueueConfig 0 0xB005#64) gs (fun t => queues t == queues gs) && goes (.faultQueueConfig 0 0xB011#64) gs (fun t => queues t == queues gs)
      && (queue.slice 0).part == some 0 && (queue.slice 0).fault.waiting.isEmpty
      && goes (.faultRecordDrain 0) queue (fun t => t.readMem 0 0x9000 64 == ({ Rec.blank with cause := 0x12#8 } : Rec).bytes && (t.slice 0).fault.tail == 65#32 && (t.slice 0).fault.buffer.isEmpty)
      && goes (.remoteAnswer 0 5#64) (peer 0#32) (fun t => (t.slice 0).net.answers == [(3, 2, 5#64)])
      && goes (.ranswerArrival 0 (word 1)) held (fun t => viewOr t fun v => (v.fib.op? 0).isNone && !v.fib.frozen) && goes (.ranswerArrival 0 (word 2)) held (fun t => (t.fibre? g0).isNone)
      && goes (.ranswerArrival 0 (word 3)) held (fun t => (t.fibre? g0).isNone)
      && goes (.ranswerArrival 0 (word 0)) held (fun t => (t.slice 0).fault.stale == 1#32) && goes (.ranswerArrival 0 (word 4)) held (fun t => (t.slice 0).fault.stale == 1#32)
      && ((peer 0#32).slice 0).net.peerOf 77#128 == some (2, ⟨77#128, 0xA006#64, 0#64, 0#32, 0#32, 0#32⟩)
      && goes (.remoteFaultRecordRx 0 77#128 9#512) (peer 63#32) (fun t => t.readMem 0 (0xA000 + 64 * 63) 2 == [9#8, 0#8] && ((t.slice 0).net.viewPeers.find 2).map (·.rtail) == some 64#32)
      && goes (.remoteFaultRecordRx 0 77#128 9#512) (peer 64#32) (fun t => ((t.slice 0).net.viewPeers.find 2).map (·.rtail) == some 64#32)) = true := by decide +kernel

end Sys2Proof.Tests
end

