-- ==== Sys2Proof/Tests/Arithmetic.lean ====
section
/-!
SUPPORT. Tests: the arithmetic, conversion and cross-lane words and the paired word: states that meet the hypotheses of their statements, and the
specification's examples, one step each.
-/

-- The witnesses are long kernel evaluations: one after another they need one thread.
set_option Elab.async false

namespace Sys2Proof.Tests

open Sys2Proof Sys2Proof.Machine
open Host (Outcome)

/-- The words of a class read their sources on a state. -/
def reads (s : State) (cs : List (Instr × Fields × List Src)) : Bool := met (cs.map fun c => (s, c.1, c.2.1, c.2.2, free))

/-- The word's one result in flight: its destinations' tags and the words of a lane, and its flags. -/
def gives (i : Instr) (s : State) (l : Fin 32) (rs : List (Tag × Word)) (flags : Word := 0#32) : Bool :=
  goes i s fun t => viewOr t fun v => match v.fib.results with
    | [p] => p.writes.map (fun w => (w.value.tag, lane w.value.lanes l)) == rs && p.flags == flags
    | _ => false

/-! ### Integers -/

/-- A state with v4 = x and v6 = y of a tag. -/
def two (t : Tag) (x y : Word) : State := regs gs [(4, t, x), (6, t, y)]

/-- A state with v4:v5 = x and v6:v7 = y as 64-bit integers. -/
def twoWide (x y : DWord) : State :=
  regs gs [(4, tagI64L, x.setWidth 32), (5, tagI64H, x.extractLsb' 32 32), (6, tagI64L, y.setWidth 32), (7, tagI64H, y.extractLsb' 32 32)]

/-- Fields d = v8, a = v4, b = v6 of a SUB. -/
def fAB (sub : Byte) : Fields := fld sub (.v 8) (.v 4) (.v 6)
/-- As fAB with a third register v10. -/
def fABC (sub : Byte) : Fields := fld sub (.v 8) (.v 4) (.v 6) (.reg (.v 10))
/-- Fields d = v8, a = v4. -/
def fA (sub : Byte) : Fields := fld sub (.v 8) (.v 4) (.v 0)

/-- Every integer word reads its sources: one register, pairs, and three. -/
theorem met_integers :
    (reads (two tagN32 1#32 2#32) ([Instr.iadd, .isub, .imul, .imin, .imax, .imulh, .imulw, .icmp].map fun c => (c (fAB 0x10), fAB 0x10, binSrcs (fAB 0x10)))
      && reads (two tagS32 1#32 2#32) [(.iabs (fA 0x00), fA 0x00, unarySrcs (fA 0x00))]
      && reads (twoWide 1#64 2#64) ([Instr.iadd64, .isub64, .imin, .imax, .icmp].map fun c => (c (fAB 0x30), fAB 0x30, binSrcs (fAB 0x30)))
      && reads (two tagN32 1#32 2#32) (([Instr.imad, .isad].map fun c =>
          (c (fABC 0x10), fABC 0x10, regSrcs (.v 4) [.tag tagN32] ++ regSrcs (.v 6) [.tag tagN32] ++ src3 (fABC 0x10) .n32 [.tag tagN32]))
        ++ ([Instr.shf, .bfi].map fun c => (c (fABC 0x10), fABC 0x10, regSrcs (.v 4) [.tag tagN32] ++ regSrcs (.v 6) [.tag tagN32] ++ src3 (fABC 0x10) .n32 [.tag tagN32])))
      && reads (two 9#6 1#32 2#32) [(.isad (fABC 0xA0), fABC 0xA0, regSrcs (.v 4) [.tag 9#6] ++ regSrcs (.v 6) [.tag 9#6] ++ src3 (fABC 0xA0) .n32 [.tag tagN32])]
      && reads (two tagN32 1#32 2#32) ([Instr.and, .or, .xor, .andn].map fun c => (c (fAB 0x10), fAB 0x10, logicSrcs (fAB 0x10)))
      && reads (twoWide 1#64 2#64) ([Instr.and, .or, .xor, .andn].map fun c => (c (fAB 0x20), fAB 0x20, logicSrcs (fAB 0x20)))
      && reads (two tagN32 1#32 2#32) [(.sel (fABC 0x10), fABC 0x10, regSrcs (.v 4) (anyExpect 1) ++ regSrcs (.v 6) (anyExpect 1) ++ [.reg (extReg (fABC 0x10)) .any]),
          (.mov (fA 0x10), fA 0x10, regSrcs (.v 4) (anyExpect 1))]
      && reads (twoWide 1#64 2#64) [(.sel (fABC 0x20), fABC 0x20, regSrcs (.v 4) (anyExpect 2) ++ regSrcs (.v 6) (anyExpect 2) ++ [.reg (extReg (fABC 0x20)) .any]),
          (.mov (fA 0x20), fA 0x20, regSrcs (.v 4) (anyExpect 2))]
      && reads (two tagN32 1#32 2#32) ([Instr.shl, .shr, .rot, .bfx].map fun c => (c (fAB 0x10), fAB 0x10, countSrcs (fAB 0x10)))
      && reads (two tagS32 1#32 2#32) [(.sra (fAB 0x00), fAB 0x00, countSrcs (fAB 0x00))]
      && reads (two tagN32 1#32 2#32) ([Instr.popc, .clz, .ctz, .brev].map fun c => (c (fA 0x10), fA 0x10, unarySrcs (fA 0x10)))) = true := by decide +kernel

/-- Values from the specification: packed saturation (R139), the 64-bit products (R140), ISAD (R141), BFX (R145), LEA (R149), and corners of the rules: a
wrap and a clamp, IABS of the most negative number, shifts by the width, counts of 0. -/
theorem test_integer_values :
    (gives (.iadd (fAB 0x90)) (two 8#6 0x7F80_10F0#32 0x01FF_0810#32) 5 [(8#6, 0x807F_1800#32)]
      && gives (.iadd (fAB 0x98)) (two 8#6 0x7F80_10F0#32 0x01FF_0810#32) 5 [(8#6, 0x7F80_1800#32)]
      && gives (.isub (fAB 0x18)) (two tagN32 1#32 2#32) 0 [(tagN32, 0#32)]
      && gives (.imul (fAB 0x10)) (two tagN32 0x8000_0001#32 2#32) 0 [(tagN32, 2#32)]
      && gives (.imulw (fAB 0x00)) (two tagS32 0x8000_0000#32 2#32) 0 [(tagI64L, 0#32), (tagI64H, 0xFFFF_FFFF#32)]
      && gives (.imulh (fAB 0x10)) (two tagN32 0x8000_0000#32 2#32) 0 [(tagN32, 1#32)]
      && gives (.imad (fABC 0x08)) (regs gs [(4, tagS32, 0x7FFF_FFFF#32), (6, tagS32, 2#32), (10, tagS32, 5#32)]) 0 [(tagS32, 0x7FFF_FFFF#32)]
      && gives (.isad (fABC 0xA0)) (regs gs [(4, 9#6, 0x0A00_FF10#32), (6, 9#6, 0x0503_0012#32), (10, tagN32, 100#32)]) 0 [(tagN32, 365#32)]
      && gives (.iabs (fA 0x00)) (two tagS32 0x8000_0000#32 0#32) 0 [(tagS32, 0x8000_0000#32)]
      && gives (.iabs (fA 0x08)) (two tagS32 0x8000_0000#32 0#32) 0 [(tagS32, 0x7FFF_FFFF#32)]
      && gives (.imin (fAB 0x20)) (twoWide 0xFFFF_FFFF_FFFF_FFFF#64 5#64) 0 [(tagI64L, 0xFFFF_FFFF#32), (tagI64H, 0xFFFF_FFFF#32)]
      && gives (.imax (fAB 0x10)) (two tagN32 0xFFFF_FFFF#32 5#32) 0 [(tagN32, 0xFFFF_FFFF#32)]
      && gives (.iadd64 (fAB 0x28)) (twoWide 0x7FFF_FFFF_FFFF_FFFF#64 5#64) 0 [(tagI64L, 0xFFFF_FFFF#32), (tagI64H, 0x7FFF_FFFF#32)]
      && gives (.isub64 (fAB 0x30)) (twoWide 0#64 1#64) 0 [(tagI64L, 0xFFFF_FFFF#32), (tagI64H, 0xFFFF_FFFF#32)]) = true := by decide +kernel

theorem test_logic_values :
    (gives (.andn (fAB 0x10)) (two tagF32 0xFF00_FF00#32 0x0F0F_0F0F#32) 0 [(tagN32, 0xF000_F000#32)]
      && gives (.and (fAB 0x00)) (two tagN32 0xFF00_FF00#32 0x0F0F_0F0F#32) 0 [(tagS32, 0x0F00_0F00#32)]
      && gives (.or (fAB 0x10)) (two tagN32 0xFF00_FF00#32 0x0F0F_0F0F#32) 0 [(tagN32, 0xFF0F_FF0F#32)]
      && gives (.xor (fAB 0x20)) (twoWide 0xFF#64 0x1_0000_000F#64) 0 [(tagI64L, 0xF0#32), (tagI64H, 1#32)]
      && gives (.sel (fABC 0x10)) (regs gs [(4, tagN32, 1#32), (6, tagN32, 2#32), (10, tagPred, 0#32)]) 0 [(tagN32, 2#32)]
      && gives (.mov (fld 0x10 (.v 8) (.v 0) (.v 0) (.shifted 0xABCDE#20))) gs 0 [(tagN32, 0xABCD_E000#32)]
      && gives (.shl (fAB 0x10)) (two tagN32 0xFFFF_FFFF#32 32#32) 0 [(tagN32, 0#32)]
      && gives (.shr (fAB 0x10)) (two tagN32 0x8000_0000#32 31#32) 0 [(tagN32, 1#32)]
      && gives (.sra (fAB 0x00)) (two tagS32 0x8000_0000#32 40#32) 0 [(tagS32, 0xFFFF_FFFF#32)]
      && gives (.rot (fAB 0x10)) (two tagN32 0x8000_0001#32 33#32) 0 [(tagN32, 3#32)]
      && gives (.rot (fAB 0x11)) (two tagN32 0x8000_0001#32 1#32) 0 [(tagN32, 0xC000_0000#32)]
      && gives (.shf (fABC 0x10)) (regs gs [(4, tagN32, 1#32), (6, tagN32, 0x8000_0000#32), (10, tagN32, 1#32)]) 0 [(tagN32, 3#32)]
      && gives (.shf (fABC 0x11)) (regs gs [(4, tagN32, 1#32), (6, tagN32, 0x8000_0000#32), (10, tagN32, 1#32)]) 0 [(tagN32, 0xC000_0000#32)]) = true := by decide +kernel

theorem test_bit_values :
    (gives (.bfx (fAB 0x00)) (two tagS32 0x0F00#32 0x0405#32) 0 [(tagS32, 0xFFFF_FFF8#32)]
      && gives (.bfx (fAB 0x10)) (two tagN32 0x0F00#32 0x0405#32) 0 [(tagN32, 8#32)]
      && gives (.bfx (fAB 0x00)) (two tagS32 0x0F00#32 0x0408#32) 0 [(tagS32, 0xFFFF_FFFF#32)]
      && gives (.bfx (fAB 0x00)) (two tagS32 0xFFFF_FFFF#32 0x0020#32) 0 [(tagS32, 0#32)]
      && gives (.bfi (fABC 0x10)) (regs gs [(4, tagN32, 0xFF#32), (6, tagN32, 0#32), (10, tagN32, 0x0404#32)]) 0 [(tagN32, 0xF0#32)]
      && gives (.popc (fA 0x10)) (two tagN32 0xF00F#32 0#32) 0 [(tagN32, 8#32)]
      && gives (.clz (fA 0x10)) (two tagN32 1#32 0#32) 0 [(tagN32, 31#32)]
      && gives (.ctz (fA 0x10)) (two tagN32 0#32 0#32) 0 [(tagN32, 32#32)]
      && gives (.brev (fA 0x10)) (two tagN32 1#32 0#32) 0 [(tagN32, 0x8000_0000#32)]
      && gives (.icmp (fAB 0x02)) (two tagS32 0xFFFF_FFFF#32 0#32) 0 [(tagPred, 1#32)]
      && gives (.icmp (fAB 0x34)) (twoWide 0x1_0000_0000#64 0xFFFF_FFFF#64) 0 [(tagPred, 1#32)]) = true := by decide +kernel

/-- LEA's example after R149, and its hypotheses. -/
theorem met_addresses :
    (let s := regs gs [(10, tagA64L, 0x1000#32), (11, tagA64H, 0x40#32), (12, tagN32, 0xFFFF_FFFD#32)]
     let f (sub : Byte) := fld sub (.v 8) (.v 10) (.v 12) (.imm 0x40#20)
     reads s [(.lea (f 0x13), f 0x13, regSrcs (.v 10) [.tag tagA64L, .tag tagA64H] ++ regSrcs (.v 12) [.tag tagN32] ++ xWords .s32 (.imm 0x40#20))]
      && gives (.lea (f 0x13)) s 0 [(tagA64L, 0x1028#32), (tagA64H, 0x48#32)] && gives (.lea (f 0x03)) s 0 [(tagA64L, 0x1028#32), (tagA64H, 0x40#32)]) = true := by decide +kernel

/-- IDIV with an active lane and with none: the quotient, the remainder and the corners of R142. -/
theorem met_divide :
    (let q (s : State) (sub : Byte) (rs : List (Tag × Word)) : Bool := goes (.idiv (fldS sub (.v 8) (.v 4) (.v 6))) s fun t => viewOr t fun v =>
       match v.sub.sfu with
        | [o] => o.writes.map (fun w => (w.value.tag, lane w.value.lanes 0)) == rs && v.fib.counter 3 == 1
        | _ => false
     reads (two tagS32 7#32 2#32) [(.idiv (fldS 0x00 (.v 8) (.v 4) (.v 6)), fldS 0x00 (.v 8) (.v 4) (.v 6), binSrcs (fldS 0x00 (.v 8) (.v 4) (.v 6))),
        (.idiv (fldG 0x00 (.v 8) (.v 4) (.v 6)), fldG 0x00 (.v 8) (.v 4) (.v 6), binSrcs (fldG 0x00 (.v 8) (.v 4) (.v 6)))]
      && viewOr gs (fun v => v.active ⟨false, 30#5⟩ == 0#32)
      && q (two tagS32 0xFFFF_FFF9#32 2#32) 0x00 [(tagS32, 0xFFFF_FFFD#32)] && q (two tagS32 0xFFFF_FFF9#32 2#32) 0x01 [(tagS32, 0xFFFF_FFFF#32)]
      && q (two tagS32 5#32 0#32) 0x00 [(tagS32, 0xFFFF_FFFF#32)] && q (two tagS32 0x8000_0000#32 0xFFFF_FFFF#32) 0x01 [(tagS32, 0#32)]
      && q (twoWide 0x1_0000_0000#64 2#64) 0x30 [(tagI64L, 0x8000_0000#32), (tagI64H, 0#32)]
      && goes (.idiv (fldG 0x00 (.v 8) (.v 4) (.v 6))) (two tagS32 7#32 2#32) fun t => viewOr t fun v => v.sub.sfu.isEmpty && v.fib.off == 1 && v.fib.outstanding.isEmpty)
      = true := by decide +kernel

/-! ### Floating point, special functions, formats -/

/-- Every floating word reads its sources. -/
theorem met_floating :
    (reads (two tagF32 0#32 0#32) ([Instr.fadd, .fsub, .fmul, .fmin, .fmax, .fcmp].map fun c => (c (fAB 0x40), fAB 0x40, fbinSrcs (fAB 0x40) .f32 tagF32))
      && reads (regs gs [(4, tagF32, 0#32), (6, tagS32, 0#32)]) [(.fscale (fAB 0x40), fAB 0x40, regSrcs (.v 4) [.tag tagF32] ++ srcB (fAB 0x40) .s32 [.tag tagS32])]
      && reads (two tagF16 0#32 0#32) ([Instr.hadd2, .hmul2, .hmnx2, .hcmp2].map fun c => (c (fAB 0x50), fAB 0x50, fbinSrcs (fAB 0x50) .p16 tagF16))
      && reads (two tagF32 0#32 0#32) [(.frnd (fA 0x40), fA 0x40, regSrcs (.v 4) [.tag tagF32]), (.fclass (fA 0x40), fA 0x40, regSrcs (.v 4) [.tag tagF32]),
          (.ffma (fABC 0x40), fABC 0x40, fternSrcs (fABC 0x40) tagF32 .f32 tagF32)]
      && reads (two tagBf16 0#32 0#32) [(.hfma2 (fABC 0x60), fABC 0x60, fternSrcs (fABC 0x60) tagBf16 .p16 tagBf16), (.fdot2 (fABC 0x60), fABC 0x60, fternSrcs (fABC 0x60) tagBf16 .f32 tagF32)]
      && reads (two 36#6 0#32 0#32) [(.fdot4 (fABC 0x20), fABC 0x20, fternSrcs (fABC 0x20) 36#6 .f32 tagF32)]
      && met ((([Instr.rcp, .rsq, .sqrt, .exp2, .log2, .sin, .cos, .tanh].map fun c => (c, false)) ++ [(Instr.fdiv, true)]).map fun c =>
          let f := if c.2 then fldS 0x40 (.v 8) (.v 4) (.v 6) else fldS 0x40 (.v 8) (.v 4) (.v 0)
          (two tagF32 0x3F80_0000#32 0x4040_0000#32, c.1 f, f, if c.2 then fbinSrcs f .f32 tagF32 else regSrcs (.v 4) [.tag tagF32],
            fun v _ _ => v.active f.guard != 0#32 && f.signal == some 3))) = true := by decide +kernel

/-- A word of each kind that the special operands are about: NaNs, signalling and quiet, an infinity, zeros, and a normal number, negative and positive. -/
theorem met_floatingSpecialOperands :
    (let mag (w : Word) := w &&& 0x7FFF_FFFF#32
     let nan (w : Word) := (0x7F80_0000#32).ult (mag w)
     let normal (w : Word) := (mag w).ult 0x7F80_0000#32 && (0x007F_FFFF#32).ult (mag w)
     nan 0x7F80_0001#32 && !(0x7F80_0001#32).getLsbD 22 && nan 0xFFC0_0000#32 && (0xFFC0_0000#32).getLsbD 22 && mag 0xFF80_0000#32 == 0x7F80_0000#32 && !nan 0xFF80_0000#32
      && mag 0x8000_0000#32 == 0#32 && normal 0x3F80_0000#32 && normal 0xC000_0000#32 && (0xC000_0000#32).getLsbD 31 && !nan 0xC000_0000#32) = true := by decide +kernel

/-- An operand for each clause of SpecialFunctionOperands, at the ends of its range: a NaN, an infinity, a zero and under FTZ the largest subnormal, a
negative number, 128 and the largest number, the largest operand of an overflowing reciprocal, powers of two, the number 1 and the largest
operand that TANH returns. -/
theorem met_specialFunctionOperands :
    (let mag (x : Word) := x &&& 0x7FFF_FFFF#32
     let sign (x : Word) := x &&& 0x8000_0000#32
     decide (0x7F80_0000 < (mag 0xFF80_0001#32).toNat) && mag 0xFF80_0000#32 == 0x7F80_0000#32 && mag 0x8000_0000#32 == 0#32
      && decide ((mag 0x807F_FFFF#32).toNat < 0x0080_0000) && sign 0xBF80_0000#32 != 0#32 && decide ((mag 0xBF80_0000#32).toNat < 0x7F80_0000)
      && [0x4300_0000#32, 0x7F7F_FFFF#32].all (fun x => sign x == 0#32 && decide (0x4300_0000 ≤ (mag x).toNat ∧ (mag x).toNat < 0x7F80_0000))
      && mag 0x0020_0000#32 != 0#32 && decide ((mag 0x0020_0000#32).toNat ≤ 0x0020_0000)
      && [1, 125, 127, 253, 254].all (fun e => (mag (BitVec.ofNat 32 (e * 2 ^ 23))).toNat == e * 2 ^ 23 && sign (BitVec.ofNat 32 (e * 2 ^ 23)) == 0#32)
      && decide ((mag 0x397F_FFFF#32).toNat < 0x3980_0000)) = true := by decide +kernel
theorem met_integerOperand : fmtF32.real 0x4000_0000 = ((2 : Int) : ℚ) ∧ fmtF32.real 0xC2FC_0000 = ((-126 : Int) : ℚ) := by
  constructor <;> norm_num [Fmt.real, fmtF32, Fmt.t, Fmt.emin]

/-- Operands of each kind that RoundedArithmetic speaks of: numbers that are not zero, of either sign, and codes of every format whose exponent is the top and is not. -/
theorem met_roundedArithmetic :
    (let finite (v : FVal) := !v.isNan && !v.isInf
     finite (in32 false 0x3F80_0000#32) && !(in32 false 0x3F80_0000#32).isZero && finite (in32 true 0xBF80_0000#32) && !(in32 true 0xBF80_0000#32).isZero
      && (in32 false 0x3F80_0000#32).neg? == false && [0x7FC0_0000, 0x7F80_0000, 0x3F80_0000].all (fun c => decide (c < 2 ^ fmtF32.k))
      && [0x7E00, 0x7C00, 0x3C00].all (fun c => decide (c < 2 ^ fmtF16.k)) && [0x7FC0, 0x7F80, 0x3F80].all (fun c => decide (c < 2 ^ fmtBf16.k))
      && in32 true 0x8000_0001#32 == .fin true 0 0) = true := by decide +kernel

/-- The examples of FSCALE (R164), HADD2 (R165), FDOT4 (R166) and FFMA with an immediate (R36), a comparison with a NaN, FMIN of zeros, FRND and FCLASS. -/
theorem test_floating_values :
    (gives (.fscale (fAB 0x40)) (regs gs [(4, tagF32, 0x0080_0000#32), (6, tagS32, 0xFFFF_FFFE#32)]) 0 [(tagF32, 0x0020_0000#32)]
      && gives (.hadd2 (fAB 0x50)) (two tagF16 0x7BFF_3C00#32 0x0400_3C00#32) 0 [(tagF16, 0x7BFF_4000#32)] flagNX
      && gives (.fdot4 (fABC 0x20)) (regs gs [(4, 36#6, 0x3838_3838#32), (6, 36#6, 0x4040_4040#32), (10, tagF32, 0x4B80_0000#32)]) 0 [(tagF32, 0x4B80_0001#32)]
      && gives (.fdot4 (fABC 0x20)) (regs gs [(4, 36#6, 0x3030_3030#32), (6, 36#6, 0x4040_4040#32), (10, tagF32, 0x4B80_0000#32)]) 0 [(tagF32, 0x4B80_0000#32)] flagNX
      && gives (.fdot4 (fABC 0x22)) (regs gs [(4, 36#6, 0x3030_3030#32), (6, 36#6, 0x4040_4040#32), (10, tagF32, 0x4B80_0000#32)]) 0 [(tagF32, 0x4B80_0001#32)] flagNX
      && gives (.ffma (fld 0x42 (.v 8) (.v 4) (.v 6) (.imm 0x3FC00#20))) (two tagF32 0x4000_0000#32 0x4000_0000#32) 0 [(tagF32, 0x40B0_0000#32)]
      && gives (.fadd (fld 0x40 (.v 8) (.v 4) (.v 0) (.imm 0x3F800#20))) (two tagS32 0xFFFF_FFFD#32 0#32) 0 [(tagF32, 0xC000_0000#32)]
      && gives (.fsub (fAB 0x40)) (two tagF32 0x7F80_0000#32 0x7F80_0000#32) 0 [(tagF32, 0x7FC0_0000#32)] flagNV
      && gives (.fmul (fAB 0x40)) (two tagF32 0x4000_0000#32 0xC040_0000#32) 0 [(tagF32, 0xC0C0_0000#32)]
      && gives (.fmin (fAB 0x40)) (two tagF32 0#32 0x8000_0000#32) 0 [(tagF32, 0x8000_0000#32)]
      && gives (.fmax (fAB 0x40)) (two tagF32 0x7FC0_0000#32 0x3F80_0000#32) 0 [(tagF32, 0x3F80_0000#32)]
      && gives (.fcmp (fAB 0x47)) (two tagF32 0x7FC0_0000#32 0x3F80_0000#32) 0 [(tagPred, 1#32)]
      && gives (.frnd (fA 0x42)) (two tagF32 0xBF33_3333#32 0#32) 0 [(tagF32, 0x8000_0000#32)]
      && gives (.fclass (fA 0x40)) (two tagF32 0xFF80_0000#32 0#32) 0 [(tagN32, 4#32)]
      && gives (.hmul2 (fAB 0x60)) (two tagBf16 0x4000_3F80#32 0x4040_4040#32) 0 [(tagBf16, 0x40C0_4040#32)]
      && gives (.hfma2 (fABC 0x50)) (regs gs [(4, tagF16, 0x3C00_3C00#32), (6, tagF16, 0x4000_4000#32), (10, tagF16, 0x3C00_BC00#32)]) 0 [(tagF16, 0x4200_3C00#32)]
      && gives (.fdot2 (fABC 0x50)) (regs gs [(4, tagF16, 0x3C00_3C00#32), (6, tagF16, 0x4000_4000#32), (10, tagF32, 0x3F80_0000#32)]) 0 [(tagF32, 0x40A0_0000#32)]
      && gives (.hmnx2 (fAB 0x51)) (two tagF16 0x3C00_BC00#32 0x4000_4000#32) 0 [(tagF16, 0x4000_4000#32)]) = true := by decide +kernel

/-- The special-function unit: two operations queued in one clock, the first accepted then and the second 4 clocks later, and a completion (the example before
R168: RCP completes 12 clocks after its acceptance; its destination is read from the next clock on). -/
theorem met_specialFunctionUnit :
    (let f := fldS 0x40 (.v 8) (.v 4) (.v 0)
     let op (id : Nat) (due : Option Nat) : SfuOp := ⟨0, 0, id, .rcp f, 0, [⟨.bank 8, 0xFFFF_FFFF#32, ⟨tagF32, lanesAll 0x3F00_0000#32⟩⟩], 0#32, due⟩
     let at_ (clock : Nat) (ops : List SfuOp) : State := ((gsF fun b => { b with outstanding := [⟨0, 3, false, 0#32⟩, ⟨1, 3, false, 0#32⟩], nextId := 2 }).modSub 0 0 fun x =>
        { x with sfu := ops, sfuNext := 4 }).modCore 0 fun k => { k with clock := clock }
     goes (.sfuAccept 0 0) (at_ 4 [op 0 (some 12), op 1 none]) (fun t => ((t.core 0).sub 0).sfu.map (·.due) == [some 12, some 16] && ((t.core 0).sub 0).sfuNext == 8)
      && goes (.sfuComplete 0 0 0) (at_ 12 [op 0 (some 12), op 1 (some 16)]) (fun t => viewOr t fun v => v.sub.bank.get 8 Reg.zero == ⟨tagF32, lanesAll 0x3F00_0000#32⟩
        && v.fib.counter 3 == 1 && v.sub.sfu.map (·.id) == [1])
      && goes (.rcp f) (two tagF32 0x4000_0000#32 0#32) (fun t => viewOr t fun v => v.sub.sfu.map (·.due) == [some 12] && v.fib.counter 3 == 1
        && v.sub.sfu.map (fun o => o.writes.map fun w => lane w.value.lanes 0) == [[0x3F00_0000#32]])) = true := by decide +kernel

/-- Conversions of every shape: one to one, to and from pairs, two sources packed, the shift form, an unpacking, and a stochastic one. -/
theorem met_conversions :
    (let fq (sub : Byte) (x : Nat) := fld sub (.v 8) (.v 4) (.v 6) (.imm (BitVec.ofNat 20 x))
     let fc (sub : Byte) (x : Nat) := fld sub (.v 8) (.v 4) (.v 0) (.imm (BitVec.ofNat 20 x))
     reads (two tagF32 0x3F80_0000#32 0x4000_0000#32) [(.cvt (fc 0x04 0xC000), fc 0x04 0xC000, regSrcs (.v 4) (fcExpect 3)),
        (.cvt (fc 0x48 0xC000), fc 0x48 0xC000, regSrcs (.v 4) (fcExpect 3)),
        (.cvtq (fq 0x10 0xC000), fq 0x10 0xC000, regSrcs (.v 4) (fcExpect 3) ++ regSrcs (.v 6) (fcExpect 3)),
        (.cvtq (fq 0x91 0xC000), fq 0x91 0xC000, regSrcs (.v 4) (fcExpect 3) ++ regSrcs (.v 6) (fcExpect 3) ++ [.reg (.v 8) .any])]
      && reads (twoWide 5#64 0#64) [(.cvt (fc 0x0C 0x48000), fc 0x0C 0x48000, regSrcs (.v 4) (fcExpect 18))]
      && reads (two tagF16 0#32 0#32) [(.cvtd (fc 0x0C 0x10000), fc 0x0C 0x10000, regSrcs (.v 4) (fcExpect 4))]
      && gives (.cvt (fc 0x04 0xC000)) (two tagF32 0xC020_0000#32 0#32) 0 [(tagS32, 0xFFFF_FFFE#32)] flagNX
      && gives (.cvt (fc 0x48 0xC000)) (two tagF32 0xBF80_0000#32 0#32) 0 [(tagI64L, 0xFFFF_FFFF#32), (tagI64H, 0xFFFF_FFFF#32)]
      && gives (.cvt (fc 0x0C 0x48000)) (twoWide 0x1_0000_0000#64 0#64) 0 [(tagF32, 0x4F80_0000#32)]
      && gives (.cvtq (fq 0x10 0xC000)) (two tagF32 0x3F80_0000#32 0x4000_0000#32) 0 [(tagF16, 0x4000_3C00#32)]
      && gives (.cvtq (fq 0x91 0xC000)) (regs gs [(4, tagF32, 0x3F80_0000#32), (6, tagF32, 0x4396_0000#32), (8, 36#6, 0x1122_3344#32)]) 0 [(36#6, 0x3344_7E40#32)] (flagOF ||| flagNX)
      && gives (.cvtd (fc 0x0C 0x10000)) (two tagF16 0x4000_3C00#32 0#32) 0 [(tagF32, 0x3F80_0000#32), (tagF32, 0x4000_0000#32)]
      && goes (.cvtq (fq 0x90 0xE800)) (regs (gsF fun b => { b with srseed := lanesAll 1#32 }) [(4, tagF32, 0x3E99_999A#32), (6, tagF32, 0#32)]) fun t => viewOr t fun v =>
        lane v.fib.srseed 0 == 0x0408_0601#32 && match v.fib.results with
          | [p] => p.writes.map (fun w => lane w.value.lanes 0 &&& 0xFFFF#32) == [0x0032#32]
          | _ => false) = true := by decide +kernel

/-- PACK6 and UNPK6 of R186's example, PRMT's two selectors, TAG, and BSCALE of R190's example. -/
theorem met_packsPermutesAndScales :
    (let s := lanesAt gs 4 tagN32 fun l => if l.val = 0 then 1#32 else if l.val = 1 then 2#32 else if l.val = 2 then 3#32 else if l.val = 3 then 0x3F#32 else 0#32
     let p := lanesAt gs 4 tagP6s fun l => if l.val = 0 then 0x00FC_3081#32 else 0#32
     let sc := lanesAt gs 4 tagF32 fun l => if l.val = 7 then 0x4396_0000#32 else 0x3F80_0000#32
     reads s [(.pack6 (fA 0x54), fA 0x54, regSrcs (.v 4) [.tag tagN32]), (.tag (fA 0x90), fA 0x90, [.reg (.v 4) .any]),
        (.prmt (fABC 0x00), fABC 0x00, [.reg (.v 4) .any, .reg (.v 6) .any] ++ src3 (fABC 0x00) .n32 [.tag tagN32])]
      && reads p [(.unpk6 (fA 0x54), fA 0x54, regSrcs (.v 4) [.tag tagP6s])] && reads sc [(.bscale (fA 0x90), fA 0x90, regSrcs (.v 4) [.tag tagF32])]
      && gives (.pack6 (fA 0x54)) s 0 [(tagP6s, 0x00FC_3081#32)] && gives (.pack6 (fA 0x54)) s 1 [(tagP6s, 0#32)]
      && gives (.unpk6 (fA 0x54)) p 3 [(tagN32, 0x3F#32)] && gives (.unpk6 (fA 0x54)) p 1 [(tagN32, 2#32)]
      && gives (.prmt (fld 0 (.v 8) (.v 4) (.v 6) (.imm 0x5410#20))) (two tagN32 0xDDCC_BBAA#32 0x4433_2211#32) 0 [(tagRaw, 0x2211_BBAA#32)]
      && gives (.prmt (fld 0 (.v 8) (.v 4) (.v 6) (.imm 0x08880#20))) (two tagN32 0xDDCC_BBAA#32 0x4433_2211#32) 0 [(tagRaw, 0xFFFF_FFAA#32)]
      && gives (.tag (fA 0x90)) s 3 [(36#6, 0x3F#32)] && gives (.bscale (fA 0x90)) sc 0 [(49#6, 0x8181_8181#32)]) = true := by decide +kernel

/-! ### Moves and combinations between lanes, and the paired word -/

/-- Ten times its number in every lane, with eight lanes active (the example after R194), and predicates. -/
theorem met_laneMovesAndVotes :
    (let s := lanesAt (lanesAt (gsF fun f => { f with exm := 0xFF#32 }) 4 tagN32 fun l => BitVec.ofNat 32 (10 * l.val)) 5 tagPred fun l => if l.val = 2 then 1#32 else 0#32
     let f (sub : Byte) (n : Nat) := fld sub (.v 6) (.v 4) (.v 0) (.imm (BitVec.ofNat 20 n))
     let p (sub : Byte) := fld sub (.v 6) (.v 5) (.v 0)
     reads s ([Instr.shfl, .bcst].map (fun c => (c (f 0 9), f 0 9, selSrcs (f 0 9)))
        ++ [(.vote (p 2), p 2, regSrcs (.v 5) [.tag tagPred]), (.matchLanes (fld 1 (.v 6) (.v 4) (.v 0)), fld 1 (.v 6) (.v 4) (.v 0), regSrcs (.v 4) [.tag tagN32])])
      && gives (.bcst (f 0 9)) s 3 [(tagN32, 90#32)] && gives (.shfl (f 1 2)) s 1 [(tagN32, 10#32)] && gives (.shfl (f 1 2)) s 7 [(tagN32, 50#32)]
      && gives (.shfl (f 2 30)) s 1 [(tagN32, 310#32)] && gives (.shfl (f 2 30)) s 2 [(tagN32, 20#32)] && gives (.shfl (f 3 33)) s 2 [(tagN32, 30#32)] && gives (.shfl (f 0 40)) s 0 [(tagN32, 80#32)]
      && gives (.vote (p 0)) s 0 [(tagPred, 1#32)] && gives (.vote (p 1)) s 0 [(tagPred, 0#32)] && gives (.vote (p 2)) s 0 [(tagN32, 4#32)] && gives (.vote (p 3)) s 0 [(tagPred, 0#32)]
      && gives (.matchLanes (fld 0 (.v 6) (.v 5) (.v 0))) s 1 [(tagN32, 0xFB#32)] && gives (.matchLanes (fld 1 (.v 6) (.v 4) (.v 0))) s 1 [(tagN32, 0#32)]) = true := by decide +kernel

/-- The example of RED and SCAN (R200) and of REDMI (R201), a 64-bit sum, and a minimum. -/
theorem met_reductionsAndScans :
    (let s := lanesAt (gsF fun f => { f with exm := 0xF#32 }) 4 tagF32 fun l => if l.val = 0 then 0x4B80_0000#32 else 0x3F80_0000#32
     let m := lanesAt (lanesAt (gsF fun f => { f with exm := 0xFF#32 }) 4 tagN32 fun l => ([9, 12, 3, 7, 3, 15, 8, 4] : List Word).getD l.val 0#32) 5 tagN32
        fun l => ([32, 33, 37, 35, 5, 38, 39, 36] : List Word).getD l.val 0#32
     let f (sub : Byte) := fld sub (.v 10) (.v 4) (.v 0)
     let q := fld 0x10 (.v 10) (.v 4) (.v 5)
     reads s [(.red (f 0x40), f 0x40, regSrcs (.v 4) (tyExpect 4)), (.scan (f 0x48), f 0x48, regSrcs (.v 4) (tyExpect 4))]
      && reads m [(.redmi q, q, regSrcs (.v 4) [.tag tagN32] ++ regSrcs (.v 5) [.tag tagN32])] && reads (twoWide 5#64 0#64) [(.red (f 0x20), f 0x20, regSrcs (.v 4) (tyExpect 2))]
      && gives (.red (f 0x40)) s 3 [(tagF32, 0x4B80_0001#32)] flagNX && gives (.scan (f 0x40)) s 3 [(tagF32, 0x4B80_0000#32)] flagNX
      && gives (.scan (f 0x48)) s 0 [(tagF32, 0x8000_0000#32)] flagNX
      && gives (.redmi q) m 7 [(tagN32, 3#32), (tagN32, 5#32)] && gives (.red (f 0x20)) (twoWide 5#64 0#64) 9 [(tagI64L, 160#32), (tagI64H, 0#32)]
      && gives (.scan (f 0x10)) (two tagN32 2#32 0#32) 9 [(tagN32, 20#32)] && gives (.red (f 0x11)) m 0 [(tagN32, 3#32)]) = true := by decide +kernel

/-- PAIR with both pipes, with three sources in the first, and with one pipe each. -/
theorem met_pairedWord :
    (let s := regs gs [(9, tagF32, 0x3F80_0000#32), (10, tagF32, 0x4000_0000#32), (14, tagS32, 5#32), (8, tagF32, 0x4040_0000#32)]
     let p (p0 : BitVec 5) (p1 : BitVec 5) : PairFields := ⟨p0, if p0 = 0 then 0 else 8, if p0 = 0 then 0 else 9, if p0 = 0 then 0 else 10, p1, if p1 = 0 then 0 else 13,
        if p1 = 0 then 0 else 14, if p1 = 0 then 0 else 14, ⟨false, 31#5⟩, ⟨0#3, 0#12, false, 15#4⟩⟩
     let srcs (q : PairFields) := (if q.p0 = 0#5 then [] else (pairOp0 q.p0.toNat).srcs q.a0 q.b0 q.d0) ++ (if q.p1 = 0#5 then [] else (pairOp1 q.p1.toNat).srcs q.a1 q.b1 q.d1)
     reads s ([p 3 1, p 4 0, p 0 1, p 1 16].map fun q => (.pair q, pairGuardFields q, srcs q))
      && gives (.pair (p 3 1)) s 0 [(tagF32, 0x4000_0000#32), (tagS32, 10#32)] && gives (.pair (p 4 0)) s 0 [(tagF32, 0x40A0_0000#32)]
      && gives (.pair (p 0 1)) s 0 [(tagS32, 10#32)] && gives (.pair (p 2 5)) s 0 [(tagF32, 0xBF80_0000#32), (tagN32, 0#32)]) = true := by decide +kernel

end Sys2Proof.Tests
end

