-- ==== Sys2Proof/Tests/CopiesAndTiles.lean ====
section
/-!
SUPPORT. Tests: copies, the matrix class and the system class: states that meet the hypotheses of their statements, and what one step then does.
-/

-- The witnesses are long kernel evaluations: one after another they need one thread.
set_option Elab.async false

namespace Sys2Proof.Tests

open Sys2Proof Sys2Proof.Machine
open Host (Outcome)

/-! ### Copies -/

/-- A state with a copy's quad in v20-v23, a global address in v4 and v5, a scratchpad offset or index in v6 and a mask in v7. -/
def quad (q0 q1 q2 q3 : Word) (a : Word := 0x2004#32) (b : Word := 0x40#32) (s : State := mapped gs) : State :=
  regs s [(20, tagN32, q0), (21, tagN32, q1), (22, tagN32, q2), (23, tagN32, q3), (4, tagA64L, a), (5, tagA64H, 0#32), (6, tagN32, b), (7, tagN32, 1#32)]

/-- The words of the copy class with their sources: CPY, CPYG, CPYM, CPYN, and CPYF of a byte into the scratchpad, of 8 bytes into it, and into memory. -/
def copyWords (f : Byte → Operand → Operand → Operand → Ext → Fields) : List (Instr × Fields × List Src) :=
  let n := [Expect.tag tagN32]
  let c := f 0x00 (.v 20) (.v 4) (.v 6) (.imm 0x100#20)
  let m := f 0x00 (.v 20) (.v 4) (.v 6) (.reg (.v 7))
  let z := f 0x00 (.v 20) (.v 6) (.v 7) .none
  let w := f 0x03 (.v 20) (.v 6) (.v 4) .none
  let g := f 0x04 (.v 20) (.v 4) (.v 7) .none
  [(.cpy c, c, quadSrcs c ++ pairSrcs c.a ++ regSrcs c.b n), (.cpyg c, c, quadSrcs c ++ pairSrcs c.a ++ regSrcs c.b n),
   (.cpym m, m, quadSrcs m ++ pairSrcs m.a ++ regSrcs m.b n ++ src3 m .n32 n), (.cpyn z, { z with a := .v 4 }, quadSrcs z ++ pairSrcs (.v 4)),
   (.cpyf z, z, quadSrcs z ++ regSrcs z.a n ++ regSrcs z.b [.any]), (.cpyf w, w, quadSrcs w ++ regSrcs w.a n ++ regSrcs w.b [.any, .any]),
   (.cpyf g, g, quadSrcs g ++ pairSrcs g.a ++ regSrcs g.b [.any])].map fun (c : Instr × Fields × List Src) => match c.1 with
    | .cpyn _ => (.cpyn c.2.1, c.2.1, c.2.2)
    | _ => c

/-- A word that stands for none. -/
def nop3 : Instr × Fields × List Src := (.cpyn (fldS 0 (.v 20) (.v 4) (.v 0)), fldS 0 (.v 20) (.v 4) (.v 0), [])

/-- The copies that the engine of core 0 holds after a word. -/
def accepted (i : Instr) (s : State) : List CopyOp := match exec i s with
  | .next t => (t.core 0).copies
  | _ => []

/-- The seven words with a sound quad, a width of 0, no active lane, a full queue, and a quad that breaks its layout. -/
theorem met_copyIssue :
    (let ok := copyWords fun sub d a b x => fldS sub d a b x
     let off := copyWords fun sub d a b x => fldG sub d a b x
     let s := quad 0x100#32 1#32 0#32 0#32
     let zero := quad 0#32 1#32 0#32 0#32
     let bad := quad 0x0100_0000#32 1#32 0#32 0#32
     let full := s.modCore 0 fun k => { k with copies := (accepted (ok.getD 0 nop3).1 s).flatMap fun o => (List.range 64).map fun n => { o with id := n } }
     met (ok.map fun c => (s, c.1, c.2.1, c.2.2, fun v ls _ => v.active c.2.1.guard != 0#32 && (src ls 0 v.leader).toNat == 256 && v.core.copies.isEmpty))
      && met (ok.map fun c => (zero, c.1, c.2.1, c.2.2, free)) && met (off.map fun c => (s, c.1, c.2.1, c.2.2, fun v _ _ => v.active c.2.1.guard == 0#32))
      && met (ok.map fun c => (full, c.1, c.2.1, c.2.2, fun v _ _ => v.core.copies.length == 64)) && met (ok.map fun c => (bad, c.1, c.2.1, c.2.2, free))
      && ok.all (fun c => goes c.1 s fun t => (t.core 0).copies.map (fun o => (o.opId, o.leader, o.width)) == [(1, 0, 256)] && viewOr t fun v => v.fib.counter 3 == 1 && v.fib.off == 1)
      && ok.all (fun c => goes c.1 zero fun t => (t.core 0).copies.isEmpty && viewOr t fun v => v.fib.counter 3 == 0 && v.fib.off == 1)
      && off.all (fun c => goes c.1 s fun t => (t.core 0).copies.isEmpty && viewOr t fun v => v.fib.counter 3 == 0 && v.fib.off == 1)
      && ok.all (fun c => stays c.1 full)
      && ok.all (fun c => goes c.1 bad fun t => faults t [0x12#8] && (t.slice 0).fault.live.map (·.entry) == [0xF#8] && (t.core 0).copies.map (·.streams) == [[]])
      && goes (ok.getD 6 nop3).1 s (fun t => (t.core 0).copies.map (fun o => (o.global, o.value)) == [(0x2004#64, 1#64)])) = true := by decide +kernel

/-- A copy of 8 bytes of memory, one to memory, and a fill, each the engine's only copy with one segment: it performs, and then completes; and the rows and
the segments of R272's example. -/
theorem met_copyEngine :
    (let s (a : Word) := (quad 8#32 0#32 0#32 0#32 0x2004#32 a).writeMem 0 0x2004 [1#8, 2#8, 3#8, 4#8, 5#8, 6#8, 7#8, 8#8]
     let f (sub : Byte) := fldS sub (.v 20) (.v 4) (.v 6)
     let fill : Fields := { f 0x01 with a := .v 6, b := .v 7 }
     let after (i : Instr) : State := match exec i (s 0x40#32) with
      | .next t => t.modCore 0 fun k => { k with clock := k.clock + 1 }
      | _ => s 0x40#32
     let engine (i : Instr) (p : State → Bool) : Bool := match (after i).view g0, ((after i).core 0).copies with
      | some v, [o] => match o.streams, v.core.tlb.find? (fun e => e.covers v.team.asid v.team.desc.world 0x2004#64) with
        | [x], some e => o.g == g0 && o.ctx == v.slot.ctx && x.fail.isNone && x.ftag.isNone && decide (x.row < x.rows) && decide ((o.advance x).rows ≤ (o.advance x).row) && o.sent.isEmpty
            && v.team.saving.isNone && !v.team.holdIssue && decide (o.issued < v.core.clock) && decide (v.core.segs < 2) && o.waitPages.isEmpty && o.walkFaults.isEmpty
            && !(after i).copyBlocked o [] x && (after i).way 0 v.team.part 0x2004 == .free && !v.fib.aborting && Memory.wf (after i).mem
            && (v.team.scratchPlaces (o.seg x).off (o.seg x).len) == some [0x40, 0x41, 0x42, 0x43, 0x44, 0x45, 0x46, 0x47]
            && (o.instr == .cpyf fill || (o.seg x).va == 0x2004) && (permCause e o.sup (!o.toGlobal) o.toGlobal v.team.desc.world).isNone && e.phys 0x2004#64 == 0x2004
            && ((after i).aliasCause v.team.part 0x2004 e).isNone && ((after i).violation v.team.part 0x2004).isNone && !((after i).line v.team.part 0x2004).poison
            && (v.core.l1.find (0x2004 / 128)).isNone && v.core.launchView == .empty
            && goes (.copySegmentIssue 0) (after i) fun t => ((t.core 0).copies.map CopyOp.complete) == [true] && p t && viewOr t (fun w => w.fib.counter 3 == 1)
              && goes (.copyComplete 0 o.id) t fun u => (u.core 0).copies.isEmpty && viewOr u (fun w => w.fib.counter 3 == 0) && p u
        | _, _ => false
      | _, _ => false
     let row (sub : Byte) (o : CopyOp) : CopyOp := { o with instr := .cpy (f sub), shape := [256#32, 3#32, 4096#32, 0#32] }
     engine (.cpy (f 0x00)) (fun t => (t.core 0).scratchBytes 0x40 8 == [1#8, 2#8, 3#8, 4#8, 5#8, 6#8, 7#8, 8#8])
      && engine (.cpy (f 0x04)) (fun t => t.readMem 0 0x2002 12 == List.replicate 12 0#8 && (t.core 0).scratch == (gs.core 0).scratch)
      && engine (.cpyf fill) (fun t => (t.core 0).scratchBytes 0x3E 12 == [0#8, 0#8, 1#8, 0#8, 1#8, 0#8, 1#8, 0#8, 1#8, 0#8, 0#8, 0#8])
      && (accepted (.cpy (f 0x00)) (s 0x40#32)).map (fun o => ({ row 0x02 o with shape := [4#32, 0x0002_0001#32, 16#32, 64#32] } : CopyOp).rowGlobal (2 * 2 + 1)) == [0x2004 + 2 * 64 + 16]
      && (accepted (.cpy (f 0x00)) (s 0x40#32)).map (fun o => let x := { row 0x01 o with global := 0x2000_0000_0040#64 }
          x.parts.map fun p => (x.segsLeft p).length) == [[12]]) = true := by decide +kernel

/-! ### The matrix class -/

/-- The group's team with tiles and maps 0 and 1 of its sub-partition, a map quad in v20-v23, and zero in v6, 128 in v7. -/
def units (s : State := mapped gs) : State :=
  (regs s [(20, tagN32, 0#32), (21, tagN32, 0x400#32), (22, tagN32, 0x0022_0020#32), (23, tagN32, noArray), (6, tagN32, 0#32), (7, tagN32, 128#32)]).modSub 0 0 fun x =>
    { x with tileOwner := ⟨[(0, 0), (1, 0)]⟩, mapOwner := ⟨[(0, 0), (1, 0)]⟩ }

/-- That state with its two maps reserved: 32 rows, and 32 columns, of 32 bytes. -/
def twoMaps : State :=
  let m (l : Bool) (b : BitVec 21) : OpMap := ⟨true, b, 1024#22, l, 32#16, 34#6, 0#2, noArray, noArray, noArray, 0#4⟩
  units.modSub 0 0 fun x => { x with maps := ⟨[(0, m false 0#21), (1, m true 1024#21)]⟩ }

/-- The four words of maps, of map n with a selector. -/
def mapWords (f : Byte → Operand → Operand → Operand → Ext → Fields) (n sel : Byte) : List (Instr × Fields × List Src) :=
  let r := f n (.v 8) (.v 20) (.v 0) .none
  let w := f (n ||| sel <<< 4) (.v 0) (.v 0) (.v 0) (.imm 0x30#20)
  let g := f (n ||| sel <<< 4) (.v 8) (.v 0) (.v 0) .none
  let l := f n (.v 0) (.v 0) (.v 0) .none
  let n32 := Expect.tag tagN32
  [(.mapres r, r, regSrcs r.a [n32, n32, n32, n32]), (.mapset w, w, xWords .n32 w.ext), (.mapget g, g, []), (.maprel l, l, [])]

/-- The eight words of tiles, of tile t; the products take maps a and b. -/
def tileWords (f : Byte → Operand → Operand → Operand → Ext → Fields) (t a : Byte) (b : BitVec 20) : List (Instr × Fields × List Src) :=
  let z := f (t <<< 4) (.v 0) (.v 0) (.v 0) .none
  let l := f (t <<< 4) (.v 20) (.v 0) (.v 0) (.imm 0x22#20)
  let d := f (t <<< 4) (.v 0) (.v 28) (.v 0) (.imm 0x22#20)
  let s := f (t <<< 4) (.v 0) (.v 6) (.v 7) (.imm (3#20 <<< 14))
  let q := f (t <<< 4) (.v 0) (.v 6) (.v 7) (.imm (1#20 <<< 15))
  let m := f (t <<< 4 ||| a) (.v 0) (.v 0) (.v 0) (.imm (b <<< 16))
  let g := f (t <<< 4 ||| a) (.v 0) (.v 6) (.v 0) (.imm (b <<< 16))
  let n := [Expect.tag tagN32]
  [(.accz z, z, []), (.accld l, l, []), (.accadd d, d, regSrcs d.a (List.replicate (accRows d) (.tag tagF32))), (.accst s, s, regSrcs s.a n ++ regSrcs s.b n),
   (.accq q, q, regSrcs q.a n ++ regSrcs q.b n), (.mma m, m, []), (.mmas m, m, []), (.mmag g, g, regSrcs g.a n)]

/-- The newest operation of the group's unit. -/
def newest (t : State) (p : MatOp → Bool) : Bool := match ((t.core 0).sub 0).matrix.getLast? with
  | some o => p o
  | none => false

/-- The words of maps: no active lane, no such map, free maps and reserved ones. -/
theorem met_mapWords :
    (let f (sub : Byte) (d a b : Operand) (x : Ext) := fldS sub d a b x
     let off (sub : Byte) (d a b : Operand) (x : Ext) := fldG sub d a b x
     let of (s : State) (p : View → Bool) (w : List (Instr × Fields × List Src)) : Bool := met (w.map fun c => (s, c.1, c.2.1, c.2.2, fun v _ _ => p v))
     let one (l : List (Instr × Fields × List Src)) (n : Nat) : Instr := (l.getD n nop3).1
     let m (w : List (Instr × Fields × List Src)) (n : Nat) := one w n
     of units (fun v => v.active (fldG 0 (.v 0) (.v 0) (.v 0)).guard == 0#32) (mapWords off 0#8 3#8)
      && of units (fun v => (v.mapNum 5).isNone) (mapWords f 5#8 3#8)
      && of units (fun v => v.mapNum 1 == some 1 && (v.sub.maps.find 1).isNone && v.team.desc.scratch == 131072) (mapWords f 1#8 3#8)
      && of twoMaps (fun v => v.mapNum 1 == some 1 && (v.sub.maps.find 1).map OpMap.reserved == some true) (mapWords f 1#8 3#8 ++ mapWords f 1#8 9#8)
      && (mapWords off 0#8 3#8).all (fun c => goes c.1 units fun t => ((t.core 0).sub 0).matrix.isEmpty && viewOr t fun v => v.fib.counter 3 == 0 && v.fib.off == 1)
      && (mapWords f 5#8 3#8).all (fun c => goes c.1 units fun t => faults t [0x50#8] && (t.slice 0).fault.live.map (fun r => (r.entry, r.full.address)) == [(0xE#8, 5#64)])
      && goes (m (mapWords f 1#8 3#8) 0) units (fun t => newest t (fun o => o.doneAt == 14 && o.data == [lanesAll 0#32] && o.dest == [.bank 8])
        && ((t.core 0).sub 0).maps.find 1 == some ⟨true, 0#21, 1024#22, false, 32#16, 34#6, 0#2, noArray, noArray, noArray, 0#4⟩)
      && goes (m (mapWords f 1#8 3#8) 0) twoMaps (fun t => newest t (fun o => o.data == [lanesAll 1#32]) && ((t.core 0).sub 0).maps == ((twoMaps.core 0).sub 0).maps)
      && goes (m (mapWords f 1#8 3#8) 1) units (fun t => faults t [0x51#8]) && goes (m (mapWords f 1#8 3#8) 2) units (fun t => faults t [0x51#8])
      && goes (m (mapWords f 1#8 3#8) 1) twoMaps (fun t => newest t (fun o => o.dest.isEmpty)
        && ((t.core 0).sub 0).maps.find 1 == some ⟨true, 1024#21, 1024#22, true, 48#16, 34#6, 0#2, noArray, noArray, noArray, 0#4⟩)
      && goes (m (mapWords f 1#8 9#8) 1) twoMaps (fun t => newest t (fun o => o.dest.isEmpty) && ((t.core 0).sub 0).maps == ((twoMaps.core 0).sub 0).maps)
      && goes (m (mapWords f 1#8 3#8) 2) twoMaps (fun t => newest t (fun o => o.data == [lanesAll 32#32] && o.dest == [.bank 8]))
      && goes (m (mapWords f 1#8 3#8) 3) twoMaps (fun t => (((t.core 0).sub 0).maps.find 1).map OpMap.reserved == some false)) = true := by decide +kernel

/-- The words of tiles: no active lane, a full queue, no such tile, and an operation that enters the unit; products of a map that is not there and of one that
is not reserved. -/
theorem met_tileWords :
    (let f (sub : Byte) (d a b : Operand) (x : Ext) := fldS sub d a b x
     let off (sub : Byte) (d a b : Operand) (x : Ext) := fldG sub d a b x
     let of (s : State) (p : View → Bool) (w : List (Instr × Fields × List Src)) : Bool := met (w.map fun c => (s, c.1, c.2.1, c.2.2, fun v _ _ => p v))
     let s := regs twoMaps [(28, tagF32, 0x3F80_0000#32)]
     let after (i : Instr) : State := match exec i s with
      | .next t => t
      | _ => s
     let made := ((after ((tileWords f 0#8 0#8 1#20).getD 0 nop3).1).core 0).sub 0
     let full := s.modSub 0 0 fun x => { x with matrix := made.matrix.flatMap fun o => (List.range 16).map fun n => { o with seq := n } }
     let products (w : List (Instr × Fields × List Src)) := w.drop 5
     of s (fun v => v.active (fldG 0 (.v 0) (.v 0) (.v 0)).guard == 0#32) (tileWords off 0#8 0#8 1#20) && of full (fun v => !v.matRoom) (tileWords f 0#8 0#8 1#20)
      && of s (fun v => v.matRoom && (v.tileNum 9).isNone) (tileWords f 9#8 0#8 1#20)
      && of s (fun v => v.matRoom && v.tileNum 1 == some 1 && v.productMap 0 matches .ok _ && v.productMap 1 matches .ok _) (tileWords f 1#8 0#8 1#20)
      && of s (fun v => v.productMap 7 matches .error (0x50#8, 7)) (products (tileWords f 1#8 7#8 1#20))
      && of units (fun v => v.productMap 0 matches .error (0x51#8, 0)) (products (tileWords f 1#8 0#8 1#20))
      && (tileWords off 0#8 0#8 1#20).all (fun c => goes c.1 s fun t => ((t.core 0).sub 0).matrix.isEmpty && viewOr t fun v => v.fib.counter 3 == 0 && v.fib.off == 1)
      && (tileWords f 0#8 0#8 1#20).all (fun c => stays c.1 full)
      && (tileWords f 9#8 0#8 1#20).all (fun c => goes c.1 s fun t => faults t [0x50#8] && (t.slice 0).fault.live.map (fun r => (r.entry, r.full.address)) == [(0xE#8, 9#64)])
      && (products (tileWords f 1#8 7#8 1#20)).all (fun c => goes c.1 s fun t => faults t [0x50#8])
      && (products (tileWords f 1#8 0#8 1#20)).all (fun c => goes c.1 units fun t => faults t [0x51#8])
      && (tileWords f 1#8 0#8 1#20).all (fun c => goes c.1 s fun t => newest t (fun o => o.tile == 1 && o.instr == c.1 && o.started.isNone) && viewOr t fun v => v.fib.counter 3 == 1)
      && goes ((tileWords f 1#8 0#8 1#20).getD 5 nop3).1 s (fun t => newest t fun o => o.reads == [(0, 1024), (1024, 1024)] && o.maps.length == 2)
      && goes ((tileWords f 1#8 0#8 1#20).getD 3 nop3).1 s (fun t => newest t fun o => o.base == 0 && o.other == 128)) = true := by decide +kernel

/-- The two maps, tile 1 with the word 5 in every place, the unit active, and a word of the matrix class in the unit. -/
def inUnit (i : Instr) (m : Mask := 0xFFFF_FFFF#32) : State :=
  let s := ((regs (twoMaps.modFibre g0 fun b => { b with exm := m }) [(28, tagF32, 0x3F80_0000#32)])).modSub 0 0 fun x => { x with tiles := ⟨[(1, List.replicate 32 (lanesAll 5#32))]⟩, matActive := true }
  match exec i s with
  | .next t => t.modCore 0 fun k => { k with closing := true }
  | _ => s

/-- That state with the operation started and its clocks over. -/
def inUnitDone (i : Instr) (m : Mask := 0xFFFF_FFFF#32) : State :=
  let s := match ((inUnit i m).core 0).sub 0 |>.matHead, exec (.matrixOpStart 0 0) (inUnit i m) with
    | some _, .next t => t
    | _, _ => inUnit i m
  s.modCore 0 fun k => { k with clock := 100 }

/-- The words of tiles and maps of the two maps, by their numbers in the lists. -/
def tw (n : Nat) : Instr := ((tileWords (fun sub d a b x => fldS sub d a b x) 1#8 0#8 1#20).getD n nop3).1
def mw (n : Nat) : Instr := ((mapWords (fun sub d a b x => fldS sub d a b x) 1#8 3#8).getD n nop3).1

/-- The completing operation of a unit, which is the only one, and what its completion gives. -/
def ready (i : Instr) (m : Mask) (p : View → MatOp → Bool) (q : State → Bool) : Bool := viewOr (inUnitDone i m) fun v => match v.sub.matrix with
  | [o] => o.group 0 0 == g0 && o.ctx == v.slot.ctx && !v.fib.aborting && o.started.isSome && decide (o.doneAt ≤ v.core.clock) && v.core.closing && p v o
    && goes (.matrixOpComplete 0 0 o.seq) (inUnitDone i m) fun t => ((t.core 0).sub 0).matrix.isEmpty && q t && viewOr t fun w => w.fib.counter 3 == 0
  | _ => false

/-- Starts of ACCZ, ACCLD, ACCST, ACCADD, ACCQ and of the products over 8-bit operands, with their clocks. -/
theorem met_matrixStart :
    (let starts (i : Instr) (p : MatOp → Bool) : Bool := viewOr (inUnit i) fun v => match v.sub.matHead with
      | some o => o.instr == i && o.group 0 0 == g0 && v.core.closing && v.sub.canStart v.core.clock && v.sub.storesDue.isEmpty && p o
      | none => false
     starts (tw 0) (fun o => (((inUnit (tw 0)).core 0).sub 0).tile o.tile == List.replicate 32 (lanesAll 5#32))
      && goes (.matrixOpStart 0 0) (inUnit (tw 0)) (fun t => newest t (fun o => o.started == some 10 && o.occEnd == 11 && o.doneAt == 14)
        && ((t.core 0).sub 0).tile 1 == List.replicate 32 (lanesAll 0#32))
      && starts (tw 1) (fun o => o.instr matches .accld _) && starts (tw 3) (fun o => o.base == 0 && o.other == 128)
      && goes (.matrixOpStart 0 0) (inUnit (tw 1)) (fun t => newest t fun o => o.occEnd == 11 && o.doneAt == 15 && o.data == [lanesAll 5#32])
      && goes (.matrixOpStart 0 0) (inUnit (tw 3)) (fun t => newest t fun o => o.occEnd == 26 && o.doneAt == 34 && o.bytes.contains (31 * 128 + 4 * 7, 5#8)
        && o.bytes.contains (31 * 128 + 4 * 7 + 1, 0#8))
      && (((inUnit (tw 5)).core 0).sub 0).matActive
      && starts (tw 2) (fun o => o.data == [lanesAll 0x3F80_0000#32] && (((inUnit (tw 2)).core 0).sub 0).tile o.tile == List.replicate 32 (lanesAll 5#32))
      && goes (.matrixOpStart 0 0) (inUnit (tw 2)) (fun t => newest t (fun o => o.occEnd == 11 && o.doneAt == 15)
        && ((((t.core 0).sub 0).tile 1).map fun r => lane r 3) == (List.replicate 32 5#32).set 2 0x3F80_0000#32)
      && starts (tw 4) (fun o => o.base == 0 && o.other == 128) && goes (.matrixOpStart 0 0) (inUnit (tw 4)) (fun t => newest t fun o => o.occEnd == 34 && o.doneAt == 42)
      && [tw 5, tw 6, tw 7].all (fun i => starts i fun o => o.mapA.wide == o.mapB.wide && !o.mapA.scaled && (((inUnit i).core 0).sub 0).matActive)
      && goes (.matrixOpStart 0 0) (inUnit (tw 5)) (fun t => newest t fun o => o.occEnd == 42 && o.doneAt == 48)
      && goes (.matrixOpStart 0 0) (inUnit (tw 6)) (fun t => newest t fun o => o.occEnd == 42 && o.doneAt == 48)
      && goes (.matrixOpStart 0 0) (inUnit (tw 7)) (fun t => newest t fun o => o.occEnd == 58 && o.doneAt == 64)
      && starts (tw 5) (fun o => o.table.isNone && !o.mapA.scaled && !o.mapB.scaled && o.mapA.fmt == 34#6 && o.mapB.fmt == 34#6 && !o.mapA.layout && o.mapB.layout)) = true := by decide +kernel

/-- Completions of ACCLD, MAPGET, MAPRES and ACCST. -/
theorem met_matrixComplete :
    (let all_ : Mask := 0xFFFF_FFFF#32
     ready (tw 1) all_ (fun _ o => o.dest == [.bank 20]) (fun t => bankIs t 20 ⟨tagF32, lanesAll 5#32⟩)
      && ready (mw 2) all_ (fun _ o => o.dest == [.bank 8] && o.data == [lanesAll 32#32]) (fun t => bankIs t 8 ⟨tagN32, lanesAll 32#32⟩)
      && ready (mw 0) all_ (fun _ o => o.dest == [.bank 8] && o.data == [lanesAll 1#32]) (fun t => bankIs t 8 ⟨tagN32, lanesAll 1#32⟩)
      && ready (tw 3) 4#32 (fun v o => !o.written && !(inUnitDone (tw 3) 4#32).storeWaits 0 0 o v.team && o.other == 128 && o.base == 0 && v.team.desc.scratch == 131072)
          (fun t => (t.core 0).scratchBytes (31 * 128 + 6) 8 == [0#8, 0#8, 5#8, 0#8, 0#8, 0#8, 0#8, 0#8])) = true := by decide +kernel

/-- The end of an occupancy in a window with a leave left and in one without, and a window of the limiter. -/
theorem met_matrixWindows :
    (let idle (w : Nat) : State := (inUnitDone (tw 0)).modCore 0 fun k => { k with power := { k.power with window := w, downs := 1 } }
     (((idle 101).core 0).sub 0).matHead.isNone && (((idle 101).core 0).sub 0).matActive && (((idle 101).core 0).sub 0).matLeave.isNone
      && goes (.matrixOccupancyEnd 0 0) (idle 101) (fun t => !((t.core 0).sub 0).matActive && (t.core 0).power.downs == 0)
      && goes (.matrixOccupancyEnd 0 0) (idle 97) (fun t => ((t.core 0).sub 0).matActive && ((t.core 0).sub 0).matLeave == some 100)
      && goes (.limiterWindow 0) (idle 97) (fun t => (t.core 0).power.window == 101 && (t.core 0).power.ups == 2 && (t.core 0).power.downs == 1)) = true := by decide +kernel

end Sys2Proof.Tests
end

