-- ==== Sys2Proof/Tests/GeneratorWords.lean ====
section
/-!
SUPPORT. Tests: the generator: states that meet the hypotheses of its statements, and what one step then does.
-/

-- The witnesses are long kernel evaluations: one after another they need one thread.
set_option Elab.async false

namespace Sys2Proof.Tests

open Sys2Proof Sys2Proof.Machine
open Host (Outcome)

/-! ### Small states -/

/-- The probe's generator context, with its registers, at word 3 of 100. -/
def gen (rs : List (Nat × DWord)) (u : Team → Team := id) : State :=
  let s := (State.reset.withFetchWord 96 0).modTeam 0 0 fun t =>
    u { t with gen := { t.gen with g := rs.foldl (fun m r => m.set r.1 r.2) t.gen.g, pc := 3 }, hdr := { t.hdr with genWords := 100 } }
  { s with cur := .ctx ⟨0, 0⟩ }

/-- Fields of a generator word. -/
def gf (sub : Byte) (d a b : Nat) (x : Ext := .none) : GenFields := ⟨sub, BitVec.ofNat 6 d, BitVec.ofNat 6 a, BitVec.ofNat 6 b, x⟩

/-- What holds of the context's team. -/
def team (t : State) (p : Team → Bool) : Bool := match t.team? 0 0 with
  | some m => p m
  | none => false

/-- The context has moved to a word, is ready a number of clocks after the reset clock, and a register holds a value. -/
def moved (t : State) (pc n r : Nat) (w : DWord) : Bool := team t fun m =>
  m.gen.pc == pc && m.gen.run == .ready ((State.reset.core 0).clock + n) && m.gen.reg (BitVec.ofNat 6 r) == w

/-- The context is frozen at its word by the level-G fault of a cause. -/
def genFault (t : State) (cs : List Byte) : Bool := team t (fun m => m.gen.run == .frozen && m.gen.pc == 3)
  && (t.slice 0).fault.live.map (fun r => (r.cause, r.level, r.agent == .ctx ⟨0, 0⟩)) == cs.map (·, true, true)

/-- The hypotheses of an access: the context acts, its address passes, and nothing of the line stands in the way. -/
def passes (s : State) (va : DWord) (size : Nat) (r w l : Bool) : Bool := match s.team? 0 0 with
  | some t => match (s.genCheck ⟨0, 0⟩ t va size r w l).1 with
    | .ready pa => s.cur == .ctx ⟨0, 0⟩ && (s.core 0).watches == .empty && (s.core 0).launchView == .empty && !(s.line t.part pa).poison && t.part == s.partOf 0
        && ((s.core 0).l1.find (pa / 128)).isNone && Memory.wf s.mem && (s.cells.get (memKey t.part pa) []).isEmpty
    | _ => false
  | none => false

/-! ### Registers, transfers and memory -/

/-- Arithmetic, immediates and special registers. -/
theorem met_generatorRegisters :
    (let s := gen [(1, 0xFFFF_FFFF_FFFF_FFF0#64), (2, 7#64)]
     let galu (op : Byte) := goes (.galu (gf op 5 1 2)) s
     s.cur == .ctx ⟨0, 0⟩ && (s.team? 0 0).isSome && Memory.wf s.mem
      && galu 0#8 (moved · 4 1 5 0xFFFF_FFFF_FFFF_FFF7#64) && galu 1#8 (moved · 4 1 5 0xFFFF_FFFF_FFFF_FFE9#64) && galu 7#8 (moved · 4 1 5 0xFFFF_FFFF_FFFF_FFFF#64)
      && galu 9#8 (moved · 4 1 5 6#64) && galu 10#8 (moved · 4 1 5 1#64) && galu 11#8 (moved · 4 1 5 0#64) && galu 13#8 (moved · 4 1 5 7#64) && galu 14#8 (moved · 4 1 5 7#64)
      && goes (.galu (gf 0 5 2 0 (.imm 0xFFFFF#20))) s (moved · 4 1 5 6#64) && goes (.galu (gf 2 5 1 0 (.imm 0xFFFFF#20))) s (moved · 4 1 5 0xFFFF0#64)
      && goes (.galu (gf 0 5 2 0 (.shifted 0x80000#20))) s (moved · 4 1 5 0xFFFF_FFFF_8000_0007#64)
      && goes (.galu (gf 0 0 1 2)) s (moved · 4 1 0 0#64)
      && goes (.gmovi (gf 1 1 0 0 (.imm 0x12345#20))) s (moved · 4 1 1 0xFFFF_FF12_345F_FFF0#64) && goes (.gmovi (gf 3 1 0 0 (.imm 0x12345#20))) s (moved · 4 1 1 0x5FFF_FFFF_FFFF_FFF0#64)
      && goes (.grdsr (gf 0x11 5 0 0)) s (moved · 4 1 5 0x8000#64) && goes (.grdsr (gf 0x0B 5 0 0)) s (moved · 4 1 5 0#64)
      && goes (.grdsr (gf 0x13 5 0 0)) (s.modSlice 0 fun x => { x with cyc := 0x5_0000_0000#64 }) (moved · 4 1 5 0x5_0000_0000#64)) = true := by decide +kernel

/-- Transfers: to the first word and the last, past the last and before the first, taken or not. -/
theorem met_generatorTransfers :
    (let s := gen [(1, 99#64), (2, 100#64), (4, 0xFFFF_FFFF_FFFF_FFFF#64)]
     let rel (x : Int) : Ext := .rel (BitVec.ofInt 20 x)
     goes (.gjmp (gf 0 0 0 0 (rel 96))) s (moved · 99 2 5 0#64) && goes (.gjmp (gf 0 0 0 0 (rel 97))) s (genFault · [1#8])
      && goes (.gjmp (gf 0 0 0 0 (rel (-3)))) s (moved · 0 2 5 0#64) && goes (.gjmp (gf 0 0 0 0 (rel (-4)))) s (genFault · [1#8])
      && goes (.gcall (gf 0 5 0 0 (rel 96))) s (moved · 99 2 5 4#64) && goes (.gcall (gf 0 5 0 0 (rel (-4)))) s (fun t => genFault t [1#8] && team t fun m => m.gen.reg 5#6 == 4#64)
      && goes (.gbr (gf 2 0 4 1 (rel 2))) s (moved · 5 2 5 0#64) && goes (.gbr (gf 4 0 4 1 (rel 2))) s (moved · 4 1 5 0#64) && goes (.gbr (gf 1 0 4 1 (rel (-4)))) s (genFault · [1#8])
      && goes (.gjmpReg (gf 0 0 1 0)) s (moved · 99 2 5 0#64) && goes (.gjmpReg (gf 0 0 2 0)) s (genFault · [1#8])
      && goes (.gcallReg (gf 0 1 1 0)) s (moved · 99 2 1 4#64) && goes (.gcallReg (gf 0 1 2 0)) s (genFault · [1#8])
      && goes (.gret (gf 0 0 1 0)) s (moved · 99 2 5 0#64) && goes (.gret (gf 0 0 4 0)) s (genFault · [1#8])) = true := by decide +kernel

/-- Accesses: loads, stores, an atomic, cells, fences and a misaligned address. -/
theorem met_generatorMemory :
    (let s := (gen [(1, 0x4000#64), (2, 0x0102_0304_8506_0788#64), (3, 0x4001#64)]).writeMem 0 0x4000 [0xF0#8, 0xFF#8, 1#8, 0#8]
     let cell (w : Nat) := s.writeMem 0 0x4000 (leBytes 8 w)
     let state (t : State) : DWord := t.cellState 0 0x4000
     let dirty : State := s.modCore 0 fun k => { k with l1 := ⟨[(64, ⟨⟨[(4, (9#8, true))]⟩, false, 5#12⟩)]⟩ }
     [(1, true, false, false), (4, false, true, false), (8, false, true, true), (4, true, true, false), (64, true, true, false)].all (fun x => passes s 0x4000#64 x.1 x.2.1 x.2.2.1 x.2.2.2)
      && goes (.gld (gf 1 5 1 0 .none)) s (moved · 4 1 5 0xFFF0#64) && goes (.gld (gf 5 5 1 0 .none)) s (moved · 4 1 5 0xFFFF_FFFF_FFFF_FFF0#64)
      && goes (.gld (gf 2 5 1 0 (.imm 4#20))) s (moved · 4 1 5 0#64) && goes (.gld (gf 1 5 3 0)) s (genFault · [1#8]) && goes (.gst (gf 3 0 3 2)) s (genFault · [1#8])
      && goes (.gacq (gf 0 0 3 0)) s (genFault · [1#8])
      && goes (.gst (gf 1 0 1 2)) s (fun t => moved t 4 1 5 0#64 && ((t.core 0).l1.find 128).map (fun x => (x.cells.find 0, x.cells.find 1, x.cells.find 2)) == some (some (0x88#8, true), some (7#8, true), none))
      && goes (.gatom (gf 0 5 1 2)) s (fun t => moved t 4 1 5 0x0001_FFF0#64 && t.readMem 0 0x4000 5 == [0x78#8, 7#8, 8#8, 0x85#8, 0#8])
      && goes (.gacq (gf 1 0 1 0)) (cell 0) (fun t => moved t 4 1 5 0#64 && state t == 0x8000_0000_0000_0000#64) && goes (.gacq (gf 0 0 1 0)) (cell 3) (fun t => moved t 4 1 5 0#64 && state t == 4#64)
      && passes (cell 0x8000_0000_0000_0000) 0x4000#64 64 true true false
      && goes (.gacq (gf 0 0 1 0)) (cell 0x8000_0000_0000_0000) (fun t => team t (fun m => m.gen.run == .waitCell 0 []) && t.cells.get (memKey 0 0x4000) [] == [⟨.ctx ⟨0, 0⟩, 0, false⟩])
      && goes (.grel (gf 0 0 1 0)) (cell 0x8000_0000_0000_0000) (fun t => moved t 4 1 5 0#64 && state t == 0#64) && goes (.grel (gf 0 0 1 0)) (cell 3) (fun t => moved t 4 1 5 0#64 && state t == 2#64)
      && goes (.gfence (gf 0x38 0 0 0)) dirty (fun t => moved t 4 1 5 0#64 && (t.core 0).l1 == (dirty.core 0).l1) && goes (.gfence (gf 0x48 0 0 0)) dirty (fun t => (t.core 0).l1.cells.isEmpty)
      && goes (.gfence (gf 0x50 0 0 0)) dirty (fun t => (t.core 0).l1.vals.map L1Line.dirty == [[]])
      && s.l1Room 0 == 3072 && !dirty.genCacheWaits 0 && (recovering dirty).genCacheWaits 0
      && goes (.gfence (gf 0x48 0 0 0)) (recovering dirty) (fun t => team t (fun m => m.gen.run == .ready (((dirty.core 0).clock) + 1) && m.gen.pc == 3) && (t.core 0).l1 == (dirty.core 0).l1)) = true := by decide +kernel

/-- A cache with no way left, whatever the size of a way that has lines: a store of the context goes to the home bank. -/
theorem met_noWays (h : 0 < Config.l1WayLines) :
    ((gen [(1, 0x4000#64)]).modSlice 0 fun x => { x with err := { x.err with waysOff := ⟨[(0, 3072)]⟩ } }).l1Room 0 = 0 :=
  Nat.sub_eq_zero_of_le (Nat.le_mul_of_pos_right 3072 h)

/-! ### Blocks, emission and starts -/

/-- The context with template words at offset 0 and 12 (a NOP and one that no word is), a start descriptor at offset 16 of its data, block 3 as given, and
a slot of one unit. -/
def code (opened : Option Nat) (b : Option Block) (rs : List (Nat × DWord)) : State :=
  let s := gen (rs ++ [(6, 0x0000_0000_01F0_000F#64), (7, 0x2000_0000#64), (8, 0#64), (9, 0xFFFF_FFFF#64)]) fun t =>
    { t with hdr := { t.hdr with tmplOff := 0x200, tmplLen := 48, dataOff := 0x400, dataLen := 64 }, gen := { t.gen with opened := opened } }
  let s := (s.writeMem 0 0x10200 (leBytes 12 0x2000_0000_0000_0000_01F0_000F)).writeMem 0 0x1020C (leBytes 12 (2 ^ 96 - 1))
  let s := (s.writeMem 0 0x10410 (leBytes 8 0x101)).writeMem 0 0x10428 (leBytes 4 0x400)
  let s := (s.writeMem 0 0x10218 (leBytes 12 0x2000_0000_0000_0000_01F0_000F)).writeMem 0 0x10224 (leBytes 12 0x2000_0000_0000_0000_01F0_000F)
  s.modCore 0 fun k =>
    let k := { k with blocks := match b with
      | some b => k.blocks.set 3 b
      | none => k.blocks }
    k.modSub 0 fun x => { x with slots := x.slots.set 0 (.fresh 0 [0]) }

/-- A block of the context's owner: state, words, capacity, key and clock of registration. -/
def blk (st : BlockState) (len cap : Nat) (key : DWord := 0#64) (regAt : Nat := 0) : Block :=
  ⟨st, 0, (cap + 63) / 64, len, cap, ⟨0x10000#64, 0#12, 0⟩, true, key, regAt, 0⟩

/-- Clock 10 of core 0. -/
def at10 (s : State) : State := s.modCore 0 fun k => { k with clock := 10 }

/-- The context with a queue of words. -/
def queued (n : Nat) (s : State) : State := s.modTeam 0 0 fun t => { t with gen := { t.gen with queue := List.replicate n ⟨5#96, 6#32⟩ } }

/-- The context in a run. -/
def running (r : GenRun) (s : State) : State := s.modTeam 0 0 fun t => { t with gen := { t.gen with run := r } }

/-- Opening, sealing, finding and freeing blocks. -/
theorem met_generatorBlocks :
    (let none_ := code none none [(1, 100#64), (2, 0x77#64)]
     let full := code none (some (blk .opened 0 (64 * Config.storeGranules))) []
     let open_ := code (some 3) (some (blk .opened 5 64)) [(2, 0x77#64)]
     let found (at_ : Nat) := at10 (code none (some (blk .sealed 5 64 0x77#64 at_)) [(2, 0x77#64), (1, 3#64), (4, 0x103#64)])
     let opened (t : State) : Bool := moved t 4 2 5 0#64 && (t.core 0).blocks.find 0 == some ⟨.opened, 0, 2, 0, 128, ⟨0x10000#64, 0#12, 0⟩, true, 0#64, 0, 0⟩ && team t fun m => m.gen.opened == some 0
     (none_.core 0).freeBlock == some 0 && (none_.core 0).freeRun 2 == some 0 && (full.core 0).freeRun 2 == none
      && goes (.gblkopen (gf 0 5 0 0 (.imm 100#20))) none_ opened && goes (.gblkopen (gf 0 5 1 0)) none_ opened
      && goes (.gblkopen (gf 0 5 0 0 (.imm 4096#20))) none_ (fun t => ((t.core 0).blocks.find 0).map (fun b => (b.granules, b.capacity)) == some (64, 4096))
      && goes (.gblkopen (gf 0 5 0 0 (.imm 100#20))) full (fun t => team t fun m => m.gen.run == .waitOpen 0 100 5#6 && m.gen.pc == 3)
      && goes (.gblkopen (gf 0 5 0 0 (.imm 100#20))) open_ (fun t => genFault t [5#8] && (t.slice 0).fault.live.map (fun r => r.full.address) == [3#64])
      && goes (.gblkseal (gf 0 5 2 0)) open_ (fun t => team t fun m => m.gen.run == .sealing 2 5#6 0x77#64) && goes (.gblkseal (gf 0 5 2 0)) (queued 1 open_) (fun t => team t fun m => m.gen.run == .waitSeal 5#6 0x77#64)
      && goes (.gblkfind (gf 0 5 2 0)) (found 9) (moved · 4 13 5 3#64) && goes (.gblkfind (gf 0 5 2 0)) (found 10) (moved · 4 13 5 0xFFFF_FFFF_FFFF_FFFF#64)
      && goes (.gblkfree (gf 0 0 1 0)) (found 9) (fun t => moved t 4 12 0 0#64 && ((t.core 0).blocks.find 3).map (fun b => (b.st, b.key)) == some (.released, 0#64))
      && goes (.gblkfree (gf 0 0 4 0)) (found 9) (genFault · [5#8])) = true := by decide +kernel

/-- Emission: the queue, its limit, a word that no block takes, a full block, templates and runs of words. -/
theorem met_generatorEmission :
    (let s (len : Nat) := code (some 3) (some (blk .opened len 64)) [(1, 0#64), (2, 12#64), (3, 2#64), (4, 1#64), (10, 24#64), (11, 0x10200#64)]
     let b := blk .opened 5 64
     let nop : IWord := 0x2000_0000_0000_0000_01F0_000F#96
     let took (t : State) (n : Nat) (q : Nat) : Bool := moved t 4 n 0 0#64 && team t (fun m => m.gen.queue.getLast? == some ⟨nop, 3#32⟩ && m.gen.queue.length == q) && ((t.core 0).blocks.find 3).map (·.len) == some 6
     let wrote (t : State) (at_ n : Nat) : Bool := moved t 4 at_ 0 0#64 && ((t.core 0).blocks.find 3).map (·.len) == some (5 + n) && (List.range n).all fun j => (t.core 0).store.find (5 + j) == some ⟨nop, 3#32⟩
     emitValid b nop && !emitValid b (BitVec.allOnes 96) && ((s 5).team? 0 0).any (fun t => let w (n : DWord) := ((s 5).template ⟨0, 0⟩ t n).1
        w 0#64 == .word nop && w 12#64 == .word (BitVec.allOnes 96) && (match w 48#64 with
          | .bad _ => true
          | _ => false))
      && goes (.gemit (gf 0 0 0 6)) (s 5) (fun t => took t 1 1) && goes (.gemit (gf 0 0 0 6)) (queued 31 (s 5)) (fun t => took t 1 32)
      && goes (.gemit (gf 0 0 0 6)) (queued 32 (s 5)) (fun t => moved t 3 1 0 0#64) && goes (.gemit (gf 0 0 0 8)) (s 5) (genFault · [3#8]) && goes (.gemit (gf 0 0 0 6)) (s 64) (genFault · [4#8])
      && goes (.gemitt (gf 0x01 0 1 6)) (s 5) (fun t => took t 3 1) && goes (.gemitt (gf 0x01 0 2 6)) (s 5) (genFault · [3#8]) && goes (.gemitt (gf 0x01 0 1 6 (.imm 48#20))) (s 5) (genFault · [1#8])
      && goes (.gemitb (gf 0 0 10 3)) (s 5) (fun t => wrote t 2 2) && goes (.gemitb (gf 0 0 1 0)) (s 5) (fun t => wrote t 1 0)
      && goes (.gblkload (gf 0 0 11 4)) (s 5) (fun t => wrote t 2 1) && goes (.gblkload (gf 0 0 11 0)) (s 5) (fun t => wrote t 1 0)
      && ((s 5).team? 0 0).any (fun t => ((s 5).genWords ⟨0, 0⟩ t 0x10200#64 3).1 == .word nop)) = true := by decide +kernel

/-- Starts, entries, waits and the end of a context. -/
theorem met_generatorStarts :
    (let s := code none (some (blk .sealed 5 64)) [(1, 3#64), (2, 0x5_0000_0009#64), (3, 2#64), (4, 0xFFFF_FFFF_FFFF_FFFF#64), (5, 0x103#64)]
     let e : EntryDesc := ⟨3#12, 1, 1, 1, [0], [[⟨false, 1, 0, 0⟩, ⟨false, 0, 0, 0⟩, ⟨false, 0, 0, 0⟩, ⟨false, 0, 0, 0⟩]]⟩
     let x (n : Nat) : Ext := .imm (BitVec.ofNat 20 n)
     (s.team? 0 0).any (fun t => let d (n : Nat) (b : Bool) := (s.descriptor ⟨0, 0⟩ t n b 3#12 (blk .sealed 5 64)).1
        d 16 true == .ok e && d 8 true == .bad && d 16 false == .ok e)
      && goes (.gstart (gf 0 5 1 2 (x 16))) s (fun t => team t fun m => m.gen.run == .starting 4 5#6 e 0x5_0000_0009#64) && goes (.gstart (gf 0 5 1 2 (x 8))) s (genFault · [5#8])
      && goes (.gentry (gf 0 0 1 3 (x 16))) s (fun t => moved t 4 4 0 0#64 && team t fun m => m.entryNext == [(4, 2, some e)])
      && goes (.gentry (gf 0 0 4 3 (x 16))) s (fun t => moved t 4 4 0 0#64 && team t fun m => m.entryNext == [(4, 2, none)])
      && (s.core 0).blockQuiet 0 3#64 && goes (.gwaitb (gf 0 5 1 0 (x 2))) s (moved · 4 1 5 0#64)
      && goes (.gyield (gf 0 0 0 0 (x 0))) s (fun t => team t fun m => m.gen.run == .skipTurn && m.gen.pc == 4) && goes (.gyield (gf 0 0 0 0 (x 9))) s (fun t => team t fun m => m.gen.run == .yielding 9)
      && goes (.gexit (gf 0 0 0 0)) s (fun t => !team t fun m => m.gen.run != .exited || m.gen.opened.isSome)
      && goes (.gexit (gf 0 0 0 0)) (code (some 3) (some (blk .opened 5 64)) []) (fun t => !team t fun m => m.gen.run != .exited || m.gen.opened.isSome)) = true := by decide +kernel

/-- The events of the generator: grants and bounds of its waits, the drain, the ends of a seal and of a start, and a block that is reclaimed or is not idle. -/
theorem met_generatorEvents :
    (let s := code none (some (blk .sealed 5 64)) [(5, 0#64)]
     let full := code none (some (blk .opened 0 (64 * Config.storeGranules))) []
     let late (n : Nat) (s : State) : State := s.modCore 0 fun k => { k with clock := n }
     let busy (st : BlockState) : State := at10 ((State.reset.withFetchWord 96 0x2000_0000_0000_0000_01F0_000F).modCore 0 fun k => { k with blocks := ⟨k.blocks.cells.map fun p => (p.1, { p.2 with st := st })⟩ })
     let r := gen [] (fun t => t)
     let wait := running (.waitOpen 4 100 5#6)
     let idle (h : DWord) := running (.waitIdle 4 16 5#6 h)
     let ending := at10 (running (.sealing 10 5#6 0x77#64) (code (some 3) (some (blk .opened 5 64)) []))
     let other (s : State) : State := s.modCore 0 fun k => { k with blocks := k.blocks.set 7 (blk .sealed 9 64 0x77#64) }
     let opened := code (some 3) (some (blk .opened 6 64)) []
     let e : EntryDesc := ⟨3#12, 1, 1, 1, [0], [[⟨false, 1, 0, 0⟩, ⟨false, 0, 0, 0⟩, ⟨false, 0, 0, 0⟩, ⟨false, 0, 0, 0⟩]]⟩
     let start := at10 (running (.starting 10 5#6 e 0x5_0000_0009#64) s)
     let held (t : State) (n : Nat) : Bool := team t fun m => m.gen.pc == 3 && m.gen.run == .ready n
     goes (.blockOpenGrant ⟨0, 0⟩) (wait r) (fun t => moved t 4 1 5 0#64 && team t fun m => m.gen.opened == some 0)
      && goes (.blockOpenGrant ⟨0, 0⟩) (wait full) (fun t => team t fun m => m.gen.run == .waitOpen 4 100 5#6)
      && goes (.blockOpenTimeout ⟨0, 0⟩) (late 4100 (wait full)) (moved · 4 4101 5 0xFFFF_FFFF_FFFF_FFFF#64) && goes (.blockOpenTimeout ⟨0, 0⟩) (late 4099 (wait full)) (fun t => team t fun m => m.gen.run == .waitOpen 4 100 5#6)
      && ((busy .sealed).core 0).blockQuiet 0 0#64 == false && goes (.gwaitbWake ⟨0, 0⟩) (idle 3#64 r) (moved · 4 1 5 0#64)
      && goes (.gwaitbWake ⟨0, 0⟩) (idle 0#64 (busy .sealed)) (fun t => team t fun m => m.gen.run == .waitIdle 4 16 5#6 0#64)
      && goes (.gwaitbTimeout ⟨0, 0⟩) (late 20 (idle 0#64 (busy .sealed))) (fun t => team t fun m => m.gen.run == .ready 21 && m.gen.reg 5#6 == 1#64)
      && goes (.gwaitbTimeout ⟨0, 0⟩) (late 19 (idle 0#64 (busy .sealed))) (fun t => team t fun m => m.gen.run == .waitIdle 4 16 5#6 0#64)
      && goes (.gyieldEnd ⟨0, 0⟩) (at10 (running (.yielding 10) r)) (held · 10) && goes (.gyieldEnd ⟨0, 0⟩) (at10 (running (.yielding 11) r)) (fun t => team t fun m => m.gen.run == .yielding 11)
      && ((queued 1 opened).core 0).drainCtx == some 0 && goes (.emitDrain 0) (queued 1 opened) (fun t => (t.core 0).store.find 5 == some ⟨5#96, 6#32⟩ && team t fun m => m.gen.queue.isEmpty)
      && goes (.emitDrain 0) (running (.waitSeal 5#6 8#64) (queued 1 opened)) (fun t => team t fun m => m.gen.run == .sealing 2 5#6 8#64)
      && moved (ending.completeGen ⟨0, 0⟩) 4 10 5 3#64 && (((ending.completeGen ⟨0, 0⟩).core 0).blocks.find 3).map (fun b => (b.st, b.key, b.regAt)) == some (.sealed, 0x77#64, 10)
      && moved ((other ending).completeGen ⟨0, 0⟩) 4 10 5 7#64 && ((((other ending).completeGen ⟨0, 0⟩).core 0).blocks.find 3).map (fun b => (b.st, b.key)) == some (.released, 0#64)
      && moved (start.completeGen ⟨0, 0⟩) 4 10 5 1#64 && ((start.completeGen ⟨0, 0⟩).fibre? g0).map (fun f => (f.handle, f.off)) == some (3#12, 0)
      && goes (.blockReclaim 0 3) (code none (some (blk .released 5 64)) []) (fun t => ((t.core 0).blocks.find 3).isNone && (t.core 0).gen 3 == 1#4)
      && !((busy .released).core 0).blockIdle 0 0 && goes (.blockReclaim 0 0) (busy .released) (fun t => ((t.core 0).blocks.find 0).isSome)) = true := by decide +kernel

end Sys2Proof.Tests
end

