-- ==== Sys2Proof/Tests/GroupWords.lean ====
section
/-!
SUPPORT. Tests: for every statement about the words of a group, states and operands that meet its hypotheses, clause by clause, at the values where
clauses meet, with one-step tests of what the words then do (expected results from the specification's rules and examples).
-/

-- The witnesses are long kernel evaluations: one after another they need one thread.
set_option Elab.async false

namespace Sys2Proof.Tests

open Sys2Proof Sys2Proof.Machine
open Host (Outcome)

/-! ### The step and the words of a group -/

/-- A fault taken, a fixed-latency word issued, and a step, from a state whose memory is in canonical form. -/
theorem met_faultAndIssue :
    (Memory.wf base.mem && viewOr gs fun v => v.g == g0
      && viewOr (gs.takeFaultS v ⟨0x10#8, 0#8, 0#8, 0#32, 0#32, 1#32, 0#8, 0xFF#8, 0#64, 0#32, 0#64, 1⟩) (fun w => w.fib.frozen)
      && viewOr (gs.commitFixed v (.nop (fldS 0#8 (.v 0) (.v 0) (.v 0))) (some 3) 4 ⟨[], 0#32⟩) fun w =>
          w.fib.off == 1 && w.fib.results.length == 1 && w.fib.counter 3 == 1) = true := by decide +kernel

/-- Steps of each kind of agent answer: a group's word, a generator's, a hart's, an event and a tick; and the words of the group, the generator and the
hart are picked and decoded as the statements about a step suppose. -/
theorem met_steps :
    (match step base, step (State.reset.withFetchWord 96 0x0100_0000_0000_0000_0000_0000), step (State.reset.withFetchWord 32 0x00C5_850B),
        step { State.reset with agenda := [.event .grantIntervalEnd] }, step { State.reset with agenda := [.tick 3] } with
      | .next _, .next _, .next _, .next _, .next _ => true
      | _, _, _, _, _ => false) = true
    ∧ (match base.agenda with
      | .issue c b :: rest => (match ({ base with agenda := rest }).issueClock c b with
        | (s1, .issue g) => (match s1.view g with
          | some v => (match v.core.blocks.find (handleBlock v.fib.handle) with
            | some k => decide (v.fib.off < k.len) && (match decodeGroupWord (v.core.blockWord k v.fib.off).word with
              | .ok i => i.wellFormed
              | .error _ => false)
            | none => false)
          | none => false)
        | _ => false)
      | _ => false) = true
    ∧ (let s := State.reset.withFetchWord 96 0x0100_0000_0000_0000_0000_0000
       match s.agenda with
        | .gen core :: rest => let r := { s with agenda := rest }
          let s1 (c : Nat) := r.modCore core fun k => { k.passTurns (some c) with genAt := some k.clock }
          !(s.core core).genDone && (match r.pickCtx core with
          | some c => (match (s1 c).team? core c with
            | some t => decide (t.gen.pc < t.hdr.genWords)
              && (match (((s1 c).modCore core fun k => { k with genNext := (c + 1) % Config.contexts }).genBytes ⟨core, c⟩ t (t.genAddress t.gen.pc) 12).1 with
                | .ok bs => bs == List.replicate 11 0#8 ++ [1#8]
                | _ => false)
            | none => false)
          | none => false)
        | _ => false) = true
    ∧ (let s := State.reset.withFetchWord 32 0x00C5_850B
       decide ((s.hartOf ⟨0, 0⟩).run = .running ∧ (s.hartOf ⟨0, 0⟩).interrupt = none)
        && (match s.fetchHart ⟨0, 0⟩ with
          | .ok w => w == 0x00C5_850B#32
          | .error _ => false)) = true := by decide +kernel

/-- Tags that are read with a change, without one, and not at all under TCONV = 1: the examples after R46 (−3 as S32 gives −2.0 and 0x3F80_4040 as
BF16X2 gives 4.0 when 1.0 is added). -/
theorem met_tagsRead :
    (match readTyped false false (.tag tagF32) ⟨tagS32, lanesAll 0xFFFF_FFFD#32⟩ 1#32, readTyped false false (.tag tagF32) ⟨tagBf16, lanesAll 0x3F80_4040#32⟩ 1#32 with
      | some a, some b => (faddLane false .rne (lane a.1 0) 0x3F80_0000#32).1 == 0xC000_0000#32 && (faddLane false .rne (lane b.1 0) 0x3F80_0000#32).1 == 0x4080_0000#32
          && a.2 == 0#32 && b.2 == 0#32
      | _, _ => false) = true
    ∧ readTyped true false (.tag tagN32) ⟨tagF32, lanesAll 0#32⟩ 1#32 = none
    ∧ readTyped true false (.tag tagN32) ⟨tagS32, lanesAll 7#32⟩ 1#32 = some (lanesAll 7#32, 0#32)
    ∧ readTyped false false (.tag tagF32) ⟨9#6, lanesAll 7#32⟩ 0#32 = some (lanesAll 7#32, flagTAGX)
    ∧ readTyped false false (.tag tagN32) ⟨tagF32, lanesAll 0xC000_0000#32⟩ 1#32 = some (lanesAll 0#32, flagNV)
    ∧ readTyped false false (.tag tagS32) ⟨tagF32, lanesAll 0x4020_0000#32⟩ 1#32 = some (lanesAll 2#32, flagNX)
    ∧ readTyped false false (.tag tagF32) ⟨tagF16, lanesAll 0xFFFF_3C00#32⟩ 1#32 = some (lanesAll 0x3F80_0000#32, 0#32)
    ∧ readTyped false false (.tag tagS32) ⟨tagPred, lanesAll 1#32⟩ 1#32 = some (lanesAll 1#32, 0#32) := by decide +kernel

/-- The eight words of WindowAndTagFaults on a destination or source outside the window, and on a source whose tag is a mismatch under TCONV = 1. -/
theorem met_windowAndTagFaults :
    (let s := regs (gsF fun f => { f with gst := f.gst ||| 0x200#32 }) [(1, 15#6, 0#32)]
     let at_ (d : Operand) : List (Instr × List Src) :=
      let f := fld 0x10 d (.v 1) (.v 2)
      let x := fld 0x10 d (.v 1) (.v 2) (.reg (.v 3))
      let p := fld 0x40 d (.v 1) (.v 2)
      let u := fld 0x40 d (.v 1) (.v 0)
      [(.iadd f, binSrcs f), (.icmp f, binSrcs f),
       (.imad x, regSrcs x.a [.tag (tyTag x.ty)] ++ regSrcs x.b [.tag (tyTag x.ty)] ++ src3 x (srcTyOf x.ty) [.tag (tyTag x.ty)]),
       (.fadd p, fbinSrcs p .f32 tagF32), (.frnd u, regSrcs u.a [.tag tagF32]), (.rcp u, regSrcs u.a [.tag tagF32]),
       (.popc f, unarySrcs f), (.vote f, regSrcs f.a [.tag tagPred])]
     viewOr s fun v =>
      (at_ (.v 32)).all (fun c => !v.fib.windowsOk (instrNamed c.1) && goes c.1 s fun t => faults t [0x02#8])
        && (at_ (.v 31)).all (fun c => v.fib.windowsOk (instrNamed c.1) && (s.readSrcs v 0xFFFF_FFFF#32 c.2).isNone
            && goes c.1 s fun t => faults t [0x03#8])) = true := by decide +kernel

/-- The probe's group has a view (FaultTaken, FixedLatencyIssue), and results that ResultLands speaks of: one due now for the bank, one for the operand file, the last of a
group that is to exit, one of a group that has exited, and one that is not due. -/
theorem met_resultLands :
    (let r (p : Place) : Pending := ⟨0, 0, [⟨p, 0x0000_FFFF#32, ⟨tagS32, lanesAll 5#32⟩⟩], [(0x0000_FFFF#32, ⟨tagS32, lanesAll 5#32⟩)], 0#32, some 3⟩
     let ends (s : State) := s.modCore 0 fun k => { k with closing := true }
     let at_ (p : Place) := ends (gsF fun f => { f with results := [r p], outstanding := [⟨2, 1, false, 0#32⟩, ⟨3, 1, false, 0#32⟩] })
     let left := (ends (gsF fun f => { f with results := [{ r (.bank 7) with signal := none }], outstanding := [], aborting := true }))
     let late := (ends base).modSub 0 0 fun x => { x with slots := .empty, late := [⟨0, 0, 0, 0, 0, [⟨.bank 7, 0x0000_FFFF#32, ⟨tagS32, lanesAll 5#32⟩⟩]⟩] }
     goes (.resultLand g0) (at_ (.bank 7)) (fun t => viewOr t fun v => v.sub.bank.get 7 Reg.zero == ⟨tagS32, lanesOf fun l => if l.val < 16 then 5#32 else 0#32⟩
        && v.fib.y0.tag == tagS32 && v.fib.results.isEmpty && v.fib.counter 1 == 2)
      && goes (.resultLand g0) (at_ (.ofile 4)) (fun t => viewOr t fun v => (v.fib.ofile.get 4 Reg.zero).tag == tagS32)
      && goes (.resultLand g0) left (fun t => (t.fibre? g0).isNone)
      && goes (.resultLand g0) late (fun t => ((t.core 0).sub 0).late == [] && (((t.core 0).sub 0).bank.get 7 Reg.zero).tag == tagS32)
      && stays (.resultLand g0) (gsF fun f => { f with results := [r (.bank 7)], outstanding := [⟨2, 1, false, 0#32⟩, ⟨3, 1, false, 0#32⟩] })) = true := by decide +kernel

/-! ### Group control -/

/-- Transfers inside and outside the block, taken and not, and LOOP at its last turn; a taken one goes to its target two clocks later. -/
theorem met_relativeTransfers :
    met [(gs, .bra (fld 0 (.v 0) (.v 0) (.v 0) (.rel 0#20)), fld 0 (.v 0) (.v 0) (.v 0) (.rel 0#20), [], fun v _ _ => (v.core.blocks.find (handleBlock v.fib.handle)).isSome),
         (gs, .brc (fld 2 (.v 0) (.v 0) (.v 0) (.rel 1#20)), fld 2 (.v 0) (.v 0) (.v 0) (.rel 1#20), [], fun v _ _ => v.active ⟨false, 31#5⟩ == v.fib.exm),
         (gs, .call (fld 0 (.v 3) (.v 0) (.v 0) (.rel 0xFFFFF#20)), fld 0 (.v 3) (.v 0) (.v 0) (.rel 0xFFFFF#20), [], free),
         (regs gs [(3, tagN32, 1#32)], .loop (fld 0 (.v 3) (.v 0) (.v 0) (.rel 0#20)), fld 0 (.v 3) (.v 0) (.v 0) (.rel 0#20), [.reg (.v 3) (.tag tagN32)],
          fun v ls _ => src ls 0 v.leader == 1#32)] = true
    ∧ ([Instr.bra (fld 0 (.v 0) (.v 0) (.v 0) (.rel 0#20)), .brc (fld 0 (.v 0) (.v 0) (.v 0) (.rel 0#20)), .brc (fld 1 (.v 0) (.v 0) (.v 0) (.rel 0#20)),
        .call (fld 0 (.v 3) (.v 0) (.v 0) (.rel 0#20)), .loop (fld 0 (.v 3) (.v 0) (.v 0) (.rel 0#20))].all fun i =>
        goes i (regs gs [(3, tagN32, 2#32)]) fun t => viewOr t fun v => v.fib.off == 0 && v.fib.earliest == 2 && !v.fib.frozen) = true
    ∧ ([Instr.brc (fld 2 (.v 0) (.v 0) (.v 0) (.rel 0#20)), .loop (fld 0 (.v 3) (.v 0) (.v 0) (.rel 0#20))].all fun i =>
        goes i (regs gs [(3, tagN32, 1#32)]) fun t => viewOr t fun v => v.fib.off == 1 && !v.fib.frozen) = true
    ∧ ([Instr.bra (fld 0 (.v 0) (.v 0) (.v 0) (.rel 1#20)), .brc (fld 1 (.v 0) (.v 0) (.v 0) (.rel 1#20)), .call (fld 0 (.v 3) (.v 0) (.v 0) (.rel 0xFFFFF#20)),
        .loop (fld 0 (.v 3) (.v 0) (.v 0) (.rel 1#20))].all fun i =>
        goes i (regs gs [(3, tagN32, 2#32)]) fun t => viewOr t fun v => v.fib.frozen && (t.slice 0).fault.live.map (·.cause) == [0x04#8]) = true := by decide +kernel

/-- The code addresses of R112's table, row by row: bits [31:24] set, a handle that is not current, an open block, another owner's block, a supervisor block
from user mode, an offset at the length, and a transfer that passes. -/
theorem met_codeAddressTransfers :
    (let at_ (a : Word) (u : Block → Block) (sup : Bool) : State :=
       (regs (gsF fun f => { f with gst := withMode f.gst sup }) [(2, tagN32, a)]).modCore 0 fun k =>
        { k with blocks := match k.blocks.find 0 with
          | some b => k.blocks.set 1 (u b)
          | none => k.blocks }
     let cases : List (State × Option Byte) :=
      [(at_ 0x0100_0001#32 id true, some 0x04#8), (at_ 0x0000_0101#32 id true, some 0x04#8),
       (at_ 0x0000_0001#32 (fun b => { b with st := .opened }) true, some 0x04#8),
       (at_ 0x0000_0001#32 (fun b => { b with owner := ⟨9#64, 9#12, 3⟩, sup := false }) true, some 0x04#8),
       (at_ 0x0000_0001#32 id false, some 0x05#8), (at_ 0x0000_1001#32 id true, some 0x04#8), (at_ 0x0000_0001#32 id true, none)]
     [Instr.brx (fld 0 (.v 0) (.v 2) (.v 0)), .ret (fld 0 (.v 0) (.v 2) (.v 0)), .callReg (fld 0 (.v 5) (.v 2) (.v 0))].all fun i =>
      cases.all fun c => goes i c.1 fun t => viewOr t fun v => match c.2 with
        | some w => v.fib.frozen && (t.slice 0).fault.live.map (·.cause) == [w] && v.fib.off == 0
        | none => !v.fib.frozen && v.fib.handle == 1#12 && v.fib.off == 0 && v.fib.earliest == 3) = true
    ∧ met ([Instr.brx (fld 0 (.v 0) (.v 2) (.v 0)), .ret (fld 0 (.v 0) (.v 2) (.v 0))].map fun i =>
        (regs gs [(2, tagN32, 0#32)], i, fld 0 (.v 0) (.v 2) (.v 0), [.reg (.v 2) (.tag tagN32)], fun v ls _ => src ls 0 v.leader == 0#32)) = true
    ∧ met [(regs gs [(2, tagN32, 0#32)], .callReg (fld 0 (.v 5) (.v 2) (.v 0)), fld 0 (.v 5) (.v 2) (.v 0), [.reg (.v 2) (.tag tagN32)], free)] = true := by decide +kernel

/-- Waits met and not met, at the threshold, YIELD, and EXIT with every counter zero. -/
theorem met_waitsAndLeaving :
    (let s := regs (gsF fun f => { f with outstanding := [⟨0, 4, false, 0#32⟩, ⟨1, 4, false, 0#32⟩] }) [(2, tagN32, 2#32), (3, tagN32, 1#32)]
     let w (n : Nat) := fld 4 (.v 0) (.v 0) (.v 0) (.imm (BitVec.ofNat 20 n))
     let r (n : Fin 768) := fld 4 (.v 0) (.v n) (.v 0)
     met [(s, .nop (fld 0 (.v 0) (.v 0) (.v 0)), fld 0 (.v 0) (.v 0) (.v 0), [], free),
          (s, .waitc (w 2), w 2, [], fun v _ _ => decide (v.fib.counter 4 ≤ 2)), (s, .waitc (w 1), w 1, [], fun v _ _ => decide (1 < v.fib.counter 4)),
          (s, .waitcReg (r 2), r 2, [.reg (.v 2) (.tag tagN32)], fun v ls _ => decide (v.fib.counter 4 ≤ (src ls 0 v.leader).toNat)),
          (s, .waitcReg (r 3), r 3, [.reg (.v 3) (.tag tagN32)], fun v ls _ => decide ((src ls 0 v.leader).toNat < v.fib.counter 4)),
          (s, .yield (fld 0 (.v 0) (.v 0) (.v 0)), fld 0 (.v 0) (.v 0) (.v 0), [], free),
          (gs, .exit (fld 0 (.v 0) (.v 0) (.v 0)), fld 0 (.v 0) (.v 0) (.v 0), [], fun v _ _ => v.fib.outstanding.isEmpty)]
      && stays (.waitc (w 1)) s && stays (.waitcReg (r 3)) s
      && ([Instr.nop (fld 0 (.v 0) (.v 0) (.v 0)), .waitc (w 2), .waitcReg (r 2), .yield (fld 0 (.v 0) (.v 0) (.v 0))].all fun i =>
        goes i s fun t => viewOr t fun v => v.fib.off == 1)
      && goes (.exit (fld 0 (.v 0) (.v 0) (.v 0))) gs fun t => (t.fibre? g0).isNone) = true := by decide +kernel

/-- A fibre alone at a barrier of its own passes; one whose mask names a fibre that has not arrived waits. -/
theorem met_fibreBarrier :
    (let two := gs.modSlot g0 fun t => { t with fibres := match t.fibres.find 0 with
       | some f => t.fibres.set 2 f
       | none => t.fibres }
     let f (m : Nat) := fld 3 (.v 0) (.v 0) (.v 0) (.imm (BitVec.ofNat 20 m))
     met [(gs, .fbar (f 0), f 0, [], fun v _ _ => v.fib.results.isEmpty && !v.fib.aborting), (two, .fbar (f 4), f 4, [], fun v _ _ => v.fib.results.isEmpty)]
      && decide ((match two.slot? g0 with
        | some t => t.fibres.keys
        | none => []).Pairwise (· < ·))
      && goes (.fbar (f 0)) gs (fun t => viewOr t fun v => v.fib.fbar.isNone && v.fib.off == 1 && v.slot.arrived.get 3 0#4 == 0#4)
      && goes (.fbar (f 4)) two fun t => viewOr t fun v => v.fib.fbar == some (3, 5#4) && v.slot.arrived.get 3 0#4 == 1#4) = true := by decide +kernel

/-- The six forms of MASK, on predicates that differ by lane. -/
theorem met_maskWord :
    (let s := lanesAt (gsF fun f => { f with exm := 0x00FF#32 }) 4 tagPred fun l => if l.val % 2 = 0 then 1#32 else 0#32
     let f (n : Nat) := fld (BitVec.ofNat 8 n) (.v 9) (if n = 0 then .v 0 else .v 4) (.v 0)
     met ((List.range 5).map fun n => (s, .mask (f n), f n, if n = 0 then [] else [.reg (.v 4) (.tag tagPred)], free))
      && met [(s, .mask (f 5), f 5, [.reg (.v 4) (.tag tagN32)], free)]
      && [(0, 0x00FF#32), (1, 0x5555_5555#32), (2, 0x0055#32), (3, 0x00AA#32), (4, 0x5555_55FF#32), (5, 1#32)].all fun c =>
        goes (.mask (f c.1)) s fun t => viewOr t fun v => v.fib.exm == c.2 && v.fib.results.map (·.due) == [3]) = true := by decide +kernel

/-- SPAWN at issue, its completion with nothing to start (an entry that is clear, a count of 0 and of 33), and one that starts two groups. -/
theorem met_spawnAndCompletion :
    (let f := fldS 0 (.v 20) (.v 4) (.v 5) (.imm 3#20)
     let at_ (e : Option EntryDesc) (n : Word) := (gsF fun b => { b with
        outstanding := [⟨0, 3, false, 0#32⟩], nextId := 1,
        ops := [⟨0, .spawn f, none, 0#12, 0, 0#32, 0, true, 0xFFFF_FFFF#32, 0#32, 0#32, 0#32, [], [lanesAll n, lanesAll 9#32], [.bank 20], 0, [], 0, 0, [], 0#32, e⟩] }).modCore
        0 fun k => { k with clock := 4, closing := true }
     let e : EntryDesc := ⟨0#12, 1, 1, 1, [0], [[⟨false, 1, 0, 0⟩]]⟩
     let room := (at_ (some e) 2#32).modSub 0 0 fun x => { x with
        slots := (x.slots.set 1 (.fresh 0 [1])).set 2 (.fresh 0 [2]) }
     met [(regs gs [(4, tagN32, 2#32), (5, tagN32, 9#32)], .spawn f, f, [.reg (.v 4) (.tag tagN32), .reg (.v 5) (.tag tagN32)], fun _ _ _ => f.signal == some 3)]
      && goes (.spawn f) (regs gs [(4, tagN32, 2#32), (5, tagN32, 9#32)]) (fun t => viewOr t fun v => v.fib.ops.length == 1 && v.fib.counter 3 == 1 && v.fib.off == 1)
      && [(none, 1#32), (some e, 0#32), (some e, 33#32)].all (fun c => goes (.spawnComplete g0 0) (at_ c.1 c.2) fun t => viewOr t fun v =>
        v.sub.bank.get 20 Reg.zero == ⟨tagN32, lanesAll 0#32⟩ && v.fib.outstanding.isEmpty && v.fib.ops.isEmpty)
      && goes (.spawnComplete g0 0) room (fun t => viewOr t fun v => v.sub.bank.get 20 Reg.zero == ⟨tagN32, lanesAll 2#32⟩
        && (t.fibre? ⟨0, 0, 1, 0⟩).isSome && (t.fibre? ⟨0, 0, 2, 0⟩).isSome)
      && stays (.spawnComplete g0 0) (room.modCore 0 fun k => { k with clock := 3 })
      && stays (.spawnComplete g0 0) (room.modCore 0 fun k => { k with spawnAt := some (4, 1) })
      && goes (.spawnComplete g0 0) (room.modCore 0 fun k => { k with closing := false }) (fun t => viewOr t fun v => v.fib.ops.map (·.stage) == [1])
      && ((room.modCore 0 fun k => { k with clock := 8 }).closeTurns 0).contains (.event (.spawnComplete g0 0))) = true := by decide +kernel

/-- A state that meets the clauses on starting groups: the team's numbers run to at most 256, the sub-partitions and slots are listed in order, and of three groups asked for
the shape and the slots admit two; each starts at its fibre's offset with its windows, and the operand file gives o0 and o1. -/
theorem met_groupsStart :
    (let s := (gs.modSub 0 0 fun x => { x with slots := (x.slots.set 1 (.fresh 0 [1])).set 2 (.fresh 0 [2]) })
     let e : EntryDesc := ⟨0#12, 1, 1, 1, [0], [[⟨false, 1, 0, 0⟩]]⟩
     let r := s.startGroups 0 0 e 3 (fun j => startFile (BitVec.ofNat 32 j) 9#32) 5
     (s.team? 0 0).any (fun t => decide (t.desc.maxgrp ≤ 256 ∧ 3 ≤ t.desc.maxgrp)) && decide ((s.core 0).subs.keys.Pairwise (· < ·))
      && decide (((s.core 0).sub 0).slots.keys.Pairwise (· < ·)) && (s.core 0).freeSlots 0 == [(0, 1), (0, 2)] && r.2 == 2
      && [1, 2].all fun n => (r.1.fibre? ⟨0, 0, n, 0⟩).any fun f =>
        f.exm == 0xFFFF_FFFF#32 && f.off == 0 && f.windows == [⟨false, 1, 0, 0⟩] && f.earliest == 5 && f.grp == n
          && f.ofile.get 0 Reg.zero == ⟨tagRaw, lanesAll (BitVec.ofNat 32 (n - 1))⟩ && f.ofile.get 1 Reg.zero == ⟨tagRaw, lanesAll 9#32⟩) = true := by
  decide +kernel

end Sys2Proof.Tests
end

