-- ==== Sys2Proof/Tests/HartWords.lean ====
section
/-!
SUPPORT. Tests: harts: states that meet the hypotheses of their statements, and what one step then does.
-/

-- The witnesses are long kernel evaluations: one after another they need one thread.
set_option Elab.async false

namespace Sys2Proof.Tests

open Sys2Proof Sys2Proof.Machine
open Host (Outcome)

/-- The hart that acts: hart 0 of slice 0. -/
def h0 : HartRef := ⟨0, 0⟩

/-- The probe's hart, in M-mode at address 0x100, with x5 an address, x6 a word, and 7 at 0x4000. -/
def hs (a : DWord := 0x4000#64) (u : Hart → Hart := id) : State :=
  let s := ((State.reset.withFetchWord 32 0).writeMem 0 0x4000 (leBytes 8 0x8000_0007)).modHart h0 fun h =>
    u { h with pc := 0x100#64, x := ⟨[(5, a), (6, 0x8000_0007#64)]⟩ }
  { s with cur := .hart h0 }

/-- A hart whose pc has moved on and whose register 9 holds a value. -/
def hartGoes (t : State) (w : DWord) : Bool := (t.hartOf h0).pc == 0x104#64 && (t.hartOf h0).reg 9#5 == w && (t.hartOf h0).run == .running

/-- A hart that has trapped to M-mode with a cause. -/
def trapped (t : State) (cause tval : DWord) : Bool :=
  let h := t.hartOf h0
  h.csrOf 0x342 == cause && h.csrOf 0x343 == tval && h.csrOf 0x341 == 0x100#64 && h.priv == 3 && !h.virt

/-- The hypotheses of a rendezvous instruction whose word is at 0x4000. -/
def awaits (s : State) : Bool :=
  let h := s.hartOf h0
  s.cur == .hart h0 && !h.virt && (h.reg 5#5).toNat % 4 == 0 && (s.slice 0).part == some 0 && s.tableSlice 0 0x4000 == some 0
    && h.stores.isEmpty && match s.hartTranslate 0 h0 .load (h.reg 5#5) with
      | .ok (pa, e) => pa == 0x4000 && s.hartCheck h0 0 .load e pa 4 .fetch == .ok && s.hartCheck h0 0 .load e pa 4 .nothing == .ok
      | .error _ => false

/-- dw.await, dw.awake and dw.awake.all: in VS-mode, at a misaligned address, at one that does not translate, with a differing word, a full table, an equal word,
and with no waiter, one and two. -/
theorem met_hartWords :
    (let aw := Instr.dwAwait 9#5 5#5 6#5
     let wk := Instr.dwAwake 9#5 5#5
     let wa := Instr.dwAwakeAll 9#5 5#5
     let all_ := [aw, wk, wa]
     let table (ws : List Waiter) (s : State) : State := s.modSlice 0 fun x => { x with rendezvous := ws }
     let waiter (n : Nat) : Waiter := ⟨0x4000#64, 0#12, 0x4000, .hart ⟨0, n⟩, 0⟩
     let asleep (s : State) : State := (s.modHart ⟨0, 1⟩ fun h => { h with run := .sleeping 7#5 }).modHart ⟨0, 2⟩ fun h => { h with run := .sleeping 8#5 }
     let sv39 := hs 0x4000#64 fun h => { h with priv := 1, csr := ((h.csr.set 0x180 0x8000_0000_0000_0000#64).set 0x3A0 0x1F#64).set 0x3B0 0x003F_FFFF_FFFF_FFFF#64 }
     let other := (hs).modHart h0 fun h => { h with x := h.x.set 6 6#64 }
     let full := table (List.replicate 1024 ⟨0x9000#64, 0#12, 0x9000, .hart ⟨0, 1⟩, 0⟩) hs
     all_.all (fun i => goes i (hs 0x4000#64 fun h => { h with priv := 1, virt := true }) fun t => trapped t 22#64 (((encodeHartWord i).getD 0#32).setWidth 64))
      && all_.all (fun i => (encodeHartWord i).isSome) && all_.all (fun i => goes i (hs 0x4002#64) (trapped · 4#64 0x4002#64))
      && (match sv39.hartTranslate 0 h0 .load 0x4000#64 with | .error e => e.cause == 13 | .ok _ => false) && all_.all (fun i => goes i sv39 (trapped · 13#64 0x4000#64))
      && awaits hs && awaits other && awaits full && goes aw other (hartGoes · 1#64) && goes aw full (hartGoes · 2#64)
      && goes aw hs (fun t => (t.hartOf h0).run == .sleeping 9#5 && (t.hartOf h0).pc == 0x104#64 && (t.slice 0).rendezvous == [waiter 0])
      && goes wk hs (hartGoes · 0#64) && goes wa hs (hartGoes · 0#64)
      && goes wk (table [waiter 2, waiter 1] (asleep hs)) (fun t => hartGoes t 1#64 && (t.slice 0).rendezvous == [waiter 1] && (t.hartOf ⟨0, 2⟩).run == .running
        && (t.hartOf ⟨0, 1⟩).run == .sleeping 7#5)
      && goes wa (table [waiter 2, waiter 1] (asleep hs)) (fun t => hartGoes t 2#64 && (t.slice 0).rendezvous.isEmpty && (t.hartOf ⟨0, 2⟩).run == .running
        && (t.hartOf ⟨0, 1⟩).run == .running)) = true := by decide +kernel

/-- A trap to M-mode, HSTART of a held hart and of one that runs, the timer at its comparand and before it, and a sleeping hart with an interrupt and without. -/
theorem met_hartEvents :
    (let started (v : DWord) (p : State → Bool) := goes (.hartStart ⟨0, 1⟩ v) hs p
     let timer (cyc : DWord) : State := (hs 0#64 fun h => { h with mtimecmp := 3#64, csr := (h.csr.set 0x30A 0x8000_0000_0000_0000#64).set 0x14D 4#64 }).modSlice 0 fun x => { x with cyc := cyc }
     let ip (t : State) : DWord := (t.hartOf h0).csrOf 0x344
     let sleeps (ie : DWord) := (hs 0#64 fun h => { h with run := .sleeping 9#5, csr := ((h.csr.set 0x344 0x80#64).set 0x304 ie).set 0x300 8#64 }).modSlice 0 fun x => { x with rendezvous := [⟨0x4000#64, 0#12, 0x4000, .hart h0, 0⟩] }
     let user := hs 0#64 fun h => { h with priv := 0, csr := (h.csr.set 0x302 0x100#64).set 0x305 0x8001#64 }
     trapped (user.hartTrap h0 2 5#64) 2#64 5#64 && ((user.hartTrap h0 2 5#64).hartOf h0).pc == 0x8000#64 && ((user.hartOf h0).csrOf 0x302).getLsbD 2 == false && (user.hartOf h0).priv == 0
      && (hs.hartOf ⟨0, 1⟩).run == .held && (hs.hartOf h0).run != .held && (hs.slice 0).part == some 0
      && started 0x8001#64 (fun t => (t.hartOf ⟨0, 1⟩).run == .running && (t.hartOf ⟨0, 1⟩).pc == 0x8000#64 && (t.hartOf ⟨0, 1⟩).reg 10#5 == 1#64 && (t.hartOf ⟨0, 1⟩).csrOf 0xF14 == 1#64)
      && started 0x8002#64 (fun t => (t.hartOf ⟨0, 1⟩).run == .held && (t.hartOf ⟨0, 1⟩).start == 0x8000#64) && goes (.hartStart h0 0x8001#64) hs (fun t => t.hartOf h0 == hs.hartOf h0)
      && goes (.timerCompare h0) (timer 29#64) (fun t => ip t == 0#64) && goes (.timerCompare h0) (timer 30#64) (fun t => ip t == 0x80#64) && goes (.timerCompare h0) (timer 40#64) (fun t => ip t == 0xA0#64)
      && ((sleeps 0x80#64).hartOf h0).interrupt == some (3, 7) && ((sleeps 0#64).hartOf h0).interrupt == none
      && goes (.hartAwaitInterruptWake h0) (sleeps 0x80#64) (fun t => (t.hartOf h0).reg 9#5 == 3#64 && (t.hartOf h0).run == .running && (t.slice 0).rendezvous.isEmpty)
      && goes (.hartAwaitInterruptWake h0) (sleeps 0#64) (fun t => (t.hartOf h0).run == .sleeping 9#5)) = true := by decide +kernel

/-- csrr of time, addi, add, mul, ecall in M-mode and in U-mode, and wfi, by words written from the base's formats. -/
theorem met_hartBase :
    (let s := (hs 0xFFFF_FFFF_FFFF_FFFE#64).modSlice 0 fun x => { x with cyc := 34#64 }
     let to_ (w : Word) (v : DWord) : Bool := hartGoes (s.runBase h0 w) v
     (s.slice 0).part == some 0 && (s.hartOf h0).priv == 3 && !(s.hartOf h0).virt && to_ 0xC01024F3#32 3#64 && to_ 0xFFF28493#32 0xFFFF_FFFF_FFFF_FFFD#64
      && to_ 0x006284B3#32 0x8000_0005#64 && to_ 0x026284B3#32 0xFFFF_FFFE_FFFF_FFF2#64 && trapped (s.runBase h0 0x73#32) 11#64 0#64
      && trapped ((hs 0#64 fun h => { h with priv := 0 }).runBase h0 0x73#32) 8#64 0#64 && ((s.runBase h0 0x10500073#32).hartOf h0).run == .wfi
      && ((s.runBase h0 0x10500073#32).hartOf h0).pc == 0x104#64) = true := by decide +kernel

/-- A hart's accesses at 0x4000: 4 and 8 bytes, sign-extended and not, with a reservation and with none, and a line cleared. -/
theorem met_hartAccesses :
    (let at_ (k : HartKind) (n : Nat) := hs.hartPlaces h0 0 k .fetch none (hartPieces 0x4000#64 n) [] == .memory [(0x4000, n)]
     let acc (a : HartAcc) (s : State) (w : DWord) (p : List Byte → Bool) : Bool := goes (.hartAccess h0 a) s fun t =>
      (t.hartOf h0).pc == 0x100#64 && (t.hartOf h0).reg 9#5 == w && p (t.readMem 0 0x4000 10)
     let m (n x : Nat) (l : List Byte) : Bool := l.take n == leBytes n x && l.drop n == (leBytes 8 0x8000_0007 ++ [0#8, 0#8]).drop n
     let kept (l : List Byte) : Bool := l == leBytes 8 0x8000_0007 ++ [0#8, 0#8]
     let a := 0x4000#64
     let held := hs a fun h => { h with resv := some (lineKey 0 0x4000, 0x4000) }
     at_ .load 4 && at_ .load 8 && at_ .store 4 && at_ .store 8 && (hs.hartLaunches 0 [(0x4000, 8)]).isEmpty && (hs.hartLaunches 0 [(0x4000, 4)]).isEmpty && (hs.cells.get (memKey 0 0x4000) []).isEmpty
      && Memory.wf hs.mem && (hs.hartOf h0).run == .running && (hs.hartOf h0).stores.isEmpty && !(hs.hartOf h0).later && acc (.load 9#5 a 4 true) hs 0xFFFF_FFFF_8000_0007#64 kept && acc (.load 9#5 a 4 false) hs 0x8000_0007#64 kept
      && acc (.load 9#5 a 8 true) hs 0x8000_0007#64 kept && acc (.loadReserved 9#5 a 4) hs 0xFFFF_FFFF_8000_0007#64 kept
      && goes (.hartAccess h0 (.loadReserved 9#5 a 8)) hs (fun t => (t.hartOf h0).resv == some (lineKey 0 0x4000, 0x4000))
      && acc (.store a 4 0x1122_3344_5566_7788#64) hs 0#64 (m 4 0x5566_7788) && acc (.store a 8 0x1122_3344_5566_7788#64) hs 0#64 (m 8 0x1122_3344_5566_7788)
      && goes (.hartAccess h0 (.store a 4 0x55#64)) (hs a fun h => { h with later := true }) (fun t => t.readMem 0 0x4000 4 == leBytes 4 0x8000_0007 && (t.hartOf h0).stores.length == 1
        && (t.hartPerform h0 0).readMem 0 0x4000 4 == leBytes 4 0x55)
      && acc (.amo 9#5 0 a 4 0x8000_0000#64) hs 0xFFFF_FFFF_8000_0007#64 (m 4 7) && acc (.amo 9#5 1 a 8 5#64) hs 0x8000_0007#64 (m 8 5)
      && acc (.amocas 9#5 a 4 0x8000_0007#64 3#64) hs 0xFFFF_FFFF_8000_0007#64 (m 4 3) && acc (.amocas 9#5 a 4 7#64 3#64) hs 0xFFFF_FFFF_8000_0007#64 kept
      && acc (.storeConditional 9#5 a 4 3#64) held 0#64 (m 4 3) && acc (.storeConditional 9#5 a 4 3#64) hs 1#64 kept
      && goes (.hartAccess h0 (.storeConditional 9#5 a 4 3#64)) held (fun t => (t.hartOf h0).resv.isNone)
      && hs.hartPlaces h0 0 .store .line (some 0x4010#64) (hartPieces 0x4000#64 128) [] == .memory [(0x4000, 128)] && (hs.hartLaunches 0 [(0x4000, 128)]).isEmpty
      && goes (.hartAccess h0 (.cboZero 0x4010#64)) hs (fun t => t.readMem 0 0x4000 8 == leBytes 8 0 && !(t.line 0 0x4000).poison)) = true := by decide +kernel

/-- A SYSVEC and a watch of core 18 of the hart's own partition, and a SYSVEC of a slice of another. -/
theorem met_hartRegisterWrites :
    (let own := hs.modSlice 1 fun x => { x with part := some 0 }
     let base := 0x00FF_0000_0000_0000 + 0x0100_0000 * 1 + 0x10_0000 + 0x1_0000 * 2
     (own.slice 1).part == some 0 && (hs.slice 1).part != some 0 && (hs.slice 0).part == some 0
      && goes (.registerWrite h0 (base + 4 * 255) 4 0x8012_3456#64) own (fun t => (t.core 18).sysvec.find 255 == some ⟨true, 0x12_3456#24⟩ && (t.core 18).sysvec.get 254 ⟨false, 0#24⟩ == ⟨false, 0#24⟩)
      && goes (.registerWrite h0 (base + 0x500 + 16 * 3) 8 0x4000#64) own (fun t => ((t.core 18).watches.find 3).map (·.base) == some 0x4000#64)
      && goes (.registerWrite h0 base 4 0x8012_3456#64) hs (fun t => (t.hartOf h0).csrOf 0x342 == 7#64 && (t.slice 0).fwHead == (hs.slice 0).fwHead + 1#32 && ((t.core 18).sysvec.find 0).isNone)) = true := by decide +kernel

end Sys2Proof.Tests
end

