-- ==== Sys2Proof/Tests/Package.lean ====
section
/-!
SUPPORT. Tests: power, launches, Markhor and the mailbox: states that meet the hypotheses of their statements, and what one step then does. Where
a hypothesis rests on a free constant of the configuration (whether images verify), it is the witness's own premise.
-/

-- The witnesses are long kernel evaluations: one after another they need one thread.
set_option Elab.async false

namespace Sys2Proof.Tests

open Sys2Proof Sys2Proof.Machine
open Host (Outcome)

/-! ### Power -/

/-- The probe's machine with a change to the power state of a core. -/
def pw (core : Nat) (u : Power → Power) (s : State := gs) : State := s.modCore core fun k => { k with power := u k.power }

/-- What holds of the power state of a core. -/
def power (t : State) (core : Nat) (p : Power → Bool) : Bool := p (t.core core).power

/-- A debit of 2^31 leaves an allowance of -2^15 units, which is below any threshold. -/
theorem met_allowanceBelow (cap th : Nat) : (max (min ((0 : Int) + 0) cap - (2 ^ 31 : Int) * 2 ^ 16) (-2 ^ 31)) / 2 ^ 16 < (th : Int) := by omega

/-- A clock edge with no rail request, with one, and during a switch, a clock with owed turns, and its end with a result due; the events of a switch; the fail-safe. -/
theorem met_corePower :
    (let at_ (n : Nat) (s : State) : State := s.modCore 0 fun k => { k with clock := n }
     let spent (s : State) : State := (s.modCore 0 fun k => { k with genAt := some k.clock }).modSub 0 0 fun x => { x with turnAt := some 0 }
     let edge (s : State) (p : State → Bool) := goes (.allowanceUpdate 0) (s.modCore 0 fun k => { k with closing := true }) p
     let sw (e : Nat) (rail changed : Bool) : State := at_ 100 (pw 0 fun p => { p with switching := some e, rail := rail, changed := changed })
     let due := gs.modFibre g0 fun f => { f with results := [⟨0, 0, [], [], 0#32, none⟩] }
     let ref (n : Nat) : State := (pw 0 fun p => { p with lastGrant := 5, failsafe := false }).modSlice 0 fun x => { x with cyc := BitVec.ofNat 64 n }
     edge (pw 0 fun p => { p with switching := none, railReq := false, rail := false }) (fun t => power t 0 (fun p => p.switching.isNone && p.wphase == 1) && (t.core 0).clock == 1)
      && edge (pw 0 fun p => { p with switching := none, railReq := true, rail := false }) (fun t => power t 0 fun p => p.switching == some 25 && !p.changed)
      && edge (sw 110 false true) (fun t => power t 0 fun p => p.switching == some 110) && goes (.allowanceUpdate 0) gs (fun t => t.agenda == .issue 0 0 :: .gen 0 :: .event (.allowanceUpdate 0) :: gs.agenda && (t.core 0).clock == 0)
      && ((spent due).core 0).owedTurns 0 == [] && goes (.allowanceUpdate 0) (spent due) (fun t => t.agenda == .event (.resultLand g0) :: .event (.allowanceUpdate 0) :: gs.agenda && (t.core 0).closing && (t.core 0).clock == 0)
      && goes (.railSwitchRequest 0 true) gs (fun t => power t 0 fun p => p.railReq)
      && goes (.railChangeover 0) (sw 104 false false) (fun t => power t 0 fun p => p.changed) && goes (.railChangeover 0) (sw 105 false false) (fun t => power t 0 fun p => !p.changed)
      && goes (.railChangeover 0) (sw 112 true false) (fun t => power t 0 fun p => p.changed) && goes (.railChangeover 0) (sw 113 true false) (fun t => power t 0 fun p => !p.changed)
      && goes (.railSwitchEnd 0) (sw 100 false true) (fun t => power t 0 fun p => p.rail && p.switching.isNone) && goes (.railSwitchEnd 0) (sw 101 false true) (fun t => power t 0 fun p => !p.rail)
      && goes (.failsafeTimeout 0) (ref 150005) (fun t => power t 0 fun p => p.failsafe) && goes (.failsafeTimeout 0) (pw 0 (fun p => { p with failsafe := false }) (ref 150004)) (fun t => power t 0 fun p => !p.failsafe)) = true := by decide +kernel

/-- Grants taken by the cores of a slice, and loans made, recalled and given back. -/
theorem met_grantsAndLoans :
    (let granted := pw 20 (fun p => { p with grant := some 700, failsafe := true }) (pw 17 fun p => { p with grant := some 500 })
     let idle := pw 18 (fun p => { p with withheldFor := 1000, rate := 10 }) (pw 17 (fun p => { p with idleFor := 2000, rate := 80 }) (pw 19 fun p => { p with withheldFor := 5000 }))
     let lent (r : Bool) (lender : Nat) : State := (pw (16 * 0 + lender) (fun p => { p with rate := 10 }) (pw 3 fun p => { p with rate := 80 })).modSlice 0 fun x => { x with loans := ⟨[(0, ⟨r, lender, 3, 70⟩)]⟩ }
     let rate (t : State) (c n : Nat) : Bool := power t c fun p => p.rate == n
     goes (.grantTake 1) granted (fun t => rate t 17 500 && rate t 20 700 && power t 20 (fun p => !p.failsafe && p.grant.isNone))
      && goes (.grantTake 0) granted (fun t => power t 17 fun p => p.grant == some 500)
      && goes (.loanMake 1 1) idle (fun t => (t.slice 1).loans.find 0 == some ⟨false, 1, 2, 70⟩ && rate t 17 10 && rate t 18 80)
      && goes (.loanMake 1 1) (idle.modSlice 1 fun x => { x with loans := ⟨[(0, ⟨false, 4, 1, 7⟩)]⟩ }) (fun t => (t.slice 1).loans.cells.length == 1)
      && goes (.loanMake 1 1) (pw 17 (fun p => { p with idleFor := 1999 }) idle) (fun t => (t.slice 1).loans.cells.isEmpty)
      && goes (.loanMake 1 1) (idle.modSlice 1 fun x => { x with loans := ⟨[(4, ⟨false, 1, 9, 7⟩)]⟩ }) (fun t => (t.slice 1).loans.cells.length == 1)
      && (lent false 0).anyReady 0 && goes (.loanRecallStart 0 0) (lent false 0) (fun t => (t.slice 0).loans.find 0 == some ⟨true, 0, 3, 70⟩)
      && !(lent false 2).anyReady 2 && goes (.loanRecallStart 0 0) (lent false 2) (fun t => (t.slice 0).loans.find 0 == some ⟨false, 2, 3, 70⟩)
      && goes (.loanRecallComplete 0 0) (lent true 2) (fun t => (t.slice 0).loans.cells.isEmpty && rate t 2 80 && rate t 3 10)) = true := by decide +kernel

/-! ### Launches -/

/-- The probe's partition with a launch entry of index 5, a page table that maps every address to itself, and a sound descriptor, changed, with its image. -/
def launches (e : LaunchEntry) (bytes : Nat) (d : List (Nat × List Byte)) : State :=
  let s := State.reset.withFetchWord 96 0
  let s := { s with cores := .empty }
  let put (s : State) (a : Nat) (bs : List Byte) : State := s.writeMem 0 a bs
  let desc : List (Nat × List Byte) := [(0, leBytes 8 0x10000), (8, leBytes 8 0xA000_0000_0000_0100), (16, leBytes 8 (1 + 2 ^ 22 + 2 ^ 43)), (24, leBytes 2 1), (26, leBytes 1 1), (27, leBytes 1 1),
    (34, leBytes 1 1), (35, leBytes 1 0x11)] ++ d
  let head : List (Nat × List Byte) := [(0, leBytes 4 0x54485744), (4, leBytes 2 1), (8, leBytes 4 4096), (12, leBytes 4 1), (16, leBytes 4 8192), (24, leBytes 4 8192), (32, leBytes 4 8192)]
  let s := ((desc.map fun (x : Nat × List Byte) => (bytes + x.1, x.2)) ++ head.map fun (x : Nat × List Byte) => (0x10000 + x.1, x.2)).foldl (fun s x => put s x.1 x.2) s
  s.modPart 0 fun p => { p with launches := p.launches.set 5 e }

/-- An entry with an argument in its FIFO. -/
def entry5 (desc : DWord) : LaunchEntry := ⟨0x8000_0000_0000_0000#64, desc, 0x9001#64, 7#32, 0#32, 3#32, 2#32, [0x77#64], []⟩

/-- What holds of the entry, and of what is being placed under its index. -/
def launch5 (t : State) (p : LaunchEntry → List Launching → Bool) : Bool := match t.part? 0 with
  | some q => p (q.launches.get 5 .empty) (q.placing.get 5 [])
  | none => false

/-- Writes of the table, its way to a core, a refill, and the four outcomes of a dequeue. -/
theorem met_launches :
    (let ok := launches (entry5 0x20000#64) 0x20000 []
     let none_ := launches (entry5 0x20000#64) 0x20000 [(24, leBytes 2 0)]
     let skip := launches (entry5 0x20000#64) 0x20000 [(48, leBytes 8 0x30000)]
     let far := launches (entry5 0x0040_0000_0000_0000#64) 0x20000 []
     let poor : State := { ok with lines := ⟨[(lineKey 0 0x20000, ⟨0#2, 0#4, 0#12, true⟩)]⟩ }
     let held := (ok.modPart 0 fun p => { p with slices := [0, 1], regions := ⟨[(0, ⟨1, 0, false, 0, 0, 0⟩)]⟩ }).modSlice 1 fun x => { x with part := some 0, err := { x.err with esum := 0x80#8 } }
     let w (off size : Nat) (v : DWord) (p : LaunchEntry → Bool) := goes (.launchTableWrite 0 5#8 off size v) ok fun t => launch5 t fun e _ => p e
     let deq (s : State) (p : LaunchEntry → List Launching → Bool) := goes (.launchDequeue 0 5#8) s fun t => launch5 t p
     let read (s : State) : Option (Except LaunchStop (Option Launching)) := (s.part? 0).map fun p => s.readLaunch 0 5 p (p.launches.get 5 .empty) 0x77#64
     (ok.slice 0).part == some 0 && (ok.part? 0).isSome
      && w 0 8 0x0000_0000_0000_001F#64 (fun e => e.word == 0x18#64 && e.put == 3#32) && w 0 8 0x8000_0000_0000_001F#64 (fun e => e.word == 0x8000_0000_0000_0018#64 && e.put == 0#32 && e.take == 0#32)
      && w 8 8 0x2007F#64 (fun e => e.desc == 0x20000#64) && w 16 8 0x9FFF#64 (fun e => e.ring == 0x901F#64) && w 24 4 9#64 (fun e => e.errcnt == 9#32)
      && goes (.launchTableTakeEffect 3 5#8) ok (fun t => (t.core 3).launchView.find 5 == some 0x8000_0000_0000_0000#64 && ((t.core 2).launchView.find 5).isNone)
      && goes (.spillRefill 0 5#8) (ok.writeMem 0 0x9000 [9#8]) (fun t => launch5 t fun e _ => e.fifo == [0x77#64, 9#64] && e.take == 3#32)
      && goes (.spillRefill 0 5#8) (launches { entry5 0#64 with take := 3#32 } 0x20000 []) (fun t => launch5 t fun e _ => e.fifo == [0x77#64])
      && goes (.spillRefill 0 5#8) (launches { entry5 0#64 with fifo := List.replicate 64 0#64 } 0x20000 []) (fun t => launch5 t fun e _ => e.fifo.length == 64)
      && (read ok matches some (.ok (some _))) && deq ok (fun e l => e.fifo.isEmpty && e.errcnt == 7#32 && l.map (fun x => (x.next, x.bound, x.arg)) == [(0, 1, 0x77#64)])
      && (read none_ matches some (.error .malformed)) && deq none_ (fun e l => e.errcnt == 8#32 && l.isEmpty) && (read skip matches some (.ok none)) && deq skip (fun e l => e.errcnt == 7#32 && l.isEmpty)
      && (read far matches some (.error (.unread 0x0040_0000_0000_0000 (some 0x0040_0000_0000_0000)))) && (far.way (far.unitSlice 0) 0 0x0040_0000_0000_0000).errs && ok.way (ok.unitSlice 0) 0 0x20000 == .free && ok.way (ok.unitSlice 0) 0 0x9010 == .free && !(ok.line 0 0x9010).poison && deq far (fun e l => e.errcnt == 8#32 && e.errlow == 0#32 && l.isEmpty)
      && (read poor matches some (.error (.unread 0x20000 none))) && held.way (held.unitSlice 0) 0 0x20000 == .held && (read held matches some (.error .waits)) && deq held (fun e _ => e.fifo == [0x77#64])
      && (none_.violation 0 0x20000).isNone && !(none_.line 0 0x20000).poison && (Desc.parse (none_.readMem 0 0x20000 128)).maxgrp == 0) = true := by decide +kernel

/-- A team placed on a core with room, with its registers, and one that has to wait for a core without a free context. -/
theorem met_teamPlace :
    (let s := match exec (.launchDequeue 0 5#8) (launches (entry5 0x20000#64) 0x20000 []) with
      | .next t => t
      | _ => gs
     let full := s.modCore 3 fun k => { k with teams := ⟨(List.range 8).map fun i => (i, .probe 0)⟩ }
     let ready (s : State) : Bool := match s.part? 0 with
      | some p => match p.placing.get 5 [] with
        | l :: _ => l.desc.cluster == 1 && !l.desc.pin && s.windowsEnd 0 l == none && !s.cacheStuck 3 && s.placeable 0 p 3 && ((s.core 3).takeTeam l.desc).isSome == (s.core 3).teams.cells.isEmpty
        | [] => false
      | none => false
     ready s && ready full && goes (.teamPlace 0 5#8 3) full (fun t => launch5 t fun _ l => l.length == 1)
      && goes (.teamPlace 0 5#8 3) s (fun t => launch5 t (fun _ l => l.isEmpty) && match t.team? 3 0 with
        | some m => m.gen.reg 1#6 == 0x77#64 && m.gen.reg 4#6 == BitVec.ofNat 64 (1 + 2 ^ 22 + 2 ^ 43) && m.gen.reg 5#6 == 0x1_0000_0000#64 && m.gen.reg 7#6 == 0#64 && m.gen.run == .ready 1 && m.index == 0
        | none => false)) = true := by decide +kernel

/-! ### Markhor -/

/-- The configuration record of one partition: slice 5 alone. -/
def cfg5 : PartCfg := ⟨1, 1, 1, 1, 1, 1, 2, 1, 0#384, 4, 0#64⟩

/-- A package whose record gives that partition. -/
def unbooted : State := { State.reset with markhor := { State.reset.markhor with cfg := [cfg5] } }

/-- A boot that meets images that pass, or, with a counter beyond their versions, does not. -/
theorem met_boot (h : ∀ n, Config.firmwareOk n = true) :
    unbooted.markhor.booted = false ∧ unbooted.markhor.failed = false ∧ unbooted.markhor.imagesOk = true ∧ unbooted.markhor.cfg = [cfg5] ∧ cfg5.slices ≠ []
      ∧ unbooted.markhor.fuseWork = [] ∧ unbooted.markhor.unresolved = [] ∧ unbooted.markhor.cfgOk = true
      ∧ ({ unbooted.markhor with fuses := ⟨[(0, ⟨3#64, 1#64, 0#64, 0#64⟩)]⟩ } : Markhor).unresolved ≠ []
      ∧ (unbooted.hartOf ⟨5, 0⟩).run ≠ .retired ∧ ({ unbooted.markhor with fuses := ⟨[(0, ⟨3#64, 3#64, 0#64, 0#64⟩)]⟩, versions := [] } : Markhor).imagesOk = false := by
  simp only [Markhor.imagesOk, h]
  decide +kernel

/-- The watchdog stopped, running, and past its time with a slice left to try and with none; the root; and a loss of power. -/
theorem met_watchdog :
    (let part (u : Part → Part) : State := (State.reset.setPart 5 (u { Part.single with slices := [5, 6], boot := 5, watchdog := some 10#64 })).modSlice 5 fun x => { x with cyc := 101#64, part := some 5 }
     let p5 (t : State) (p : Part → Bool) : Bool := match t.part? 5 with
      | some q => p q
      | none => false
     let root : State := { State.reset with markhor := { State.reset.markhor with root := some 9#256, fuseWork := [] } }
     goes (.bootWatchdogExpiry 5) (part fun p => { p with watchdog := none }) (fun t => p5 t fun p => p.boot == 5) && goes (.bootWatchdogExpiry 5) (part fun p => { p with watchdog := some 11#64 }) (fun t => p5 t fun p => p.boot == 5)
      && goes (.bootWatchdogExpiry 5) (part id) (fun t => p5 t (fun p => p.boot == 6 && p.tried == [5]) && (t.hartOf ⟨6, 0⟩).run == .loader)
      && goes (.bootWatchdogExpiry 5) (part fun p => { p with slices := [5] }) (fun t => p5 t (fun p => p.inReset) && t.markhor.reports == [261])
      && goes (.rootProvision 7#256 3#20) State.reset (fun t => t.markhor.root == some 7#256 && t.markhor.provIndex == 3#20) && goes (.rootProvision 7#256 3#20) root (fun t => t.markhor.root == some 9#256)
      && root.markhor.fuseWork.isEmpty && goes (.powerLoss 0) root (fun t => t.markhor.root == some 9#256 && t.mem == [])) = true := by decide +kernel

/-- A kernel image of two words for address 0x8000, entered at 0x8004, and a partition whose loader waits for it. -/
def kernel : List Byte := beBytes 4 0x4B524E31 ++ beBytes 4 3 ++ beBytes 8 264 ++ beBytes 8 0x8000 ++ beBytes 8 0x8004 ++ List.replicate 224 0#8 ++ [1#8, 2#8, 3#8, 4#8, 5#8, 6#8, 7#8, 8#8]
def loading : State := (State.reset.setPart 0 Part.single).modHart ⟨0, 0⟩ fun h => { h with run := .loader }

/-- Acceptance, where its digest and its signature pass; an image too old, or without the magic number, is refused. -/
theorem met_loader (hk : Config.sha384 (beBytes 96 (Config.publicKeyOf 0#384).toNat) = 0#384) (hs : ∀ d g, Config.ecdsaVerify d g (Config.publicKeyOf 0#384) = true) :
    (loading.hartOf ⟨0, 0⟩).run = .loader ∧ loading.part? 0 = some Part.single ∧ loading.Sound ∧ loading.acceptsImage Part.single kernel = true
      ∧ loading.acceptsImage Part.single (kernel.drop 1) = false := by
  simp only [State.acceptsImage, State.Sound, show Part.single.cfg.keyhash = 0#384 from rfl, hk, hs]
  decide +kernel

/-! ### The mailbox -/

/-- The probe's partition, which may have slices 0 and 1, with arguments in its mailbox, changed; its first slice holds no team, and its harts wait. -/
def mail (args : List Nat) (u : Part → Part := id) : State :=
  let s := State.reset.withPartition
  let s := (List.range 4).foldl (fun s h => s.modHart ⟨0, h⟩ fun x => { x with run := .wfi }) s
  let p : Part := { Part.single with cfg := { Part.single.cfg with mw := 2 } }
  s.setPart 0 (u { p with mailbox := { p.mailbox with args := ⟨args.zipIdx.map fun (a : Nat × Nat) => (a.2, BitVec.ofNat 64 a.1)⟩ } })

/-- The partition after a request, which has its result. -/
def mailed (code result : Nat) (t : State) (p : Part → Bool := fun _ => true) : Bool := match t.part? 0 with
  | some q => p q && match q.mailbox.busy with
    | some r => r.code == code && r.served && r.result == result
    | none => false
  | none => false

/-- The thirteen requests, each served and each refused as its rule gives. -/
theorem met_mailboxRequests :
    (let two (args : List Nat) (closed : List Nat) : State := ((mail args fun p => { p with slices := [0, 1], closed := closed }).modSlice 1 fun x => { x with part := some 0 })
     let wfi (s : State) : State := (List.range 4).foldl (fun s h => s.modHart ⟨1, h⟩ fun x => { x with run := .wfi }) s
     let team (s : State) : State := s.modCore 2 fun k => { k with teams := ⟨[(0, .probe 0)]⟩ }
     let full (args : List Nat) : State := mail args fun p => { p with regions := ⟨(List.range Config.regionSlots).map fun i => (i + 1, ⟨0, i, false, 0, 0, 0⟩)⟩ }
     let line (a : BitVec 2) (s : State) : State := { s with lines := ⟨[(lineKey 0 0, ⟨a, 3#4, 0#12, false⟩)]⟩ }
     let s := mail []
     Memory.wf s.mem && (s.slice 0).part == some 0 && (s.part? 0).any (fun p => p.mailbox.busy.isNone && p.slices == (List.range 16).filter p.slices.contains)
      && goes (.ident 0) s (mailed 1 0 ·) && goes (.bootok 0) s (fun t => mailed 2 0 t fun p => p.watchdog.isNone) && goes (.ptext 0) (mail [1]) (fun t => mailed 3 0 t fun p => p.xen)
      && goes (.ptext 0) (team (mail [1])) (fun t => mailed 3 2 t fun p => !p.xen)
      && goes (.wbind 0) (line 0#2 (mail [3, 8, 9])) (fun t => mailed 4 0 t fun p => p.bindings.find 3 == some (8#32, 9#32)) && goes (.wbind 0) (mail [16, 8, 9]) (mailed 4 1 ·)
      && goes (.wbind 0) (mail [15, 2 ^ 32 - 1, 9]) (mailed 4 0 ·) && goes (.assign 0) (mail [0x4000, 0x1000, 0x30]) (fun t => mailed 5 0 t && t.line 0 0x4F80 == ⟨0#2, 3#4, 0#12, false⟩)
      && goes (.assign 0) (mail [0x4001, 0x1000, 0x30]) (mailed 5 1 ·) && goes (.assign 0) (mail [0x4000, 0x1000, 0x33]) (mailed 5 1 ·) && goes (.assign 0) (mail [0x4000, 0x1000, 0x31]) (mailed 5 2 ·)
      && goes (.assign 0) (mail [0x4000, 0x1000, 0x31] fun p => { p with xen := true }) (fun t => mailed 5 0 t && t.line 0 0x4000 == ⟨1#2, 3#4, 0#12, false⟩)
      && goes (.rdrop 0) (mail [0]) (fun t => mailed 6 0 t fun p => p.regions.cells.isEmpty) && goes (.rdrop 0) (mail [1]) (mailed 6 1 ·)
      && goes (.radd 0) (mail [4095, 0]) (fun t => mailed 7 0 t fun p => p.regions.find 4095 == some ⟨0, 1, false, 0, 0, 0⟩) && goes (.radd 0) (full [0, 0]) (mailed 7 2 ·)
      && goes (.join 0) (mail [0]) (mailed 8 2 ·) && goes (.leavebegin 0) (mail [0]) (fun t => mailed 9 0 t fun p => p.closed == [0]) && goes (.leavebegin 0) (mail [1]) (mailed 9 1 ·)
      && goes (.leave 0) (mail [1]) (mailed 10 1 ·) && goes (.leave 0) (two [1] []) (mailed 10 2 ·)
      && goes (.leave 0) (wfi (two [1] [1])) (fun t => mailed 10 0 t (fun p => p.slices == [0]) && (t.slice 1).part.isNone)
      && goes (.recover 0) (mail [1]) (mailed 13 1 ·) && goes (.recover 0) (team (mail [0])) (mailed 13 2 ·) && goes (.recover 0) (mail [0]) (mailed 13 0 ·)
      && goes (.attest 0) (mail [0, 0x1000, 16]) (mailed 11 1 ·) && goes (.attkey 0) (mail [0x1000, 0, 16]) (mailed 12 1 ·)
      && (mail [0x4000, 0x5000, 0]).rangeValid 0 0x4000 48 && (mail [0x4000, 0x5000, 0]).rangeValid 0 0x5000 416 && (mail []).rangeValid 0 0x4000 96) = true := by decide +kernel

/-- JOIN of slice 1: what the slice then holds depends on its test, whose outcome is free, so only its conditions are shown, with its region's place. -/
theorem met_join :
    (let s := mail [1, 0x8000]
     (s.slice 1).part.isNone && (s.part? 0).any (fun p => p.cfg.maxSlices.contains 1 && shapeOk (insertNat 1 p.slices)) && (List.range 4).all (fun h => (s.hartOf ⟨1, h⟩).run != .retired)
      && goes (.join 0) (mail [0x10, 0]) (mailed 8 1 ·)) = true := by decide +kernel

/-- Requests under way: an ASSIGN that has done 31 lines and one that has done its last, a LEAVE that moves a region, and a RECOVER of a slice over whose links no
path is left. -/
theorem met_mailboxUnderWay :
    (let busy (r : MailReq) (u : Part → Part) : State := mail [] fun p => u { p with mailbox := { p.mailbox with busy := some r } }
     let req (t : State) : Option MailReq := (t.part? 0).bind fun p => p.mailbox.busy
     let asg (n : Nat) : MailReq := ⟨5, [0x4000#64, 0x1000#64, 0x30#64], true, n, false, 0, []⟩
     let lv : MailReq := ⟨10, [1#64], true, 0, false, 0, []⟩
     let moving (n : Nat) : State := (busy lv fun p => { p with slices := [0, 1], closed := [1], regions := ⟨[(0, ⟨0, 0, false, 0, 0, 0⟩), (4, ⟨0, 1, true, 1, 9, n⟩)]⟩ }).modSlice 1 fun x => { x with part := some 0 }
     let region (t : State) : Option Region := (t.part? 0).bind fun p => p.regions.find 4
     let cut := ((mail [1] fun p => { p with slices := [0, 1] }).modSlice 1 fun x => { x with part := some 0, err := { x.err with links := 15 } })
     let cut := (List.range 4).foldl (fun s h => s.modHart ⟨1, h⟩ fun x => { x with run := .wfi }) cut
     goes (.assign 0) (busy (asg 31) id) (fun t => req t == some (asg 32) && t.line 0 0x4F80 == ⟨0#2, 3#4, 0#12, false⟩ && t.line 0 0x4F00 == (mail []).line 0 0x4F00)
      && goes (.assign 0) (busy (asg 32) id) (fun t => (req t).any fun r => r.served)
      && goes (.leave 0) (moving 5) (fun t => region t == some ⟨0, 1, true, 1, 9, 6⟩ && req t == some lv) && goes (.leave 0) (moving 1048575) (fun t => region t == some ⟨0, 1, false, 0, 0, 0⟩)
      && cut.slicePrepared 1 && !cut.joined [0, 1]
      && goes (.recover 0) cut (fun t => (req t).any (fun r => r.began && !r.served) && (t.slice 1).err.esum.getLsbD 7 && t.markhor.reports.contains 512)) = true := by decide +kernel

/-- A code written while idle and while BUSY, and requests that are done: one served, and one of an unknown code. -/
theorem met_mailboxDone :
    (let busy (r : MailReq) : State := mail [] fun p => { p with mailbox := { p.mailbox with busy := some r } }
     let box (t : State) (p : Mailbox → Bool) : Bool := (t.part? 0).any fun q => p q.mailbox
     goes (.mailboxOverrun 0 9#8) (mail [5]) (fun t => box t fun m => m.busy == some ⟨9, [5#64, 0#64, 0#64, 0#64, 0#64, 0#64, 0#64, 0#64], false, 0, false, 0, []⟩)
      && goes (.mailboxOverrun 0 9#8) (busy ⟨1, [], false, 0, false, 0, []⟩) (fun t => box t fun m => m.ovr && m.busy == some ⟨1, [], false, 0, false, 0, []⟩)
      && goes (.mailboxDone 0) (busy ⟨1, [], true, 0, true, 2, [(1, 8#64)]⟩) (fun t => box t fun m => m.busy.isNone && m.done && m.result == 2 && m.outs.find 1 == some 8#64)
      && goes (.mailboxDone 0) (busy ⟨14, [], false, 0, false, 0, []⟩) (fun t => box t fun m => m.busy.isNone && m.done && m.result == 3)) = true := by decide +kernel

end Sys2Proof.Tests
end

