-- ==== Sys2Proof/Tests/Ports.lean ====
section
/-!
SUPPORT. Tests: ports, devices, errors and spares: states that meet the hypotheses of their statements, and what one step then does.
-/

-- The witnesses are long kernel evaluations: one after another they need one thread.
set_option Elab.async false

namespace Sys2Proof.Tests

open Sys2Proof Sys2Proof.Machine
open Host (Outcome)

/-- The probe's machine with a change to slice 0. -/
def at0 (u : Slice → Slice) (s : State := gs) : State := s.modSlice 0 u
/-- The probe's machine with a change to the port of slice 0. -/
def net0 (u : Net → Net) (s : State := gs) : State := at0 (fun x => { x with net := u x.net }) s
/-- What holds of slice 0. -/
def in0 (t : State) (p : Slice → Bool) : Bool := p (t.slice 0)

/-! ### The Ethernet port and the exposures -/

/-- Rings of 16 descriptors at 0x8000 and 0x9000, each with a posted descriptor in its second place: a buffer at 0xA000 of a length. -/
def ringed (len : Nat) (u : Net → Net := id) : State :=
  net0 (fun n => u { n with up := true, txRing := 0x8004#64, rxRing := 0x9004#64, txHead := 17#32, txTail := 18#32, rxHead := 17#32, rxTail := 18#32 })
    ((((gs.writeMem 0 0x8010 (leBytes 8 0xA000)).writeMem 0 0x8018 (leBytes 2 len)).writeMem 0 0x9010 (leBytes 8 0xA000)).writeMem 0 0x9018 (leBytes 2 len))

/-- The memory from 0x8000000 on homed in slice 1 of the same partition, which a change is made to. -/
def beside (u : Slice → Slice) (s : State) : State :=
  (s.modPart 0 fun p => { p with slices := [0, 1], regions := p.regions.set 1 ⟨1, 0, false, 0, 0, 0⟩, routes := ⟨[(1, [0, 1])]⟩ }).modSlice 1 fun x => u { x with part := some 0 }
/-- The buffer of the posted descriptor in slice 1, which is under recovery or behind a failed link. -/
def farBuffer (recovers : Bool) : State :=
  let s := (ringed 3).writeMem 0 0x8010 (leBytes 8 0x800A000)
  if recovers then beside (fun x => { x with err := { x.err with esum := 0x80#8 } }) s else at0 (fun x => { x with err := { x.err with links := 15 } }) (beside id s)

/-- A frame of the transport's EtherType, past a VLAN tag. -/
def adeserFrame : List Byte := List.replicate 12 0#8 ++ [0x81#8, 0#8, 0#8, 1#8, 0x88#8, 0xB5#8]

/-- Doorbells; frames sent, not sent, and with nothing posted; frames that arrive; and a change of the link. -/
theorem met_ethernet :
    (let tx (s : State) (err : Bool) (p : State → Bool) := goes (.frameTxDone 0 err) s p
     let d (b : Byte) (len : Nat) (at_ : Nat) (t : State) : Bool := t.readMem 0 (at_ + 8) 3 == leBytes 2 len ++ [b]
     let frame : List Byte := [1#8, 2#8, 3#8]
     let rx (s : State) (f : List Byte) (p : State → Bool) := goes (.ethernetFrameRx 0 f) s p
     let wired : State := at0 (fun x => { x with aplic := { x.aplic with regs := ⟨[(20, 4#32)]⟩ } })
     Memory.wf (ringed 3).mem && etherType adeserFrame == 0x88B5 && etherType (List.replicate 12 0#8 ++ [8#8, 0#8]) == 0x800
      && goes (.txPost 0 9#32) gs (fun t => in0 t fun x => x.net.txTail == 9#32) && goes (.rxPost 0 9#32) gs (fun t => in0 t fun x => x.net.rxTail == 9#32)
      && tx (ringed 3 fun n => { n with txTail := 17#32 }) true (fun t => t.mem == (ringed 3).mem && in0 t fun x => x.net.txHead == 17#32)
      && tx (ringed 3) true (d 3#8 3 0x8010) && tx (ringed 3 fun n => { n with up := false }) false (d 3#8 3 0x8010)
      && tx ((ringed 18).writeMem 0 0xA000 adeserFrame) false (d 3#8 18 0x8010)
      && tx ((ringed 3).writeMem 0 0xA000 frame) false (fun t => d 1#8 3 0x8010 t && in0 t fun x => x.net.frames == [frame] && x.net.txHead == 18#32)
      && rx (ringed 3 fun n => { n with up := false }) frame (fun t => in0 t fun x => x.net.rxHead == 17#32)
      && rx (ringed 3 fun n => { n with rxTail := 17#32 }) frame (fun t => in0 t fun x => x.net.rxHead == 17#32)
      && rx (ringed 3) frame (fun t => d 1#8 3 0x9010 t && t.readMem 0 0xA000 3 == frame && in0 t fun x => x.net.rxHead == 18#32)
      && rx (ringed 2) frame (fun t => d 3#8 2 0x9010 t && t.readMem 0 0xA000 3 == (ringed 2).readMem 0 0xA000 3)
      && (ringed 3).way 0 0 0x8010 == .free && (ringed 3).way 0 0 0xA000 == .free && !(ringed 3).bufferHeld 0 0 0xA000 3
      && ((cutOff (ringed 3)).way 0 0 0x8010).errs && tx (cutOff (ringed 3)) false (fun t => t.mem == (ringed 3).mem && in0 t fun x => x.net.txHead == 18#32)
      && (farBuffer true).way 0 0 0x8010 == .free && (farBuffer true).bufferHeld 0 0 0x800A000 3 && tx (farBuffer true) false (fun t => t.mem == (farBuffer true).mem && in0 t fun x => x.net.txHead == 17#32)
      && ((farBuffer false).way 0 0 0x800A000).errs && tx (farBuffer false) false (d 3#8 3 0x8010)
      && goes (.ethernetLinkChange 0 false) gs (fun t => in0 t fun x => !x.net.up && x.aplic.pending == 0#8)
      && goes (.ethernetLinkChange 0 true) wired (fun t => in0 t fun x => x.net.up && x.aplic.pending == 0x20#8 && x.aplic.level == 0#8)) = true := by decide +kernel

/-- A frame longer than 9,216 bytes is not sent: the length of a descriptor that is too long. -/
theorem met_longFrame : leNat ((ringed 9217).readMem 0 0x8018 2) = 9217 := by decide +kernel

/-- An exposure of two pages from 0x3000 on under a page table that maps every address to itself, and a segment under it. -/
def exposed (vbase : DWord := 0x3000#64) (u : State → State := id) : State :=
  u (net0 (fun n => { n with viewExp := ⟨[(2, ⟨7#64, vbase, 0x2003#64, 0xA050_0000_0000_0100#64⟩)]⟩ })
    (((gs.writeMem 0 0x100000 (leBytes 8 (0x101 * 1024 + 1))).writeMem 0 0x101000 (leBytes 8 0xDF)).writeMem 0 0x3010 [9#8, 8#8]))
def seg (put : Bool) (key : DWord := 7#64) : AdeserSegment := ⟨5#128, key, put, 0x10#64, [1#8, 2#8], 2⟩

/-- Segments that are served, and those refused: no such key, an address that is not canonical, a launch word, and poison; the exposures as written take effect. -/
theorem met_exposures :
    (let rx (s : State) (g : AdeserSegment) (p : State → Bool) := goes (.adeserSegmentRx 0 g) s p
     let said (r : Bool) (bs : List Byte) (t : State) : Bool := in0 t fun x => x.net.replies.map (fun y => (y.1.sender, y.2)) == [(5#128, r, bs)]
     let e : Exposure := ⟨7#64, 0x3000#64, 0x2003#64, 0xA050_0000_0000_0100#64⟩
     let poison : State := exposed (u := fun (s : State) => s.poisonLine 0 (0x3010 / 128))
     let word : State := exposed (u := fun (s : State) => s.modPart 0 fun p => { p with launches := ⟨[(5, ⟨0x8000_0000_0000_3010#64, 0#64, 0#64, 0#32, 0#32, 0#32, 0#32, [], []⟩)]⟩ })
     let pr : Peer := ⟨3#128, 0#64, 0#64, 0#32, 0#32, 0#32⟩
     let table : State := net0 fun n => { n with exposures := ⟨[(2, e)]⟩, peers := ⟨[(1, pr), (4, pr)]⟩, viewPeers := ⟨[(1, { pr with rtail := 6#32 }), (3, pr)]⟩ }
     Memory.wf exposed.mem && (exposed.slice 0).net.exposureFor (seg true) == some e && exposed.exposedAt 0 0 e (seg true) == some [(0x3010, 2)] && exposed.exposedAt 0 0 e (seg false) == some [(0x3010, 2)] && exposed.way 0 0 0x3010 == .free
      && (exposed.partLaunches 0 0x3010 2).isEmpty && !(word.partLaunches 0 0x3010 2).isEmpty && word.exposedAt 0 0 e (seg true) == some [(0x3010, 2)] && (poison.line 0 0x3010).poison
      && rx exposed (seg true 8#64) (said true []) && rx exposed (seg true 0#64) (said true []) && !canonical (0x7F00_0000_0000_0000#64 + 0x10#64)
      && rx (exposed 0x7F00_0000_0000_0000#64) (seg true) (said true []) && ((exposed 0x7F00_0000_0000_0000#64).slice 0).net.exposureFor (seg true) == some { e with vbase := 0x7F00_0000_0000_0000#64 }
      && rx exposed (seg true) (fun t => said false [] t && t.readMem 0 0x3010 2 == [1#8, 2#8] && (t.line 0 0x3010).owner == rootAsid e.root)
      && rx word (seg true) (said true []) && rx poison (seg false) (said true []) && rx exposed (seg false) (said false [9#8, 8#8])
      && rx State.reset (seg false) (said true []) && (State.reset.slice 0).part.isNone
      && goes (.exposureTakeEffect 0) table (fun t => in0 t fun x => x.net.viewExp == x.net.exposures
          && x.net.viewPeers == ⟨[(1, { pr with rtail := 6#32 }), (4, pr)]⟩)) = true := by decide +kernel

/-! ### The transport's answers -/

/-- A put, or a get, of 8 bytes at 0x2008 that is under way in the transport: segment 0, sent again so often. -/
def sentCopy (get : Bool) (retries : Nat) (pgt : DWord := 0#64) (dest : BitVec 128 := 5#128) : State :=
  let f : Fields := fldS (if get then 0x00 else 0x04) (.v 20) (.v 4) (.v 6)
  let o : CopyOp :=
    { id := 0, g := g0, opId := 1, ctx := 0, instr := .cpyn f, handle := 0#12, offset := 0, prov := 0#32, sup := true, active := 1#32, leader := 0,
      shape := [8#32, 1#32, 0x30#32, 0#32], global := 0x2008#64, base := 0, pitch := 0, index := lanesAll 0#32, value := 0#64, streams := [], sent := [⟨0, 0, 0, 8, retries, dest, 0#64⟩],
      started := true, working := false, issued := 0, flags := 0#32, waitPages := [], walkFaults := [] }
  let s := (mapped gs).modTeam 0 0 fun t => { t with desc := { t.desc with pgt := pgt } }
  let s := ((s.modFibre g0 fun b => { b with outstanding := [⟨1, 3, false, 0#32⟩] }).writeMem 0 0x5000 (leBytes 4 2)).writeMem 0 0x5070 (leBytes 16 (5 + 9 * 2 ^ 64))
  (s.modCore 0 fun k => { k with copies := [o] }).modSlice 0 fun x => { x with cyc := 20000#64, net := { x.net with mac := 77#48 } }

/-- Acknowledgements of a put and a get, a refusal, the last retry, one before it, one too early and one whose rank has gone, and acknowledgements from a port of
the package itself. -/
theorem met_transport :
    (let h (get : Bool) (r : Nat) (pgt : DWord) : Bool := let s := sentCopy get r pgt
      match s.view g0, (s.core 0).copies with
      | some v, [o] => o.g == v.g && !v.fib.aborting && Memory.wf s.mem && v.core.l1 == .empty && (s.portAt 5#128).isNone && s.portAt 77#128 == some 0 && (match s.rankEndpoint o v.team (o.q 1) with
            | (.ok e, _) => pgt == 0x5000#64 && e == BitVec.ofNat 128 (5 + 9 * 2 ^ 64)
            | (.none_, _) => pgt == 0#64
            | _ => false)
          && (match s.engineCheck o v.team 0x2008 8 get with
            | (.ready pa, t) => pa == 0x2008 && (t.core 0).tlb == (s.core 0).tlb
            | _ => false)
      | _, _ => false
     let failed (c : Byte) (t : State) : Bool := faults t [c] && (t.slice 0).fault.live.map (fun r => (r.opId, r.entry)) == [(1, 0xF#8)]
     let gone (t : State) : Bool := (t.core 0).copies.map (·.sent) == [[]] && t.fibre? g0 == (sentCopy true 0).fibre? g0
     h true 0 0#64 && h false 8 0#64 && h false 7 0x5000#64
      && goes (.adeserAck 0 0 0 [] false) (sentCopy false 0) (fun t => gone t && t.mem == (sentCopy false 0).mem)
      && goes (.adeserAck 0 0 0 [1#8, 2#8, 3#8, 4#8, 5#8, 6#8, 7#8, 8#8] false) (sentCopy true 0) (fun t => gone t && t.readMem 0 0x2008 8 == [1#8, 2#8, 3#8, 4#8, 5#8, 6#8, 7#8, 8#8])
      && goes (.adeserAck 0 0 0 [] true) (sentCopy true 0) (failed 0x41#8) && goes (.adeserResendTimeout 0 0 0) (sentCopy false 8) (failed 0x42#8)
      && goes (.adeserResendTimeout 0 0 0) (sentCopy false 7 0x5000#64) (fun t => (t.slice 0).net.segments.map (fun x => (x.1.toNat, x.2.put, x.2.len, x.2.key)) == [(5 + 9 * 2 ^ 64, true, 8, 9#64)]
        && (t.core 0).copies.map (fun o => o.sent.map (·.retries)) == [[8]])
      && goes (.adeserResendTimeout 0 0 0) (sentCopy false 7) (failed 0x40#8)
      && goes (.adeserResendTimeout 0 0 0) ((sentCopy false 8).modSlice 0 fun x => { x with cyc := 19999#64 }) (fun t => (t.core 0).copies == ((sentCopy false 8).core 0).copies)
      && (let own := sentCopy false 0 0#64 77#128
          let said := own.modSlice 0 fun x => { x with net := { x.net with replies := match (own.core 0).copies with
            | [o] => [(own.segmentTo o 77#128 0 8 [1#8], false, [])]
            | _ => [] } }
          goes (.adeserAck 0 0 0 [] false) own (fun t => (t.core 0).copies == (own.core 0).copies)
            && goes (.adeserAck 0 0 0 [] false) said fun t => (t.core 0).copies.map (·.sent) == [[]] && (t.slice 0).net.replies.length == 0 && t.mem == own.mem)) = true := by decide +kernel

/-- The check of the get's bytes leaves the state whole. -/
theorem met_transportCheck :
    ∃ v o, (sentCopy true 0).view g0 = some v ∧ ((sentCopy true 0).core 0).copies = [o]
      ∧ (sentCopy true 0).engineCheck o v.team 0x2008 8 true = (.ready 0x2008, sentCopy true 0) :=
  ⟨_, _, rfl, rfl, rfl⟩

/-! ### Root ports and devices -/

/-- The probe's machine with a change to the root port of slice 0. -/
def port0 (u : RootPort → RootPort) (s : State := gs) : State := at0 (fun x => { x with port := u x.port }) s

/-- Bonds asked for with a partner that may be bonded, with one whose link is up, and at the edge; training without a bond, into one, of its upper half and out of it;
and an INTx message. -/
theorem met_bonds :
    (let two (u : RootPort → RootPort := id) : State := gs.modSlice 1 fun x => { x with part := some 0, port := u x.port }
     let asked (s : State) (n : Nat) (w : Word) (b r : Bool) : Bool := goes (.bondRequest n w) s fun t => (t.slice n).port.bond == b && (t.slice n).port.refused == r && (t.slice n).port.dir == w.getLsbD 2
     let want : State := port0 (fun q => { q with bond := true }) two
     let joined : State := port0 (fun q => { q with partner := some 1 }) (two fun q => { q with partner := some 0, linkUp := false })
     let trains (s : State) (n : Nat) (up : Bool) (p q : RootPort → Bool) : Bool := goes (.pcieLinkTraining n up) s fun t => p (t.slice 0).port && q (t.slice 1).port
     asked two 0 0#32 false false && asked two 0 1#32 true false && asked (two fun q => { q with linkUp := true }) 0 1#32 false true && asked two 0 5#32 false true
      && asked (two fun q => { q with training := true }) 0 1#32 false true && asked two 3 1#32 false true && asked two 12 5#32 false true
      && trains gs 0 true (fun q => q.linkUp && q.partner.isNone) (fun q => !q.linkUp)
      && trains want 0 true (fun q => q.linkUp && q.partner == some 1) (fun q => q.partner == some 0 && !q.linkUp)
      && trains (port0 (fun q => { q with bond := true }) gs) 0 true (fun q => q.linkUp && q.partner.isNone && !q.bond && q.refused) (fun q => q.partner.isNone)
      && trains joined 1 true (fun q => q.partner == some 1) (fun q => q.partner == some 0 && !q.linkUp)
      && trains joined 0 true (fun q => q.linkUp && q.partner.isNone) (fun q => q.partner.isNone)
      && goes (.intxMessage 0 2 true) gs (fun t => in0 t fun x => x.aplic.level == 8#8)
      && goes (.intxMessage 0 2 false) (at0 fun x => { x with aplic := { x.aplic with level := 0xC#8 } }) (fun t => in0 t fun x => x.aplic.level == 4#8)) = true := by decide +kernel

/-- A live port of slice 0 with the mode field of its IOMMU's directory, a base of the directory, and bytes at 0x3010. -/
def devices (ddtp : Word) (u : State → State := id) : State :=
  u (port0 (fun q => { q with linkUp := true, busMaster := true }) (at0 (fun x => { x with iommu := ⟨⟨[(0x10, ddtp)]⟩⟩ }) (gs.writeMem 0 0x3010 [9#8, 8#8])))

/-- A port that is down; requests without translation that go through, that are poisoned, that meet a launch word in part, that hit a hole; and an IOMMU that is off. -/
theorem met_devices :
    (let on := devices 1#32
     let off := devices 0#32
     let hole : DWord := 0x0040_0000_0000_0000#64
     let word (a : DWord) : State := devices 1#32 fun (s : State) => s.modPart 0 fun p => { p with launches := ⟨[(5, ⟨0x8000_0000_0000_0000#64 ||| a, 0#64, 0#64, 0#32, 0#32, 0#32, 0#32, [], []⟩)]⟩ }
     let poison : State := devices 1#32 fun (s : State) => s.poisonLine 0 (0x3010 / 128)
     let target (s : State) (k : HartKind) (a : DWord) (n : Nat) : Option (Option Nat × Bool) := match s.devTarget 0 0 3#16 none k a n with
      | .at_ pa o => some (some pa, o == 0#12)
      | .waits => none
      | .stopped b t => some (none, b || (t.slice 0).fwHead != 1#32)
     let replies (t : State) (st : Nat) (bs : List Byte) : Bool := in0 t fun x => x.port.replies == [⟨3#16, st, bs⟩]
     let wr (s : State) (a : DWord) (p : State → Bool) := goes (.deviceWrite 0 3#16 none a [1#8, 2#8]) s p
     let rd (s : State) (a : DWord) (p : State → Bool) := goes (.deviceRead 0 3#16 none a 2) s p
     Memory.wf on.mem && (on.violation 0 0x3010).isNone && (on.violation 0 hole.toNat).isSome && !on.xenOf 0 && (on.slice 0).iommu.reg64 0x10 % 16 == 1 && (off.slice 0).iommu.reg64 0x10 % 16 == 0
      && target on .store 0x3010#64 2 == some (some 0x3010, true) && target on .load 0x3010#64 2 == some (some 0x3010, true)
      && off.way 0 0 (off.slice 0).iommu.faultPlace != .held && target off .load 0x3010#64 2 == some (none, true) && target on .load hole 2 == some (none, false)
      && wr gs 0x3010#64 (fun t => t.mem == gs.mem) && rd gs 0x3010#64 (fun t => in0 t fun x => x.port.replies.isEmpty) && goes (.deviceMsi 0 3#16 0x3000#64 5#32) gs (fun t => t.mem == gs.mem)
      && wr on 0x3010#64 (fun t => t.readMem 0 0x3010 2 == [1#8, 2#8]) && rd on 0x3010#64 (replies · 0 [9#8, 8#8]) && rd poison 0x3010#64 (replies · 1 [9#8, 8#8])
      && rd off 0x3010#64 (replies · 3 []) && rd on hole (replies · 2 []) && (word 0x3010#64).partLaunches 0 0x3010 2 == [(5, 0x3010)] && on.way 0 0 0x3010 == .free
      && goes (.deviceWrite 0 3#16 none 0x3000#64 (List.replicate 513 1#8)) on (fun t => t.mem == on.mem)
      && wr (word 0x3010#64) 0x3010#64 (fun t => t.mem == (word 0x3010#64).mem)) = true := by decide +kernel

/-- A slice under recovery holds the requests of other slices' devices for its memory. -/
theorem met_deviceWaits :
    (let off (s : State) : State := (s.modPart 0 fun p => { p with slices := [0, 1], regions := p.regions.set 1 ⟨1, 0, false, 0, 0, 0⟩ }).modSlice 1 fun x =>
       { x with part := some 0, err := { x.err with esum := 0x80#8 } }
     let s := off (devices 1#32)
     s.recovering 1 && s.way 0 0 0x8003010 == .held && (s.devTarget 0 0 3#16 none .store 0x8003010#64 2 matches .waits)
      && goes (.deviceWrite 0 3#16 none 0x8003010#64 [1#8, 2#8]) s (fun t => t.mem == s.mem)
      && goes (.adeserSegmentRx 0 (seg true)) (off (exposed 0x8003000#64)) (fun t => (t.slice 0).net.replies.length == 0 && t.mem == (exposed 0x8003000#64).mem)
      && goes (.adeserSegmentRx 0 (seg true)) (exposed 0x8003000#64) (fun t => (t.slice 0).net.replies.length == 1)) = true := by decide +kernel

/-- A directory of one level at 0x6000 whose context of requester 3 gives no first or second stage, and an MSI table at 0x7000 for the page 0x2000. -/
def msiDevices (pte : Nat) : State := devices ((6 * 1024 + 2 : Nat) : Word) fun (s : State) =>
  ((((s.writeMem 0 0x60C0 (leBytes 8 1)).writeMem 0 0x60E0 (leBytes 8 (2 ^ 60 + 7))).writeMem 0 0x60E8 (leBytes 8 0)).writeMem 0 0x60F0 (leBytes 8 2)).writeMem 0 0x7000 (leBytes 8 pte)

/-- An MSI that the table takes to hart 1's file of its slice, and an address that is no interrupt file's. -/
theorem met_deviceMsi :
    (let s := msiDevices ((0x00FE_0000_0000_1000 / 4096) * 1024 + 7)
     let target (a : Nat) : Option (Option Nat) := match s.devSpace 0 0 3#16 none .store with
      | .ok d => match s.devFirst 0 0 d .store a with
        | .ok (g, _) => some (match s.msiTarget 0 0 d g with
          | some (.ok pa) => some pa
          | _ => none)
        | .error _ => none
      | .error _ => none
     Memory.wf s.mem && target 0x2000 == some (some 0x00FE_0000_0000_1000) && target 0x3000 == some none && imsicTarget 0x00FE_0000_0000_1000 == some (0, 1, 0)
      && goes (.deviceMsi 0 3#16 0x3000#64 5#32) s (fun t => in0 t fun x => x.fwHead == 1#32)
      && goes (.deviceMsi 0 3#16 0x2000#64 5#32) s (fun t => ((t.hartOf ⟨0, 1⟩).files.find 0).map (·.pending) == some [5])) = true := by decide +kernel

/-- Commands of the IOMMU's queue (its specification's formats): an invalidation, a fence that writes a word, and one of ATS, which is illegal, stops the queue and
is signalled to hart 1; and the fault of a request that finds the directory off. -/
theorem test_iommu_queues :
    (let s := (((devices 0#32).writeMem 0 0x9000 (leBytes 8 1)).writeMem 0 0x9010 (leBytes 8 (2 + 2 ^ 10 + 0xABCD * 2 ^ 32) ++ leBytes 8 (0x5000 / 4))).writeMem 0 0x9020 (leBytes 8 4)
     let w (off : Nat) (v : Nat) (s : State) : State := s.writeIo 0 0 (0x1000000 + off) 0xFFFF_FFFF_FFFF_FFFF#64 (BitVec.ofNat 64 v)
     let hi (off : Nat) (v : Nat) (s : State) : State := s.writeIo 0 0 (0x1000000 + off) 0xFFFF_FFFF_0000_0000#64 (BitVec.ofNat 64 (v * 2 ^ 32))
     let t := hi 0x20 3 (w 0x48 3 (w 0x308 9 (w 0x300 0x00FE_0000_0000_1000 (w 0x18 (9 * 1024 + 2) s))))
     let f := w 0x48 (2 ^ 32) (w 0x28 (10 * 1024 + 1) s)
     in0 t (fun x => x.iommu.reg32 0x20 == 2#32 && x.iommu.reg32 0x48 == 0x10403#32 && x.iommu.reg32 0x54 == 1#32) && t.readMem 0 0x5000 4 == [0xCD#8, 0xAB#8, 0#8, 0#8]
      && ((t.hartOf ⟨0, 1⟩).files.find 0).map (·.pending) == some [9]
      && in0 (w 0x48 0x403 t) (fun x => x.iommu.reg32 0x48 == 0x10403#32) && (t.readIo 0 0x1000000).1 == BitVec.ofNat 64 iommuCapabilities
      && goes (.deviceRead 0 3#16 none 0x3010#64 2) f (fun u => in0 u (fun x => x.iommu.reg32 0x34 == 1#32) && u.readMem 0 0xA000 6 == [0#8, 1#8, 0#8, 0#8, 8#8, 3#8])) = true := by decide +kernel

/-! ### Errors and spares -/

/-- The causes of the records in slice 0's buffer. -/
def causes (t : State) : List Nat := (t.slice 0).fault.buffer.map fun r => r.cause.toNat
/-- A lasting error found at a site, by nobody. -/
noncomputable def errs (e : ErrorSite) (s : State) (p : State → Bool) : Bool := goes (.errorDetected e false none) s p
/-- A change to the error block of slice 0. -/
def err0 (u : ErrBlock → ErrBlock) (s : State := gs) : State := at0 (fun x => { x with err := u x.err }) s

/-- A retry that corrects, of each counter, and one at its end; parity; and a record that has no place. -/
theorem met_corrected :
    (let ok (e : ErrorSite) (s : State) (p : ErrBlock → Bool) : Bool := goes (.errorDetected e true none) s fun t => in0 t fun x => p x.err && x.err.esum.getLsbD 0
     let full : State := at0 fun x => { x with fault := { x.fault with buffer := List.replicate 32 Rec.blank } }
     ok (.hbmLine 0 9) gs (fun b => b.ceHbm == 1#32 && b.lastCe == 1152#64) && ok (.mscLine 0 9 1 true) gs (fun b => b.ceMsc == 1#32 && b.ceHbm == 0#32)
      && ok (.tile 0 1 2) gs (fun b => b.ceCore == 1#32 && b.lastCe == 1#64) && ok (.meshLink 0 1) (err0 fun b => { b with ceLink := 0xFFFF_FFFF#32 }) (fun b => b.ceLink == 0xFFFF_FFFF#32)
      && goes (.errorDetected (.parity 3 1 5) true none) gs (fun t => in0 t fun x => x.err.parity.get ((3 * 64 + 1) * 65536 + 5) 0 == 1 && x.err.esum == 0#8)
      && (let tlbs : State := gs.modCore 3 fun k => { k with tlb := [⟨1#12, 0, 0, 4096, 0, true, true, true, true, true, true, 0, 0⟩, ⟨2#12, 0, 0, 4096, 0, true, true, true, true, true, true, 0, 0⟩], parityOff := ⟨[(2, 1)]⟩ }
          goes (.errorDetected (.parity 3 2 0) true none) (tlbs.modSlice 0 fun x => { x with err := { x.err with parity := ⟨[((3 * 64 + 2) * 65536, 1)]⟩ } })
            fun t => (t.core 3).tlb.length == 1 && (t.core 3).parityOff.get 2 0 == 2)
      && (errs (.lineMac 0 9) gs fun t => causes t == []) && (errs (.lineMac 0 9) { gs with lines := ⟨[(lineKey 0 1152, ⟨2#2, 0#4, 0#12, false⟩)]⟩ } fun t => causes t == [0x80] && (t.line 0 1152).poison)
      && !full.recordRoom 0 && holdsRecord (.hbmLine 0 9) && errs (.hbmLine 0 9) full (fun t => !(t.line 0 1152).poison)
      && in0 gs fun x => x.fault.waiting == [] && x.fault.used < 31 && x.fault.qbase == 0#64) = true := by decide +kernel

/-- Errors of data: of HBM, of a bank's way (clean, quarantined already, beyond four, and dirty), and of a first-level line, clean and dirty. -/
theorem met_dataErrors :
    (let bank := homeBank 1152
     let q (n : Nat) : State := err0 fun b => { b with qmap := ⟨[(bank, BitVec.ofNat 12 n)]⟩ }
     let l1 (d : Bool) : State := gs.modCore 0 fun k => { k with l1 := ⟨[(9, ⟨⟨[(0, (1#8, d))]⟩, false, 0#12⟩)]⟩ }
     errs (.hbmLine 0 9) gs (fun t => (t.line 0 1152).poison && causes t == [0x80] && in0 t fun x => x.err.chErrs.get bank 0 == 1 && x.err.esum.getLsbD 1)
      && errs (.mscLine 0 9 1 false) (q 1) (fun t => causes t == [0x85] && in0 t fun x => x.err.qmap.get bank 0#12 == 3#12)
      && errs (.mscLine 0 9 1 false) (q 2) (fun t => causes t == []) && errs (.mscLine 0 9 11 false) (q 0xF) (fun t => causes t == [0x88] && in0 t fun x => x.err.qmap.get bank 0#12 == 0xF#12)
      && errs (.mscLine 0 9 1 true) gs (fun t => causes t == [0x82, 0x85] && (t.line 0 1152).poison)
      && !(l1 false).cacheStuck 0 && ((l1 false).core 0).l1.cells.length == 1
      && errs (.l1Line 0 9) (l1 false) (fun t => causes t == [] && (t.core 0).l1.cells.isEmpty && in0 t fun x => x.err.waysOff.get 0 0 == 1)
      && errs (.l1Line 0 9) (l1 true) (fun t => causes t == [0x82] && (t.core 0).l1.cells.isEmpty && (t.line 0 1152).poison)) = true := by decide +kernel

/-- Errors of a core's storage, held and free: a register, a tile, a granule, and a block; the core with and without a spare. -/
theorem met_coreErrors :
    (let ended (t : State) : Bool := (causes t).contains 0x83 && match t.team? 0 0 with
      | some m => m.gen.run == .exited
      | none => true
     let held : State := (gs.modSub 0 0 fun x => { x with tileOwner := ⟨[(2, 0)]⟩ }).modCore 0 fun k => { k with granules := ⟨[(4, ⟨0, some 0⟩)]⟩ }
     let block := (held.core 0).blocks.keys.headD 0
     let marked (t : State) : Bool := causes t == [0x84, 0x83] && ((t.core 0).sub 0).marked && in0 t fun x => x.err.waitCore == 1#16 && x.err.esum.getLsbD 6
     let none_ := err0 fun b => { b with spCore := 0 }
     ((held.core 0).sub 0).holdersOf 3 == [0] && ((held.core 0).sub 0).tileOwner.find 2 == some 0 && ((held.core 0).sub 0).holdersOf 900 == [] && ((held.core 0).sub 0).tileOwner.find 3 == none
      && (held.core 0).blockHolders 0 block == [0] && (held.core 0).blockHolders 0 60 == [] && ((held.core 0).granules.get 4 ⟨0, none⟩).ctx == some 0 && (held.team? 0 0).isSome
      && errs (.register 0 0 3) held ended && errs (.tile 0 0 2) held ended && errs (.granule 0 4) held ended && errs (.emitBlock 0 block) held ended
      && errs (.register 0 0 900) held marked && errs (.tile 0 0 3) held marked
      && errs (.granule 0 5) gs (fun t => causes t == [0x84, 0x83] && (t.core 0).marked) && errs (.emitBlock 0 60) gs (fun t => causes t == [0x84, 0x83] && (t.core 0).marked)
      && errs (.granule 0 5) none_ (fun t => causes t == [0x88, 0x83] && (t.core 0).retired)) = true := by decide +kernel

/-- Errors of links and harts: found by nobody and by a context, a port's lane with a spare and without, a hart's cache, and the root port. -/
theorem met_linkErrors :
    (errs (.meshLink 0 1) gs (fun t => causes t == [0x86] && in0 t fun x => x.err.links == 2#4)
      && goes (.errorDetected (.meshLink 0 1) false (some (.ctx ⟨0, 0⟩))) gs (fun t => causes t == [0x86] && t.team? 0 0 == gs.team? 0 0)
      && errs (.ethernet 0) gs (fun t => causes t == [0x84] && t.agenda.head? == some (.lane 0) && in0 t fun x => x.net.laneMarked && !x.net.spare && x.err.spLane == 1) && errs (.ethernet 0) (err0 fun b => { b with spLane := 0 }) (fun t => causes t == [0x88] && in0 t fun x => !x.net.spare)
      && errs (.hartCache ⟨0, 2⟩ 9 false) gs (fun t => causes t == [0x84] && in0 t fun x => x.err.waitHart == 4#4)
      && errs (.pcie 0) (port0 fun q => { q with linkUp := true }) (fun t => in0 t fun x => !x.port.linkUp)) = true := by decide +kernel

/-- Swaps of a sub-partition, a core and a lane, and those that do nothing yet. -/
theorem met_spares :
    (let bare (u : Core → Core) : State := gs.modCore 0 fun k => u { k with teams := .empty, scratch := ⟨[(0, 7#8)]⟩, clock := 9 }
     let sub (s : State) (p : State → Bool) := goes (.spareSwap (.subPartition 0 1)) s p
     let mark : Core → Core := fun k => k.setSub 1 { k.sub 1 with marked := true, world := 3 }
     let teams : State := gs.modCore 0 fun k => mark { k with marked := true }
     let still (t : State) : Bool := ((t.core 0).sub 1).world == 3
     sub (bare mark) (fun t => (t.core 0).sub 1 == Sub.reset && (t.core 0).spareUsed) && sub teams still && sub (bare fun k => { mark k with spareUsed := true }) still
      && sub gs (fun t => !(t.core 0).spareUsed)
      && goes (.spareSwap (.core 0)) (bare fun k => { k with marked := true }) (fun t => !(t.core 0).marked && (t.core 0).scratch == .empty && (t.core 0).clock == 9 && (t.core 0).l1 == .empty && (t.core 0).tlb == []
          && (t.core 0).constCache == .empty && in0 t fun x => x.err.spCore == 1)
      && goes (.spareSwap (.core 0)) teams (fun t => (t.core 0).marked)
      && goes (.spareSwap (.core 0)) (err0 (fun b => { b with spCore := 0 }) (bare fun k => { k with marked := true })) (fun t => (t.core 0).marked)
      && (let lane : State := net0 fun n => { n with laneMarked := true }
          goes (.spareSwap (.lane 0)) lane (fun t => in0 t fun x => x.net.spare && x.err.spLane == 0 && !x.net.laneMarked)
            && goes (.spareSwap (.lane 0)) (err0 (fun b => { b with spLane := 0 }) lane) (fun t => in0 t fun x => !x.net.spare && x.net.laneMarked))
      && goes (.spareSwap (.lane 0)) gs (fun t => in0 t fun x => !x.net.spare && x.err.spLane == 1)) = true := by decide +kernel

end Sys2Proof.Tests
end

