-- ==== Sys2Proof/Tests/Slice0.lean ====
section
/-!
SUPPORT. Tests: words written out from the specification's encoding (R28, R30, R31, R34, R40, R41, R50, R397) decode to the instruction they
stand for, ill-formed words are refused (R54), and single steps on small states give what the specification's own examples and rules say.
-/

-- The witnesses are long kernel evaluations: one after another they need one thread.
set_option Elab.async false

namespace Sys2Proof.Tests

open Sys2Proof Sys2Proof.Machine

/-! ### Words (R28-R50) -/

/-- Words and the instructions they stand for: each decodes to its instruction, which is well formed and encodes as the word. -/
def decodesAll (l : List (IWord × Instr)) : Bool :=
  l.all fun p => (match decodeBytes (leBytes 12 p.1.toNat) with
    | .ok i => i == p.2
    | .error _ => false) && p.2.wellFormed && encodeWord p.2 == some p.1

theorem test_decode_control : decodesAll
    [(0x200000000000000001FB013F#96, .nop ⟨0x0#8, .v 0, .v 0, .v 0, .none, ⟨false, 31#5⟩, ⟨5#3, 0x809#12, true, 15#4⟩⟩),
     (0x210000000003FFFF51FB013F#96, .bra ⟨0x0#8, .v 0, .v 0, .v 0, .rel 0xFFFFD#20, ⟨false, 31#5⟩, ⟨5#3, 0x809#12, true, 15#4⟩⟩),
     (0x2202000000000002526B013F#96, .brc ⟨0x2#8, .v 0, .v 0, .v 0, .rel 0x9#20, ⟨true, 6#5⟩, ⟨5#3, 0x809#12, true, 15#4⟩⟩),
     (0x2300000230000048C9FB013F#96, .brx ⟨0x0#8, .v 0, .v 35, .v 0, .imm 0x123#20, ⟨false, 31#5⟩, ⟨5#3, 0x809#12, true, 15#4⟩⟩),
     (0x240005000003FFEE91F4820B#96, .call ⟨0x0#8, .v 20, .v 0, .v 0, .rel 0xFFFBA#20, ⟨false, 31#5⟩, ⟨2#3, 0x410#12, false, 11#4⟩⟩),
     (0x240005423000000001F4820B#96, .callReg ⟨0x0#8, .v 21, .v 35, .v 0, .none, ⟨false, 31#5⟩, ⟨2#3, 0x410#12, false, 11#4⟩⟩),
     (0x25000031F000000001FB013F#96, .ret ⟨0x0#8, .v 0, .o 31, .v 0, .none, ⟨false, 31#5⟩, ⟨5#3, 0x809#12, true, 15#4⟩⟩),
     (0x2600C0800003FFFED1F4820B#96, .loop ⟨0x0#8, .o 2, .v 0, .v 0, .rel 0xFFFFB#20, ⟨false, 31#5⟩, ⟨2#3, 0x410#12, false, 11#4⟩⟩),
     (0x2703BFC2200000000264820B#96, .mask ⟨0x3#8, .v 767, .v 34, .v 0, .none, ⟨true, 6#5⟩, ⟨2#3, 0x410#12, false, 11#4⟩⟩),
     (0x280005304C140003CA662057#96, .spawn ⟨0x0#8, .v 20, .o 4, .o 5, .imm 0xF#20, ⟨true, 6#5⟩, ⟨3#3, 0x102#12, true, 7#4⟩⟩),
     (0x290000000000000001FB013F#96, .exit ⟨0x0#8, .v 0, .v 0, .v 0, .none, ⟨false, 31#5⟩, ⟨5#3, 0x809#12, true, 15#4⟩⟩),
     (0x2A0000000000000001FB013F#96, .yield ⟨0x0#8, .v 0, .v 0, .v 0, .none, ⟨false, 31#5⟩, ⟨5#3, 0x809#12, true, 15#4⟩⟩),
     (0x2B0300000000000149FB013F#96, .fbar ⟨0x3#8, .v 0, .v 0, .v 0, .imm 0x5#20, ⟨false, 31#5⟩, ⟨5#3, 0x809#12, true, 15#4⟩⟩),
     (0x2C0B00000000000FC9FB013F#96, .waitc ⟨0xB#8, .v 0, .v 0, .v 0, .imm 0x3F#20, ⟨false, 31#5⟩, ⟨5#3, 0x809#12, true, 15#4⟩⟩),
     (0x2C0A00023000000001FB013F#96, .waitcReg ⟨0xA#8, .v 0, .v 35, .v 0, .none, ⟨false, 31#5⟩, ⟨5#3, 0x809#12, true, 15#4⟩⟩)] = true := by decide +kernel

theorem test_decode_integer : decodesAll
    [(0x3008050220B800000264820B#96, .iadd ⟨0x8#8, .v 20, .v 34, .v 46, .none, ⟨true, 6#5⟩, ⟨2#3, 0x410#12, false, 11#4⟩⟩),
     (0x3178050220B800000264820B#96, .isub ⟨0x78#8, .v 20, .v 34, .v 46, .none, ⟨true, 6#5⟩, ⟨2#3, 0x410#12, false, 11#4⟩⟩),
     (0x3210050220B800000264820B#96, .imul ⟨0x10#8, .v 20, .v 34, .v 46, .none, ⟨true, 6#5⟩, ⟨2#3, 0x410#12, false, 11#4⟩⟩),
     (0x3310050220B800000264820B#96, .imulh ⟨0x10#8, .v 20, .v 34, .v 46, .none, ⟨true, 6#5⟩, ⟨2#3, 0x410#12, false, 11#4⟩⟩),
     (0x3408050220B8000DC664820B#96, .imad ⟨0x8#8, .v 20, .v 34, .v 46, .reg (.v 55), ⟨true, 6#5⟩, ⟨2#3, 0x410#12, false, 11#4⟩⟩),
     (0x3510058230BC00000264820B#96, .imulw ⟨0x10#8, .v 22, .v 35, .v 47, .none, ⟨true, 6#5⟩, ⟨2#3, 0x410#12, false, 11#4⟩⟩),
     (0x3621050220B8000002662057#96, .idiv ⟨0x21#8, .v 20, .v 34, .v 46, .none, ⟨true, 6#5⟩, ⟨3#3, 0x102#12, true, 7#4⟩⟩),
     (0x3790050220B800000264820B#96, .imin ⟨0x90#8, .v 20, .v 34, .v 46, .none, ⟨true, 6#5⟩, ⟨2#3, 0x410#12, false, 11#4⟩⟩),
     (0x3800050220B800000264820B#96, .imax ⟨0x0#8, .v 20, .v 34, .v 46, .none, ⟨true, 6#5⟩, ⟨2#3, 0x410#12, false, 11#4⟩⟩),
     (0x39980572000000000264820B#96, .iabs ⟨0x98#8, .v 21, .y0, .v 0, .none, ⟨true, 6#5⟩, ⟨2#3, 0x410#12, false, 11#4⟩⟩),
     (0x3AA0050220B800000264820B#96, .and ⟨0xA0#8, .v 20, .v 34, .v 46, .none, ⟨true, 6#5⟩, ⟨2#3, 0x410#12, false, 11#4⟩⟩),
     (0x3B40050220B800000264820B#96, .or ⟨0x40#8, .v 20, .v 34, .v 46, .none, ⟨true, 6#5⟩, ⟨2#3, 0x410#12, false, 11#4⟩⟩),
     (0x3C30050220B800000264820B#96, .xor ⟨0x30#8, .v 20, .v 34, .v 46, .none, ⟨true, 6#5⟩, ⟨2#3, 0x410#12, false, 11#4⟩⟩),
     (0x3D20050220B800000264820B#96, .andn ⟨0x20#8, .v 20, .v 34, .v 46, .none, ⟨true, 6#5⟩, ⟨2#3, 0x410#12, false, 11#4⟩⟩),
     (0x3E10050220B800000264820B#96, .shl ⟨0x10#8, .v 20, .v 34, .v 46, .none, ⟨true, 6#5⟩, ⟨2#3, 0x410#12, false, 11#4⟩⟩),
     (0x3F00050220B800000264820B#96, .shr ⟨0x0#8, .v 20, .v 34, .v 46, .none, ⟨true, 6#5⟩, ⟨2#3, 0x410#12, false, 11#4⟩⟩),
     (0x4000050220B800000264820B#96, .sra ⟨0x0#8, .v 20, .v 34, .v 46, .none, ⟨true, 6#5⟩, ⟨2#3, 0x410#12, false, 11#4⟩⟩),
     (0x4111050220B800000264820B#96, .rot ⟨0x11#8, .v 20, .v 34, .v 46, .none, ⟨true, 6#5⟩, ⟨2#3, 0x410#12, false, 11#4⟩⟩),
     (0x4211050220B800C1C664820B#96, .shf ⟨0x11#8, .v 20, .v 34, .v 46, .reg (.o 7), ⟨true, 6#5⟩, ⟨2#3, 0x410#12, false, 11#4⟩⟩),
     (0x4310050220B800000264820B#96, .bfx ⟨0x10#8, .v 20, .v 34, .v 46, .none, ⟨true, 6#5⟩, ⟨2#3, 0x410#12, false, 11#4⟩⟩),
     (0x4410050220B8048D0A64820B#96, .bfi ⟨0x10#8, .v 20, .v 34, .v 46, .imm 0x1234#20, ⟨true, 6#5⟩, ⟨2#3, 0x410#12, false, 11#4⟩⟩),
     (0x45100572000000000264820B#96, .popc ⟨0x10#8, .v 21, .y0, .v 0, .none, ⟨true, 6#5⟩, ⟨2#3, 0x410#12, false, 11#4⟩⟩),
     (0x46100572000000000264820B#96, .clz ⟨0x10#8, .v 21, .y0, .v 0, .none, ⟨true, 6#5⟩, ⟨2#3, 0x410#12, false, 11#4⟩⟩),
     (0x47100572000000000264820B#96, .ctz ⟨0x10#8, .v 21, .y0, .v 0, .none, ⟨true, 6#5⟩, ⟨2#3, 0x410#12, false, 11#4⟩⟩),
     (0x48100572000000000264820B#96, .brev ⟨0x10#8, .v 21, .y0, .v 0, .none, ⟨true, 6#5⟩, ⟨2#3, 0x410#12, false, 11#4⟩⟩),
     (0x4913050220B800000264820B#96, .icmp ⟨0x13#8, .v 20, .v 34, .v 46, .none, ⟨true, 6#5⟩, ⟨2#3, 0x410#12, false, 11#4⟩⟩),
     (0x4A20050220B8000DC664820B#96, .sel ⟨0x20#8, .v 20, .v 34, .v 46, .reg (.v 55), ⟨true, 6#5⟩, ⟨2#3, 0x410#12, false, 11#4⟩⟩),
     (0x4B1005400002AF379664820B#96, .mov ⟨0x10#8, .v 21, .v 0, .v 0, .shifted 0xABCDE#20, ⟨true, 6#5⟩, ⟨2#3, 0x410#12, false, 11#4⟩⟩),
     (0x4C28050220B800000264820B#96, .iadd64 ⟨0x28#8, .v 20, .v 34, .v 46, .none, ⟨true, 6#5⟩, ⟨2#3, 0x410#12, false, 11#4⟩⟩),
     (0x4D300502200200005664820B#96, .isub64 ⟨0x30#8, .v 20, .v 34, .v 0, .shifted 0x80001#20, ⟨true, 6#5⟩, ⟨2#3, 0x410#12, false, 11#4⟩⟩),
     (0x4E13050220BC00100A64820B#96, .lea ⟨0x13#8, .v 20, .v 34, .v 47, .imm 0x40#20, ⟨true, 6#5⟩, ⟨2#3, 0x410#12, false, 11#4⟩⟩),
     (0x4F9005022C86EAF34E64820B#96, .isad ⟨0x90#8, .v 20, .v 34, .y1, .cref 5#3 0x1ABCD#17, ⟨true, 6#5⟩, ⟨2#3, 0x410#12, false, 11#4⟩⟩)] = true := by decide +kernel

theorem test_decode_floating : decodesAll
    [(0x5044050220B800000264820B#96, .fadd ⟨0x44#8, .v 20, .v 34, .v 46, .none, ⟨true, 6#5⟩, ⟨2#3, 0x410#12, false, 11#4⟩⟩),
     (0x5148050220B800000264820B#96, .fsub ⟨0x48#8, .v 20, .v 34, .v 46, .none, ⟨true, 6#5⟩, ⟨2#3, 0x410#12, false, 11#4⟩⟩),
     (0x5242050220B800000264820B#96, .fmul ⟨0x42#8, .v 20, .v 34, .v 46, .none, ⟨true, 6#5⟩, ⟨2#3, 0x410#12, false, 11#4⟩⟩),
     (0x5346050220B8000DC664820B#96, .ffma ⟨0x46#8, .v 20, .v 34, .v 46, .reg (.v 55), ⟨true, 6#5⟩, ⟨2#3, 0x410#12, false, 11#4⟩⟩),
     (0x5440050220B800000264820B#96, .fmin ⟨0x40#8, .v 20, .v 34, .v 46, .none, ⟨true, 6#5⟩, ⟨2#3, 0x410#12, false, 11#4⟩⟩),
     (0x5540050220B800000264820B#96, .fmax ⟨0x40#8, .v 20, .v 34, .v 46, .none, ⟨true, 6#5⟩, ⟨2#3, 0x410#12, false, 11#4⟩⟩),
     (0x564D050220B800000264820B#96, .fcmp ⟨0x4D#8, .v 20, .v 34, .v 46, .none, ⟨true, 6#5⟩, ⟨2#3, 0x410#12, false, 11#4⟩⟩),
     (0x57440542300000000264820B#96, .frnd ⟨0x44#8, .v 21, .v 35, .v 0, .none, ⟨true, 6#5⟩, ⟨2#3, 0x410#12, false, 11#4⟩⟩),
     (0x58400542300000000264820B#96, .fclass ⟨0x40#8, .v 21, .v 35, .v 0, .none, ⟨true, 6#5⟩, ⟨2#3, 0x410#12, false, 11#4⟩⟩),
     (0x59480542300000005664820B#96, .fscale ⟨0x48#8, .v 21, .v 35, .v 0, .shifted 0x1#20, ⟨true, 6#5⟩, ⟨2#3, 0x410#12, false, 11#4⟩⟩),
     (0x5A58050220B8000DC664820B#96, .fdot2 ⟨0x58#8, .v 20, .v 34, .v 46, .reg (.v 55), ⟨true, 6#5⟩, ⟨2#3, 0x410#12, false, 11#4⟩⟩),
     (0x5B2C050220B800C88664820B#96, .fdot4 ⟨0x2C#8, .v 20, .v 34, .v 46, .reg (.zero), ⟨true, 6#5⟩, ⟨2#3, 0x410#12, false, 11#4⟩⟩),
     (0x5C52050220B800000264820B#96, .hadd2 ⟨0x52#8, .v 20, .v 34, .v 46, .none, ⟨true, 6#5⟩, ⟨2#3, 0x410#12, false, 11#4⟩⟩),
     (0x5D66050220B800000264820B#96, .hmul2 ⟨0x66#8, .v 20, .v 34, .v 46, .none, ⟨true, 6#5⟩, ⟨2#3, 0x410#12, false, 11#4⟩⟩),
     (0x5E62050220B8000DC664820B#96, .hfma2 ⟨0x62#8, .v 20, .v 34, .v 46, .reg (.v 55), ⟨true, 6#5⟩, ⟨2#3, 0x410#12, false, 11#4⟩⟩),
     (0x5F61050220B800000264820B#96, .hmnx2 ⟨0x61#8, .v 20, .v 34, .v 46, .none, ⟨true, 6#5⟩, ⟨2#3, 0x410#12, false, 11#4⟩⟩),
     (0x605B050220B800000264820B#96, .hcmp2 ⟨0x5B#8, .v 20, .v 34, .v 46, .none, ⟨true, 6#5⟩, ⟨2#3, 0x410#12, false, 11#4⟩⟩)] = true := by decide +kernel

theorem test_decode_special : decodesAll
    [(0x614005423000000002662057#96, .rcp ⟨0x40#8, .v 21, .v 35, .v 0, .none, ⟨true, 6#5⟩, ⟨3#3, 0x102#12, true, 7#4⟩⟩),
     (0x624005423000000002662057#96, .rsq ⟨0x40#8, .v 21, .v 35, .v 0, .none, ⟨true, 6#5⟩, ⟨3#3, 0x102#12, true, 7#4⟩⟩),
     (0x634405423000000002662057#96, .sqrt ⟨0x44#8, .v 21, .v 35, .v 0, .none, ⟨true, 6#5⟩, ⟨3#3, 0x102#12, true, 7#4⟩⟩),
     (0x644005423000000002662057#96, .exp2 ⟨0x40#8, .v 21, .v 35, .v 0, .none, ⟨true, 6#5⟩, ⟨3#3, 0x102#12, true, 7#4⟩⟩),
     (0x654005423000000002662057#96, .log2 ⟨0x40#8, .v 21, .v 35, .v 0, .none, ⟨true, 6#5⟩, ⟨3#3, 0x102#12, true, 7#4⟩⟩),
     (0x664005423000000002662057#96, .sin ⟨0x40#8, .v 21, .v 35, .v 0, .none, ⟨true, 6#5⟩, ⟨3#3, 0x102#12, true, 7#4⟩⟩),
     (0x674005423000000002662057#96, .cos ⟨0x40#8, .v 21, .v 35, .v 0, .none, ⟨true, 6#5⟩, ⟨3#3, 0x102#12, true, 7#4⟩⟩),
     (0x684005423000000002662057#96, .tanh ⟨0x40#8, .v 21, .v 35, .v 0, .none, ⟨true, 6#5⟩, ⟨3#3, 0x102#12, true, 7#4⟩⟩),
     (0x6948050220B8000002662057#96, .fdiv ⟨0x48#8, .v 20, .v 34, .v 46, .none, ⟨true, 6#5⟩, ⟨3#3, 0x102#12, true, 7#4⟩⟩)] = true := by decide +kernel

theorem test_decode_conversion : decodesAll
    [(0x70490502300032000A64820B#96, .cvt ⟨0x49#8, .v 20, .v 35, .v 0, .imm 0xC800#20, ⟨true, 6#5⟩, ⟨2#3, 0x410#12, false, 11#4⟩⟩),
     (0x7191050220B84A000A64820B#96, .cvtq ⟨0x91#8, .v 20, .v 34, .v 46, .imm 0x12800#20, ⟨true, 6#5⟩, ⟨2#3, 0x410#12, false, 11#4⟩⟩),
     (0x72100582200240000A64820B#96, .cvtd ⟨0x10#8, .v 22, .v 34, .v 0, .imm 0x90000#20, ⟨true, 6#5⟩, ⟨2#3, 0x410#12, false, 11#4⟩⟩),
     (0x73540542300000000264820B#96, .pack6 ⟨0x54#8, .v 21, .v 35, .v 0, .none, ⟨true, 6#5⟩, ⟨2#3, 0x410#12, false, 11#4⟩⟩),
     (0x74500542300000000264820B#96, .unpk6 ⟨0x50#8, .v 21, .v 35, .v 0, .none, ⟨true, 6#5⟩, ⟨2#3, 0x410#12, false, 11#4⟩⟩),
     (0x7500050220B81D4C4A64820B#96, .prmt ⟨0x0#8, .v 20, .v 34, .v 46, .imm 0x7531#20, ⟨true, 6#5⟩, ⟨2#3, 0x410#12, false, 11#4⟩⟩),
     (0x76940542300000000264820B#96, .tag ⟨0x94#8, .v 21, .v 35, .v 0, .none, ⟨true, 6#5⟩, ⟨2#3, 0x410#12, false, 11#4⟩⟩),
     (0x77900542300000000264820B#96, .bscale ⟨0x90#8, .v 21, .v 35, .v 0, .none, ⟨true, 6#5⟩, ⟨2#3, 0x410#12, false, 11#4⟩⟩)] = true := by decide +kernel

theorem test_decode_crosslane : decodesAll
    [(0x7803050220B800000264820B#96, .shfl ⟨0x3#8, .v 20, .v 34, .v 46, .none, ⟨true, 6#5⟩, ⟨2#3, 0x410#12, false, 11#4⟩⟩),
     (0x79020542300000000264820B#96, .vote ⟨0x2#8, .v 21, .v 35, .v 0, .none, ⟨true, 6#5⟩, ⟨2#3, 0x410#12, false, 11#4⟩⟩),
     (0x7A010542300000000264820B#96, .matchLanes ⟨0x1#8, .v 21, .v 35, .v 0, .none, ⟨true, 6#5⟩, ⟨2#3, 0x410#12, false, 11#4⟩⟩),
     (0x7B250502200000000264820B#96, .red ⟨0x25#8, .v 20, .v 34, .v 0, .none, ⟨true, 6#5⟩, ⟨2#3, 0x410#12, false, 11#4⟩⟩),
     (0x7C41050230BC00000264820B#96, .redmi ⟨0x41#8, .v 20, .v 35, .v 47, .none, ⟨true, 6#5⟩, ⟨2#3, 0x410#12, false, 11#4⟩⟩),
     (0x7D4A0542300000000264820B#96, .scan ⟨0x4A#8, .v 21, .v 35, .v 0, .none, ⟨true, 6#5⟩, ⟨2#3, 0x410#12, false, 11#4⟩⟩),
     (0x7E00054230038000CE64820B#96, .bcst ⟨0x0#8, .v 21, .v 35, .v 0, .cref 7#3 0x3#17, ⟨true, 6#5⟩, ⟨2#3, 0x410#12, false, 11#4⟩⟩)] = true := by decide +kernel

theorem test_decode_memory : decodesAll
    [(0x806C05022003FFFC0A662057#96, .ld ⟨0x6C#8, .v 20, .v 34, .v 0, .imm 0xFFFF0#20, ⟨true, 6#5⟩, ⟨3#3, 0x102#12, true, 7#4⟩⟩),
     (0x818C000220C000100A662057#96, .st ⟨0x8C#8, .v 0, .v 34, .v 48, .imm 0x40#20, ⟨true, 6#5⟩, ⟨3#3, 0x102#12, true, 7#4⟩⟩),
     (0x823005423000000002662057#96, .lds ⟨0x30#8, .v 21, .v 35, .v 0, .none, ⟨true, 6#5⟩, ⟨3#3, 0x102#12, true, 7#4⟩⟩),
     (0x8360000230B8000002662057#96, .sts ⟨0x60#8, .v 0, .v 35, .v 46, .none, ⟨true, 6#5⟩, ⟨3#3, 0x102#12, true, 7#4⟩⟩),
     (0x84800502300000040A662057#96, .ldr ⟨0x80#8, .v 20, .v 35, .v 0, .imm 0x10#20, ⟨true, 6#5⟩, ⟨3#3, 0x102#12, true, 7#4⟩⟩),
     (0x8540000230BC00040A662057#96, .str ⟨0x40#8, .v 0, .v 35, .v 47, .imm 0x10#20, ⟨true, 6#5⟩, ⟨3#3, 0x102#12, true, 7#4⟩⟩),
     (0x8660050230000001CA662057#96, .ldc ⟨0x60#8, .v 20, .v 35, .v 0, .imm 0x7#20, ⟨true, 6#5⟩, ⟨3#3, 0x102#12, true, 7#4⟩⟩),
     (0x879E050220B80000CA662057#96, .atom ⟨0x9E#8, .v 20, .v 34, .v 46, .imm 0x3#20, ⟨true, 6#5⟩, ⟨3#3, 0x102#12, true, 7#4⟩⟩),
     (0x8810054230BC00080A662057#96, .atoms ⟨0x10#8, .v 21, .v 35, .v 47, .imm 0x20#20, ⟨true, 6#5⟩, ⟨3#3, 0x102#12, true, 7#4⟩⟩),
     (0x89030002200000200A662057#96, .pref ⟨0x3#8, .v 0, .v 34, .v 0, .imm 0x80#20, ⟨true, 6#5⟩, ⟨3#3, 0x102#12, true, 7#4⟩⟩),
     (0x8A00000220BC000002662057#96, .cinv ⟨0x0#8, .v 0, .v 34, .v 47, .none, ⟨true, 6#5⟩, ⟨3#3, 0x102#12, true, 7#4⟩⟩),
     (0x8B00000220BC000002662057#96, .cwb ⟨0x0#8, .v 0, .v 34, .v 47, .none, ⟨true, 6#5⟩, ⟨3#3, 0x102#12, true, 7#4⟩⟩)] = true := by decide +kernel

theorem test_decode_ordering : decodesAll
    [(0x90410002200000100A662057#96, .acq ⟨0x41#8, .v 0, .v 34, .v 0, .imm 0x40#20, ⟨true, 6#5⟩, ⟨3#3, 0x102#12, true, 7#4⟩⟩),
     (0x916000022000000002662057#96, .rel ⟨0x60#8, .v 0, .v 34, .v 0, .none, ⟨true, 6#5⟩, ⟨3#3, 0x102#12, true, 7#4⟩⟩),
     (0x9207054220B8000DC6662057#96, .mbind ⟨0x7#8, .v 21, .v 34, .v 46, .reg (.v 55), ⟨true, 6#5⟩, ⟨3#3, 0x102#12, true, 7#4⟩⟩),
     (0x930600022000000002662057#96, .munbind ⟨0x6#8, .v 0, .v 34, .v 0, .none, ⟨true, 6#5⟩, ⟨3#3, 0x102#12, true, 7#4⟩⟩),
     (0x949800000000000002662057#96, .fence ⟨0x98#8, .v 0, .v 0, .v 0, .none, ⟨true, 6#5⟩, ⟨3#3, 0x102#12, true, 7#4⟩⟩),
     (0x952F00000000000002662057#96, .bar ⟨0x2F#8, .v 0, .v 0, .v 0, .none, ⟨true, 6#5⟩, ⟨3#3, 0x102#12, true, 7#4⟩⟩),
     (0x961F00000000000002662057#96, .cbar ⟨0x1F#8, .v 0, .v 0, .v 0, .none, ⟨true, 6#5⟩, ⟨3#3, 0x102#12, true, 7#4⟩⟩),
     (0x9700054220BC000002662057#96, .await ⟨0x0#8, .v 21, .v 34, .v 47, .none, ⟨true, 6#5⟩, ⟨3#3, 0x102#12, true, 7#4⟩⟩),
     (0x980105422000000002662057#96, .awake ⟨0x1#8, .v 21, .v 34, .v 0, .none, ⟨true, 6#5⟩, ⟨3#3, 0x102#12, true, 7#4⟩⟩)] = true := by decide +kernel

theorem test_decode_copy : decodesAll
    [(0xA006050220BC00400A662057#96, .cpy ⟨0x6#8, .v 20, .v 34, .v 47, .imm 0x100#20, ⟨true, 6#5⟩, ⟨3#3, 0x102#12, true, 7#4⟩⟩),
     (0xA104050220BC000002662057#96, .cpyg ⟨0x4#8, .v 20, .v 34, .v 47, .none, ⟨true, 6#5⟩, ⟨3#3, 0x102#12, true, 7#4⟩⟩),
     (0xA200050220BC000DC6662057#96, .cpym ⟨0x0#8, .v 20, .v 34, .v 47, .reg (.v 55), ⟨true, 6#5⟩, ⟨3#3, 0x102#12, true, 7#4⟩⟩),
     (0xA30405022000000002662057#96, .cpyn ⟨0x4#8, .v 20, .v 34, .v 0, .none, ⟨true, 6#5⟩, ⟨3#3, 0x102#12, true, 7#4⟩⟩),
     (0xA407050220B8000002662057#96, .cpyf ⟨0x7#8, .v 20, .v 34, .v 46, .none, ⟨true, 6#5⟩, ⟨3#3, 0x102#12, true, 7#4⟩⟩)] = true := by decide +kernel

theorem test_decode_matrix : decodesAll
    [(0xA80505424000000002662057#96, .mapres ⟨0x5#8, .v 21, .v 36, .v 0, .none, ⟨true, 6#5⟩, ⟨3#3, 0x102#12, true, 7#4⟩⟩),
     (0xA99500023000000002662057#96, .mapset ⟨0x95#8, .v 0, .v 35, .v 0, .none, ⟨true, 6#5⟩, ⟨3#3, 0x102#12, true, 7#4⟩⟩),
     (0xAA8405400000000002662057#96, .mapget ⟨0x84#8, .v 21, .v 0, .v 0, .none, ⟨true, 6#5⟩, ⟨3#3, 0x102#12, true, 7#4⟩⟩),
     (0xAB0F00000000000002662057#96, .maprel ⟨0xF#8, .v 0, .v 0, .v 0, .none, ⟨true, 6#5⟩, ⟨3#3, 0x102#12, true, 7#4⟩⟩),
     (0xAC3400000002AC000A662057#96, .mma ⟨0x34#8, .v 0, .v 0, .v 0, .imm 0xAB000#20, ⟨true, 6#5⟩, ⟨3#3, 0x102#12, true, 7#4⟩⟩),
     (0xAD3400000002AC000A662057#96, .mmas ⟨0x34#8, .v 0, .v 0, .v 0, .imm 0xAB000#20, ⟨true, 6#5⟩, ⟨3#3, 0x102#12, true, 7#4⟩⟩),
     (0xAE3400023002AC000A662057#96, .mmag ⟨0x34#8, .v 0, .v 35, .v 0, .imm 0xAB000#20, ⟨true, 6#5⟩, ⟨3#3, 0x102#12, true, 7#4⟩⟩),
     (0xAFF000000000000002662057#96, .accz ⟨0xF0#8, .v 0, .v 0, .v 0, .none, ⟨true, 6#5⟩, ⟨3#3, 0x102#12, true, 7#4⟩⟩),
     (0xB02005000000001F4A662057#96, .accld ⟨0x20#8, .v 20, .v 0, .v 0, .imm 0x7D#20, ⟨true, 6#5⟩, ⟨3#3, 0x102#12, true, 7#4⟩⟩),
     (0xB120000230BD19000A662057#96, .accst ⟨0x20#8, .v 0, .v 35, .v 47, .imm 0x46400#20, ⟨true, 6#5⟩, ⟨3#3, 0x102#12, true, 7#4⟩⟩),
     (0xB220000230BCA0000A662057#96, .accq ⟨0x20#8, .v 0, .v 35, .v 47, .imm 0x28000#20, ⟨true, 6#5⟩, ⟨3#3, 0x102#12, true, 7#4⟩⟩),
     (0xB3200002100001000A662057#96, .accadd ⟨0x20#8, .v 0, .v 33, .v 0, .imm 0x400#20, ⟨true, 6#5⟩, ⟨3#3, 0x102#12, true, 7#4⟩⟩)] = true := by decide +kernel

theorem test_decode_system : decodesAll
    [(0xC00000000000003F8A6B013F#96, .sysc ⟨0x0#8, .v 0, .v 0, .v 0, .imm 0xFE#20, ⟨true, 6#5⟩, ⟨5#3, 0x809#12, true, 15#4⟩⟩),
     (0xC100000000000000026B013F#96, .rets ⟨0x0#8, .v 0, .v 0, .v 0, .none, ⟨true, 6#5⟩, ⟨5#3, 0x809#12, true, 15#4⟩⟩),
     (0xC2000000000048D14A6B013F#96, .trap ⟨0x0#8, .v 0, .v 0, .v 0, .imm 0x12345#20, ⟨true, 6#5⟩, ⟨5#3, 0x809#12, true, 15#4⟩⟩),
     (0xC200000230000000026B013F#96, .trapReg ⟨0x0#8, .v 0, .v 35, .v 0, .none, ⟨true, 6#5⟩, ⟨5#3, 0x809#12, true, 15#4⟩⟩),
     (0xC3000000000150C84A6B013F#96, .brk ⟨0x0#8, .v 0, .v 0, .v 0, .imm 0x54321#20, ⟨true, 6#5⟩, ⟨5#3, 0x809#12, true, 15#4⟩⟩),
     (0xC300000230000000026B013F#96, .brkReg ⟨0x0#8, .v 0, .v 35, .v 0, .none, ⟨true, 6#5⟩, ⟨5#3, 0x809#12, true, 15#4⟩⟩),
     (0xC4130500000000000264820B#96, .rdsr ⟨0x13#8, .v 20, .v 0, .v 0, .none, ⟨true, 6#5⟩, ⟨2#3, 0x410#12, false, 11#4⟩⟩),
     (0xC5150002300000000264820B#96, .wrsr ⟨0x15#8, .v 0, .v 35, .v 0, .none, ⟨true, 6#5⟩, ⟨2#3, 0x410#12, false, 11#4⟩⟩),
     (0xC600000230BC000002662057#96, .intr ⟨0x0#8, .v 0, .v 35, .v 47, .none, ⟨true, 6#5⟩, ⟨3#3, 0x102#12, true, 7#4⟩⟩),
     (0xC700000000000003CA6B013F#96, .psave ⟨0x0#8, .v 0, .v 0, .v 0, .imm 0xF#20, ⟨true, 6#5⟩, ⟨5#3, 0x809#12, true, 15#4⟩⟩),
     (0xC800054220BC000002662057#96, .ctxsave ⟨0x0#8, .v 21, .v 34, .v 47, .none, ⟨true, 6#5⟩, ⟨3#3, 0x102#12, true, 7#4⟩⟩),
     (0xC90005422000000002662057#96, .ctxload ⟨0x0#8, .v 21, .v 34, .v 0, .none, ⟨true, 6#5⟩, ⟨3#3, 0x102#12, true, 7#4⟩⟩),
     (0xCA01000220BC000002662057#96, .tlbinv ⟨0x1#8, .v 0, .v 34, .v 47, .none, ⟨true, 6#5⟩, ⟨3#3, 0x102#12, true, 7#4⟩⟩)] = true := by decide +kernel

theorem test_decode_generator : decodesAll
    [(0x010902C0C034000000000000#96, .galu ⟨0x9#8, 11#6, 12#6, 13#6, .none⟩),
     (0x02020FC000026AF348000000#96, .gmovi ⟨0x2#8, 63#6, 0#6, 0#6, .imm 0x9ABCD#20⟩),
     (0x030602C0C003FFFE08000000#96, .gld ⟨0x6#8, 11#6, 12#6, 0#6, .imm 0xFFFF8#20⟩),
     (0x04030000C034000000000000#96, .gst ⟨0x3#8, 0#6, 12#6, 13#6, .none⟩),
     (0x05050000C037FFFF90000000#96, .gbr ⟨0x5#8, 0#6, 12#6, 13#6, .rel 0xFFFFE#20⟩),
     (0x0600000000000001D0000000#96, .gjmp ⟨0x0#8, 0#6, 0#6, 0#6, .rel 0x7#20⟩),
     (0x06000000C000000000000000#96, .gjmpReg ⟨0x0#8, 0#6, 12#6, 0#6, .none⟩),
     (0x070002C00003FFFE50000000#96, .gcall ⟨0x0#8, 11#6, 0#6, 0#6, .rel 0xFFFF9#20⟩),
     (0x070002C0C000000000000000#96, .gcallReg ⟨0x0#8, 11#6, 12#6, 0#6, .none⟩),
     (0x08000000C000000000000000#96, .gret ⟨0x0#8, 0#6, 12#6, 0#6, .none⟩),
     (0x090000000038000000000000#96, .gemit ⟨0x0#8, 0#6, 0#6, 14#6, .none⟩),
     (0x0AA50000C040000C08000000#96, .gemitt ⟨0xA5#8, 0#6, 12#6, 16#6, .imm 0x30#20⟩),
     (0x0B000000C034000000000000#96, .gemitb ⟨0x0#8, 0#6, 12#6, 13#6, .none⟩),
     (0x0C0002C0C000000000000000#96, .gblkopen ⟨0x0#8, 11#6, 12#6, 0#6, .none⟩),
     (0x0D0002C0C000000000000000#96, .gblkseal ⟨0x0#8, 11#6, 12#6, 0#6, .none⟩),
     (0x0E0002C0C000000000000000#96, .gblkfind ⟨0x0#8, 11#6, 12#6, 0#6, .none⟩),
     (0x0F000000C000000000000000#96, .gblkfree ⟨0x0#8, 0#6, 12#6, 0#6, .none⟩),
     (0x10000000C034000608000000#96, .gblkload ⟨0x0#8, 0#6, 12#6, 13#6, .imm 0x18#20⟩),
     (0x110002C0C034001008000000#96, .gstart ⟨0x0#8, 11#6, 12#6, 13#6, .imm 0x40#20⟩),
     (0x12000000C034001008000000#96, .gentry ⟨0x0#8, 0#6, 12#6, 13#6, .imm 0x40#20⟩),
     (0x130002C0C000001008000000#96, .gwaitb ⟨0x0#8, 11#6, 12#6, 0#6, .imm 0x40#20⟩),
     (0x140000000000001008000000#96, .gyield ⟨0x0#8, 0#6, 0#6, 0#6, .imm 0x40#20⟩),
     (0x150000000000000000000000#96, .gexit ⟨0x0#8, 0#6, 0#6, 0#6, .none⟩),
     (0x16810000C000000000000000#96, .gacq ⟨0x81#8, 0#6, 12#6, 0#6, .none⟩),
     (0x17400000C000001008000000#96, .grel ⟨0x40#8, 0#6, 12#6, 0#6, .imm 0x40#20⟩),
     (0x181502C00000000000000000#96, .grdsr ⟨0x15#8, 11#6, 0#6, 0#6, .none⟩),
     (0x199C02C0C034000000000000#96, .gatom ⟨0x9C#8, 11#6, 12#6, 13#6, .none⟩),
     (0x1A5000000000000000000000#96, .gfence ⟨0x50#8, 0#6, 0#6, 0#6, .none⟩)] = true := by decide +kernel

/-- The paired word of R50's example, and the word of R28's example of an IADD with every field in use. -/
theorem test_decode_pair_and_example : decodesAll
    [(0xE018_4048_5043_4382_41F0_000F#96, .pair ⟨3#5, 8#8, 9#8, 10#8, 1#5, 13#8, 14#8, 9#8, ⟨false, 31#5⟩, ⟨0#3, 0#12, false, 15#4⟩⟩),
     (0x3008_0530_3003_FFFD_0A52_013F#96, .iadd ⟨0x08#8, .v 20, .o 3, .v 0, .imm 0xFFFF4#20, ⟨true, 5#5⟩, ⟨1#3, 0x9#12, true, 15#4⟩⟩),
     (0x3000_0030_0000_0006_49F0_000F#96, .iadd ⟨0#8, .v 0, .o 0, .v 0, .imm 0x19#20, ⟨false, 31#5⟩, ⟨0#3, 0#12, false, 15#4⟩⟩)] = true := by decide +kernel

/-- The bytes of the IADD's word in memory, from the specification's example. -/
theorem test_bytes_of_word : leBytes 12 0x3008_0530_3003_FFFD_0A52_013F
    = [0x3F#8, 0x01#8, 0x52#8, 0x0A#8, 0xFD#8, 0xFF#8, 0x03#8, 0x30#8, 0x30#8, 0x05#8, 0x08#8, 0x30#8] := by decide +kernel

/-- The hart's three words (R397), their bytes in memory, and words of their opcode that are none. -/
theorem test_decode_hart : decodeHartBytes (leBytes 4 0x00C5850B) = .ok (.dwAwait 10#5 11#5 12#5)
    ∧ decodeHartBytes (leBytes 4 0x0005950B) = .ok (.dwAwake 10#5 11#5) ∧ decodeHartBytes (leBytes 4 0x0205950B) = .ok (.dwAwakeAll 10#5 11#5)
    ∧ (match decodeHartWord 0x00C5950B#32 with
      | .ok _ => false
      | .error _ => true) = true ∧ (match decodeHartWord 0x02C5850B#32 with
      | .ok _ => false
      | .error _ => true) = true := by decide +kernel

/-- Words that are none (R54): opcodes of no instruction, an operand code of no register (0x323), a destination y0 (R32), an extension kind 6 (R34), a
negated always (R40), signals 12 to 14 (R41), X bits above an operand code, and a generator word with a group word's fields. -/
theorem test_refused_words : (([0x0000_0000_0000_0000_01F0_000F#96, 0x1B00_0000_0000_0000_0000_0000#96, 0x2D00_0000_0000_0000_01F0_000F#96,
    0x301008323088000001F0000F#96,
    0x3010C8021088000001F0000F#96,
    0x301008021088000019F0000F#96,
    0x301008021088000003F0000F#96,
    0x301008021088000001F0000C#96,
    0x301008021088000001F0000E#96,
    0x341008021088100405F0000F#96,
    0x301008021088000141F0000F#96,
    0x01000040200C000001F00000#96,
    0x01001040200C000000000000#96] : List IWord).all fun w => match decodeWord w with
      | .ok _ => false
      | .error _ => true) = true := by decide +kernel

/-! ### Ill-formed terms (R29-R54): one for each check -/

/-- A reserved TY (R49). -/
theorem test_illformed_sub_type : ([.iadd ⟨0x50#8, .v 20, .v 34, .v 46, .none, ⟨true, 6#5⟩, ⟨2#3, 0x410#12, false, 11#4⟩⟩,
    .fadd ⟨0x50#8, .v 20, .v 34, .v 46, .none, ⟨true, 6#5⟩, ⟨2#3, 0x410#12, false, 11#4⟩⟩,
    .icmp ⟨0x16#8, .v 20, .v 34, .v 46, .none, ⟨true, 6#5⟩, ⟨2#3, 0x410#12, false, 11#4⟩⟩,
    .fcmp ⟨0x4E#8, .v 20, .v 34, .v 46, .none, ⟨true, 6#5⟩, ⟨2#3, 0x410#12, false, 11#4⟩⟩] : List Instr).all (fun i => !i.wellFormed) = true := by decide +kernel

/-- SAT where it is not accepted (R49). -/
theorem test_illformed_sub_saturation : ([.imulh ⟨0x18#8, .v 20, .v 34, .v 46, .none, ⟨true, 6#5⟩, ⟨2#3, 0x410#12, false, 11#4⟩⟩,
    .imin ⟨0x18#8, .v 20, .v 34, .v 46, .none, ⟨true, 6#5⟩, ⟨2#3, 0x410#12, false, 11#4⟩⟩] : List Instr).all (fun i => !i.wellFormed) = true := by decide +kernel

/-- RM 5 in arithmetic, RM 6 in a conversion (R49, R182). -/
theorem test_illformed_sub_rounding : ([.fadd ⟨0x4A#8, .v 20, .v 34, .v 46, .none, ⟨true, 6#5⟩, ⟨2#3, 0x410#12, false, 11#4⟩⟩,
    .cvtq ⟨0x91#8, .v 20, .v 34, .v 46, .imm 0x13000#20, ⟨true, 6#5⟩, ⟨2#3, 0x410#12, false, 11#4⟩⟩] : List Instr).all (fun i => !i.wellFormed) = true := by decide +kernel

/-- A VAR beyond the opcode's (R49). -/
theorem test_illformed_sub_variant : ([.rot ⟨0x12#8, .v 20, .v 34, .v 46, .none, ⟨true, 6#5⟩, ⟨2#3, 0x410#12, false, 11#4⟩⟩,
    .idiv ⟨0x22#8, .v 20, .v 34, .v 46, .none, ⟨true, 6#5⟩, ⟨3#3, 0x102#12, true, 7#4⟩⟩,
    .fdot4 ⟨0x2D#8, .v 20, .v 34, .v 46, .reg (.zero), ⟨true, 6#5⟩, ⟨2#3, 0x410#12, false, 11#4⟩⟩,
    .red ⟨0x26#8, .v 20, .v 34, .v 0, .none, ⟨true, 6#5⟩, ⟨2#3, 0x410#12, false, 11#4⟩⟩,
    .vote ⟨0x4#8, .v 21, .v 35, .v 0, .none, ⟨true, 6#5⟩, ⟨2#3, 0x410#12, false, 11#4⟩⟩] : List Instr).all (fun i => !i.wellFormed) = true := by decide +kernel

/-- Reserved formats, and counts that do not match (R178, R183). -/
theorem test_illformed_sub_format : ([.cvt ⟨0xA1#8, .v 20, .v 35, .v 0, .imm 0xC800#20, ⟨true, 6#5⟩, ⟨2#3, 0x410#12, false, 11#4⟩⟩,
    .cvtq ⟨0xC#8, .v 20, .v 34, .v 46, .imm 0x12800#20, ⟨true, 6#5⟩, ⟨2#3, 0x410#12, false, 11#4⟩⟩,
    .cvtd ⟨0x10#8, .v 22, .v 34, .v 0, .imm 0xC000#20, ⟨true, 6#5⟩, ⟨2#3, 0x410#12, false, 11#4⟩⟩,
    .pack6 ⟨0x68#8, .v 21, .v 35, .v 0, .none, ⟨true, 6#5⟩, ⟨2#3, 0x410#12, false, 11#4⟩⟩,
    .tag ⟨0x40#8, .v 21, .v 35, .v 0, .none, ⟨true, 6#5⟩, ⟨2#3, 0x410#12, false, 11#4⟩⟩] : List Instr).all (fun i => !i.wellFormed) = true := by decide +kernel

/-- Sizes, extension, cache hints and layouts of accesses (R49, R215). -/
theorem test_illformed_sub_access : ([.ld ⟨0xA0#8, .v 20, .v 34, .v 0, .imm 0xFFFF0#20, ⟨true, 6#5⟩, ⟨3#3, 0x102#12, true, 7#4⟩⟩,
    .ld ⟨0x50#8, .v 20, .v 34, .v 0, .imm 0xFFFF0#20, ⟨true, 6#5⟩, ⟨3#3, 0x102#12, true, 7#4⟩⟩,
    .st ⟨0x50#8, .v 0, .v 34, .v 48, .imm 0x40#20, ⟨true, 6#5⟩, ⟨3#3, 0x102#12, true, 7#4⟩⟩,
    .lds ⟨0x44#8, .v 21, .v 35, .v 0, .none, ⟨true, 6#5⟩, ⟨3#3, 0x102#12, true, 7#4⟩⟩,
    .ldc ⟨0x20#8, .v 20, .v 35, .v 0, .imm 0x7#20, ⟨true, 6#5⟩, ⟨3#3, 0x102#12, true, 7#4⟩⟩,
    .atom ⟨0xA8#8, .v 20, .v 34, .v 46, .imm 0x3#20, ⟨true, 6#5⟩, ⟨3#3, 0x102#12, true, 7#4⟩⟩,
    .atoms ⟨0x12#8, .v 21, .v 35, .v 47, .imm 0x20#20, ⟨true, 6#5⟩, ⟨3#3, 0x102#12, true, 7#4⟩⟩,
    .acq ⟨0xA0#8, .v 0, .v 34, .v 0, .imm 0x40#20, ⟨true, 6#5⟩, ⟨3#3, 0x102#12, true, 7#4⟩⟩,
    .fence ⟨0x80#8, .v 0, .v 0, .v 0, .none, ⟨true, 6#5⟩, ⟨3#3, 0x102#12, true, 7#4⟩⟩,
    .rel ⟨0x61#8, .v 0, .v 34, .v 0, .none, ⟨true, 6#5⟩, ⟨3#3, 0x102#12, true, 7#4⟩⟩] : List Instr).all (fun i => !i.wellFormed) = true := by decide +kernel

/-- Numbers beyond the opcode's (R49). -/
theorem test_illformed_sub_number : ([.bar ⟨0x30#8, .v 0, .v 0, .v 0, .none, ⟨true, 6#5⟩, ⟨3#3, 0x102#12, true, 7#4⟩⟩,
    .mask ⟨0x6#8, .v 767, .v 34, .v 0, .none, ⟨true, 6#5⟩, ⟨2#3, 0x410#12, false, 11#4⟩⟩,
    .waitc ⟨0xC#8, .v 0, .v 0, .v 0, .imm 0x3F#20, ⟨false, 31#5⟩, ⟨5#3, 0x809#12, true, 15#4⟩⟩,
    .fbar ⟨0x4#8, .v 0, .v 0, .v 0, .imm 0x5#20, ⟨false, 31#5⟩, ⟨5#3, 0x809#12, true, 15#4⟩⟩,
    .mapset ⟨0xA5#8, .v 0, .v 35, .v 0, .none, ⟨true, 6#5⟩, ⟨3#3, 0x102#12, true, 7#4⟩⟩,
    .rdsr ⟨0x16#8, .v 20, .v 0, .v 0, .none, ⟨true, 6#5⟩, ⟨2#3, 0x410#12, false, 11#4⟩⟩,
    .wrsr ⟨0x10#8, .v 0, .v 35, .v 0, .none, ⟨true, 6#5⟩, ⟨2#3, 0x410#12, false, 11#4⟩⟩,
    .tlbinv ⟨0x3#8, .v 0, .v 34, .v 47, .none, ⟨true, 6#5⟩, ⟨3#3, 0x102#12, true, 7#4⟩⟩,
    .cpy ⟨0x3#8, .v 20, .v 34, .v 47, .imm 0x100#20, ⟨true, 6#5⟩, ⟨3#3, 0x102#12, true, 7#4⟩⟩,
    .nop ⟨0x1#8, .v 0, .v 0, .v 0, .none, ⟨false, 31#5⟩, ⟨5#3, 0x809#12, true, 15#4⟩⟩] : List Instr).all (fun i => !i.wellFormed) = true := by decide +kernel

/-- Kinds that the opcode does not accept (R34, R54). -/
theorem test_illformed_extension : ([.iabs ⟨0x98#8, .v 21, .y0, .v 0, .imm 0x1#20, ⟨true, 6#5⟩, ⟨2#3, 0x410#12, false, 11#4⟩⟩,
    .bra ⟨0x0#8, .v 0, .v 0, .v 0, .none, ⟨false, 31#5⟩, ⟨5#3, 0x809#12, true, 15#4⟩⟩,
    .fadd ⟨0x44#8, .v 20, .v 34, .v 0, .shifted 0x1#20, ⟨true, 6#5⟩, ⟨2#3, 0x410#12, false, 11#4⟩⟩,
    .imad ⟨0x8#8, .v 20, .v 34, .v 46, .none, ⟨true, 6#5⟩, ⟨2#3, 0x410#12, false, 11#4⟩⟩,
    .lea ⟨0x13#8, .v 20, .v 34, .v 47, .reg (.v 1), ⟨true, 6#5⟩, ⟨2#3, 0x410#12, false, 11#4⟩⟩,
    .sel ⟨0x20#8, .v 20, .v 34, .v 46, .imm 0x1#20, ⟨true, 6#5⟩, ⟨2#3, 0x410#12, false, 11#4⟩⟩,
    .ret ⟨0x0#8, .v 0, .o 31, .v 0, .imm 0x1#20, ⟨false, 31#5⟩, ⟨5#3, 0x809#12, true, 15#4⟩⟩] : List Instr).all (fun i => !i.wellFormed) = true := by decide +kernel

/-- Immediates of packed types and control fields out of range (R35, R39). -/
theorem test_illformed_immediate : ([.hadd2 ⟨0x52#8, .v 20, .v 34, .v 0, .imm 0x10000#20, ⟨true, 6#5⟩, ⟨2#3, 0x410#12, false, 11#4⟩⟩,
    .imin ⟨0x90#8, .v 20, .v 34, .v 0, .imm 0x100#20, ⟨true, 6#5⟩, ⟨2#3, 0x410#12, false, 11#4⟩⟩,
    .waitc ⟨0xB#8, .v 0, .v 0, .v 0, .imm 0x40#20, ⟨false, 31#5⟩, ⟨5#3, 0x809#12, true, 15#4⟩⟩,
    .spawn ⟨0x0#8, .v 20, .o 4, .o 5, .imm 0x10#20, ⟨true, 6#5⟩, ⟨3#3, 0x102#12, true, 7#4⟩⟩,
    .sysc ⟨0x0#8, .v 0, .v 0, .v 0, .imm 0x100#20, ⟨true, 6#5⟩, ⟨5#3, 0x809#12, true, 15#4⟩⟩,
    .atom ⟨0x9E#8, .v 20, .v 34, .v 46, .imm 0x5#20, ⟨true, 6#5⟩, ⟨3#3, 0x102#12, true, 7#4⟩⟩,
    .cvt ⟨0x49#8, .v 20, .v 35, .v 0, .imm 0xC001#20, ⟨true, 6#5⟩, ⟨2#3, 0x410#12, false, 11#4⟩⟩,
    .mma ⟨0x34#8, .v 0, .v 0, .v 0, .imm 0xAB001#20, ⟨true, 6#5⟩, ⟨3#3, 0x102#12, true, 7#4⟩⟩,
    .accst ⟨0x20#8, .v 0, .v 35, .v 47, .imm 0x44001#20, ⟨true, 6#5⟩, ⟨3#3, 0x102#12, true, 7#4⟩⟩] : List Instr).all (fun i => !i.wellFormed) = true := by decide +kernel

/-- An odd register for a pair, a quad not on four (R135, R215). -/
theorem test_illformed_pair_register : ([.iadd64 ⟨0x28#8, .v 21, .v 34, .v 46, .none, ⟨true, 6#5⟩, ⟨2#3, 0x410#12, false, 11#4⟩⟩,
    .ld ⟨0x6C#8, .v 20, .v 35, .v 0, .imm 0xFFFF0#20, ⟨true, 6#5⟩, ⟨3#3, 0x102#12, true, 7#4⟩⟩,
    .cpy ⟨0x6#8, .v 22, .v 34, .v 47, .imm 0x100#20, ⟨true, 6#5⟩, ⟨3#3, 0x102#12, true, 7#4⟩⟩,
    .ldr ⟨0x80#8, .v 22, .v 35, .v 0, .imm 0x10#20, ⟨true, 6#5⟩, ⟨3#3, 0x102#12, true, 7#4⟩⟩,
    .lea ⟨0x13#8, .v 20, .o 3, .v 47, .imm 0x40#20, ⟨true, 6#5⟩, ⟨2#3, 0x410#12, false, 11#4⟩⟩] : List Instr).all (fun i => !i.wellFormed) = true := by decide +kernel

/-- A run that leaves its file, or none at all (R286). -/
theorem test_illformed_run_of_registers : ([.accld ⟨0x20#8, .v 766, .v 0, .v 0, .imm 0x7D#20, ⟨true, 6#5⟩, ⟨3#3, 0x102#12, true, 7#4⟩⟩,
    .accadd ⟨0x20#8, .v 0, .o 1, .v 0, .imm 0x400#20, ⟨true, 6#5⟩, ⟨3#3, 0x102#12, true, 7#4⟩⟩,
    .accld ⟨0x20#8, .v 20, .v 0, .v 0, .imm 0x1D#20, ⟨true, 6#5⟩, ⟨3#3, 0x102#12, true, 7#4⟩⟩,
    .accld ⟨0x20#8, .v 20, .v 0, .v 0, .imm 0x9D#20, ⟨true, 6#5⟩, ⟨3#3, 0x102#12, true, 7#4⟩⟩] : List Instr).all (fun i => !i.wellFormed) = true := by decide +kernel

/-- Y0 and y1 as destinations and as pairs (R32). -/
theorem test_illformed_queue_destination : ([.iadd ⟨0x8#8, .y0, .v 34, .v 46, .none, ⟨true, 6#5⟩, ⟨2#3, 0x410#12, false, 11#4⟩⟩,
    .mov ⟨0x10#8, .y1, .v 0, .v 0, .shifted 0xABCDE#20, ⟨true, 6#5⟩, ⟨2#3, 0x410#12, false, 11#4⟩⟩,
    .ld ⟨0x6C#8, .v 20, .y0, .v 0, .imm 0xFFFF0#20, ⟨true, 6#5⟩, ⟨3#3, 0x102#12, true, 7#4⟩⟩] : List Instr).all (fun i => !i.wellFormed) = true := by decide +kernel

/-- A field that the instruction does not use (R29). -/
theorem test_illformed_unused_field : ([.nop ⟨0x0#8, .v 0, .v 1, .v 0, .none, ⟨false, 31#5⟩, ⟨5#3, 0x809#12, true, 15#4⟩⟩,
    .iabs ⟨0x98#8, .v 21, .y0, .v 1, .none, ⟨true, 6#5⟩, ⟨2#3, 0x410#12, false, 11#4⟩⟩,
    .mov ⟨0x10#8, .v 21, .v 1, .v 0, .shifted 0xABCDE#20, ⟨true, 6#5⟩, ⟨2#3, 0x410#12, false, 11#4⟩⟩,
    .st ⟨0x8C#8, .v 1, .v 34, .v 48, .imm 0x40#20, ⟨true, 6#5⟩, ⟨3#3, 0x102#12, true, 7#4⟩⟩,
    .iadd ⟨0x8#8, .v 20, .v 34, .v 46, .imm 0x3#20, ⟨true, 6#5⟩, ⟨2#3, 0x410#12, false, 11#4⟩⟩,
    .ret ⟨0x0#8, .zero, .o 31, .v 0, .none, ⟨false, 31#5⟩, ⟨5#3, 0x809#12, true, 15#4⟩⟩,
    .fence ⟨0x98#8, .v 0, .v 0, .o 0, .none, ⟨true, 6#5⟩, ⟨3#3, 0x102#12, true, 7#4⟩⟩] : List Instr).all (fun i => !i.wellFormed) = true := by decide +kernel

/-- A negated always, and a guard where the opcode takes none (R40, R111). -/
theorem test_illformed_guard : ([.iadd ⟨0x8#8, .v 20, .v 34, .v 46, .none, ⟨true, 31#5⟩, ⟨2#3, 0x410#12, false, 11#4⟩⟩,
    .nop ⟨0x0#8, .v 0, .v 0, .v 0, .none, ⟨true, 6#5⟩, ⟨5#3, 0x809#12, true, 15#4⟩⟩,
    .bra ⟨0x0#8, .v 0, .v 0, .v 0, .rel 0xFFFFD#20, ⟨false, 13#5⟩, ⟨5#3, 0x809#12, true, 15#4⟩⟩,
    .waitc ⟨0xB#8, .v 0, .v 0, .v 0, .imm 0x3F#20, ⟨true, 6#5⟩, ⟨5#3, 0x809#12, true, 15#4⟩⟩,
    .call ⟨0x0#8, .v 20, .v 0, .v 0, .rel 0xFFFBA#20, ⟨true, 6#5⟩, ⟨2#3, 0x410#12, false, 11#4⟩⟩] : List Instr).all (fun i => !i.wellFormed) = true := by decide +kernel

/-- No signal where one is due, one where none may be, and 12 to 14 (R41, R106). -/
theorem test_illformed_signal : ([.ld ⟨0x6C#8, .v 20, .v 34, .v 0, .imm 0xFFFF0#20, ⟨true, 6#5⟩, ⟨5#3, 0x809#12, true, 15#4⟩⟩,
    .rcp ⟨0x40#8, .v 21, .v 35, .v 0, .none, ⟨true, 6#5⟩, ⟨5#3, 0x809#12, true, 15#4⟩⟩,
    .nop ⟨0x0#8, .v 0, .v 0, .v 0, .none, ⟨false, 31#5⟩, ⟨2#3, 0x410#12, false, 11#4⟩⟩,
    .trap ⟨0x0#8, .v 0, .v 0, .v 0, .imm 0x12345#20, ⟨true, 6#5⟩, ⟨3#3, 0x102#12, true, 7#4⟩⟩,
    .iadd ⟨0x8#8, .v 20, .v 34, .v 46, .none, ⟨true, 6#5⟩, ⟨0#3, 0x0#12, false, 12#4⟩⟩,
    .ld ⟨0x6C#8, .v 20, .v 34, .v 0, .imm 0xFFFF0#20, ⟨true, 6#5⟩, ⟨0#3, 0x0#12, false, 14#4⟩⟩] : List Instr).all (fun i => !i.wellFormed) = true := by decide +kernel

/-- The cases of R52: both codes 0, a reserved code, destinations in one bank, four distinct sources, a signal, a negated always, and a field of a code
that does not use it. -/
theorem test_illformed_pair : ([.pair ⟨0#5, 0#8, 0#8, 0#8, 0#5, 0#8, 0#8, 0#8, ⟨false, 31#5⟩, ⟨0#3, 0#12, false, 15#4⟩⟩,
    .pair ⟨14#5, 8#8, 9#8, 10#8, 1#5, 13#8, 14#8, 9#8, ⟨false, 31#5⟩, ⟨0#3, 0#12, false, 15#4⟩⟩,
    .pair ⟨3#5, 8#8, 9#8, 10#8, 17#5, 13#8, 14#8, 9#8, ⟨false, 31#5⟩, ⟨0#3, 0#12, false, 15#4⟩⟩,
    .pair ⟨3#5, 8#8, 9#8, 10#8, 1#5, 12#8, 14#8, 9#8, ⟨false, 31#5⟩, ⟨0#3, 0#12, false, 15#4⟩⟩,
    .pair ⟨3#5, 8#8, 9#8, 10#8, 1#5, 13#8, 14#8, 15#8, ⟨false, 31#5⟩, ⟨0#3, 0#12, false, 15#4⟩⟩,
    .pair ⟨3#5, 8#8, 9#8, 10#8, 1#5, 13#8, 14#8, 9#8, ⟨false, 31#5⟩, ⟨0#3, 0#12, false, 3#4⟩⟩,
    .pair ⟨3#5, 8#8, 9#8, 10#8, 1#5, 13#8, 14#8, 9#8, ⟨true, 31#5⟩, ⟨0#3, 0#12, false, 15#4⟩⟩,
    .pair ⟨13#5, 8#8, 9#8, 10#8, 0#5, 0#8, 0#8, 0#8, ⟨false, 31#5⟩, ⟨0#3, 0#12, false, 15#4⟩⟩,
    .pair ⟨3#5, 8#8, 9#8, 10#8, 0#5, 13#8, 0#8, 0#8, ⟨false, 31#5⟩, ⟨0#3, 0#12, false, 15#4⟩⟩] : List Instr).all (fun i => !i.wellFormed) = true := by decide +kernel

/-- Generator words: a SUB, an extension, an unused g-field, an odd register of a pair, and immediates out of range (R30, R49, R67). -/
theorem test_illformed_generator : ([.galu ⟨0x10#8, 1#6, 2#6, 3#6, .none⟩,
    .galu ⟨0x0#8, 1#6, 2#6, 3#6, .imm 0x1#20⟩,
    .galu ⟨0x0#8, 1#6, 2#6, 0#6, .rel 0x1#20⟩,
    .gmovi ⟨0x4#8, 1#6, 0#6, 0#6, .imm 0x1#20⟩,
    .gmovi ⟨0x3#8, 1#6, 0#6, 0#6, .imm 0x10#20⟩,
    .gld ⟨0x8#8, 1#6, 2#6, 0#6, .none⟩,
    .gld ⟨0x0#8, 1#6, 2#6, 3#6, .none⟩,
    .gst ⟨0x4#8, 0#6, 1#6, 2#6, .none⟩,
    .gbr ⟨0x6#8, 0#6, 1#6, 2#6, .rel 0x1#20⟩,
    .gjmp ⟨0x0#8, 1#6, 0#6, 0#6, .rel 0x1#20⟩,
    .gemit ⟨0x0#8, 0#6, 0#6, 15#6, .none⟩,
    .gemitt ⟨0x0#8, 0#6, 1#6, 15#6, .none⟩,
    .gexit ⟨0x0#8, 0#6, 0#6, 0#6, .imm 0x1#20⟩,
    .gacq ⟨0x2#8, 0#6, 1#6, 0#6, .none⟩,
    .grdsr ⟨0x16#8, 1#6, 0#6, 0#6, .none⟩,
    .gatom ⟨0xA8#8, 1#6, 2#6, 3#6, .none⟩,
    .gfence ⟨0x40#8, 0#6, 0#6, 0#6, .none⟩] : List Instr).all (fun i => !i.wellFormed) = true := by decide +kernel

end Sys2Proof.Tests
end

