-- ==== Sys2Proof/Tests/SystemWords.lean ====
section
/-!
SUPPORT. Tests: the system class of a group: states that meet the hypotheses of its statements, and what one step then does.
-/

-- The witnesses are long kernel evaluations: one after another they need one thread.
set_option Elab.async false

namespace Sys2Proof.Tests

open Sys2Proof Sys2Proof.Machine
open Host (Outcome)

/-! ### System calls -/

/-- The group with handler 5 of its core at word 0 of block 5, a sealed block like its own that is supervisor or not. -/
def withHandler (valid sup there : Bool) (s : State := gs) : State :=
  s.modCore 0 fun k =>
    let b : List Block := k.blocks.vals
    { k with sysvec := k.sysvec.set 5 ⟨valid, (k.handleOf 5).setWidth 24⟩
             blocks := if there then b.foldl (fun (m : SMap Block) (x : Block) => m.set 5 { x with sup := sup }) k.blocks else k.blocks }

/-- A fibre in supervisor mode. -/
def inSup (f : Fibre) : Fibre := { f with gst := f.gst ||| 0x8000#32 }
/-- A fibre in user mode. -/
def inUser (f : Fibre) : Fibre := { f with gst := 0#32 }
/-- A fibre with an operation that its counters still count. -/
def counting (f : Fibre) : Fibre := { f with outstanding := [⟨0, 3, false, 0#32⟩] }
/-- A fibre in a system call by handler 5, with lanes left, that was made at word 1 of its block with all lanes and in a mode. -/
def inCall (rest : Mask) (off : Nat) (mode : Bool) (f : Fibre) : Fibre :=
  { inSup f with sysc := some ⟨f.handle, off, 0xFFFF_FFFF#32, mode, 5, rest⟩, exm := 1#32, off := 9 }

/-- The group stands at its next word, as it was. -/
def passed (t : State) : Bool := viewOr t fun v => v.fib.off == 1 && !v.fib.frozen && v.fib.outstanding.isEmpty && v.fib.results.isEmpty

/-- SYSC, RETS, TRAP and BRK. -/
theorem met_systemCalls :
    (let c := fld 0 (.v 0) (.v 0) (.v 0) (.imm 5#20)
     let no := { c with guard := ⟨false, 30#5⟩ }
     let sysc := Instr.sysc c
     let f0 := fld 0 (.v 0) (.v 0) (.v 0)
     let rets := Instr.rets f0
     let ok := withHandler true true true
     let w (u : Fibre → Fibre) : State := ok.modFibre g0 u
     let user := w inUser
     let at5 (t : State) (p : Fibre → Bool) : Bool := viewOr t fun v => v.fib.handle == v.core.handleOf 5 && v.fib.off == 0 && v.fib.earliest == v.core.clock + 3 && v.fib.sup && p v.fib
     let good (s : State) : Bool := match (s.core 0).current ((s.core 0).handleOf 5) with
      | some b => b.st == .sealed && b.sup && decide (0 < b.len)
      | none => false
     let traps : List (Instr × Fields × List Src) :=
      let r := fld 0 (.v 0) (.v 6) (.v 0)
      [(.trap c, c, []), (.brk c, c, []), (.trapReg r, r, regSrcs r.a [.tag tagN32]), (.brkReg r, r, regSrcs r.a [.tag tagN32])]
     let trapsOff : List (Instr × Fields × List Src) :=
      let r := { fld 0 (.v 0) (.v 6) (.v 0) with guard := ⟨false, 30#5⟩ }
      [(.trap no, no, []), (.brk no, no, []), (.trapReg r, r, regSrcs r.a [.tag tagN32]), (.brkReg r, r, regSrcs r.a [.tag tagN32])]
     let s6 := regs gs [(6, tagN32, 0x77#32)]
     met [(w counting, sysc, c, [], fun v _ _ => !v.fib.outstanding.isEmpty), (ok, .sysc no, no, [], fun v _ _ => v.active no.guard == 0#32),
        (w (inCall 2#32 1 false), sysc, c, [], fun v _ _ => v.fib.sysc.isSome && v.fib.outstanding.isEmpty), (withHandler false true true, sysc, c, [], free),
        (withHandler true true false, sysc, c, [], free), (withHandler true false true, sysc, c, [], free), (ok, sysc, c, [], fun v _ _ => v.active c.guard != 0#32 && v.fib.sysc.isNone),
        (w inSup, rets, f0, [], fun v _ _ => v.fib.sup && v.fib.sysc.isNone), (w fun f => counting (inCall 2#32 1 false f), rets, f0, [], free),
        (w (inCall 2#32 1 false), rets, f0, [], free), (w (inCall 0#32 0 true), rets, f0, [], free)]
      && good ok && user.curView.any (fun v => !v.fib.sup) && stays sysc (w counting) && goes (.sysc no) ok passed && goes sysc (w (inCall 2#32 1 false)) (faults · [0x05#8])
      && goes sysc (withHandler false true true) (faults · [0x05#8]) && goes sysc (withHandler true true false) (faults · [0x04#8])
      && goes sysc (withHandler true false true) (faults · [0x05#8])
      && goes sysc ok (fun t => at5 t fun f => f.exm == 1#32 && f.sysc.map (fun x => (x.retOff, x.exm, x.mode, x.n, x.rest)) == some (1, 0xFFFF_FFFF#32, true, 5, 0xFFFF_FFFE#32))
      && goes rets user (faults · [0x01#8]) && goes rets (w inSup) (faults · [0x05#8]) && stays rets (w fun f => counting (inCall 2#32 1 false f))
      && goes rets (w (inCall 2#32 1 false)) (fun t => at5 t fun f => f.exm == 2#32 && f.sysc.map (·.rest) == some 0#32)
      && goes rets (w (inCall 0#32 0 true)) (fun t => viewOr t fun v => v.fib.off == 0 && v.fib.exm == 0xFFFF_FFFF#32 && v.fib.sup && v.fib.sysc.isNone)
      && met (traps.map fun x => (s6, x.1, x.2.1, x.2.2, fun v _ _ => v.active x.2.1.guard != 0#32))
      && met (trapsOff.map fun x => (s6, x.1, x.2.1, x.2.2, fun v _ _ => v.active x.2.1.guard == 0#32))
      && (traps.map fun x => goes x.1 s6 fun t => viewOr t (fun v => v.fib.off == 1 && v.fib.frozen)
            && (t.slice 0).fault.live.map (fun r => (r.cause, r.full.detail)) == [([0x60#8, 0x61#8, 0x60#8, 0x61#8].getD (traps.findIdx fun y => y.1 == x.1) 0#8, if x.2.2.isEmpty then 5#64 else 0x77#64)])
          == [true, true, true, true]
      && trapsOff.all (fun x => goes x.1 s6 passed)) = true := by decide +kernel

/-- PSAVE. -/
theorem met_psave :
    (let f := fld 0 (.v 0) (.v 0) (.v 0) (.imm 3#20)
     let asked := gs.modTeam 0 0 fun t => { t with preq := true }
     met [(gs.modFibre g0 counting, .psave f, f, [], free), (asked, .psave f, f, [], free), (gs, .psave f, f, [], fun v _ _ => v.fib.outstanding.isEmpty)]
      && stays (.psave f) (gs.modFibre g0 counting) && goes (.psave f) asked (fun t => passed t && viewOr t fun v => v.fib.parked == some 3#4)
      && goes (.psave f) gs (fun t => passed t && viewOr t fun v => v.fib.parked.isNone)) = true := by decide +kernel

/-! ### Special registers and operations of the leader lane -/

/-- RDSR of every register, and WRSR of each that it may write, in both modes and with no active lane. -/
theorem met_specialRegisters :
    (let r (n : Byte) := fld n (.v 8) (.v 0) (.v 0)
     let w (n : Byte) := fldS n (.v 0) (.v 6) (.v 0)
     let wx (n : Byte) := fld n (.v 0) (.v 0) (.v 0) (.imm 0xFF#20)
     let off (n : Byte) := { wx n with guard := ⟨false, 30#5⟩ }
     let s6 := regs gs [(6, tagN32, 0x8102#32)]
     let user := s6.modFibre g0 inUser
     let numbers : List Byte := (List.range 0x16).map (BitVec.ofNat 8)
     let reads (s : State) (n : Byte) (t : Tag) (x : Word) : Bool :=
      goes (.rdsr (r n)) s fun u => viewOr u fun v => v.fib.results.map (fun p => (p.due, p.writes.head?.map fun y => (y.place, y.value.tag, lane y.value.lanes 5)))
        == [((s.core 0).clock + 3, some (.bank 8, t, x))]
     met (numbers.map fun n => (gs, .rdsr (r n), r n, [], free))
      && met ([0x11#8, 0x15#8].map fun n => (user, .wrsr (w n), w n, regSrcs (w n).a [.tag tagN32], fun v _ _ => v.active (w n).guard != 0#32))
      && met ([0x11#8, 0x15#8].map fun n => (user, .wrsr (off n), off n, xWords .n32 (off n).ext, fun v _ _ => v.active (off n).guard == 0#32))
      && met ([0x11#8, 0x12#8, 0x15#8].map fun n => (s6, .wrsr (wx n), wx n, xWords .n32 (wx n).ext, fun v _ _ => v.fib.sup))
      && reads gs 0x00#8 tagN32 5#32 && reads (gsF fun f => { f with grp := 9 }) 0x01#8 tagN32 9#32 && reads gs 0x10#8 tagN32 0xFFFF_FFFF#32 && reads s6 0x11#8 tagN32 0x8000#32
      && reads gs 0x15#8 tagN32 6#32 && reads gs 0x0D#8 tagN32 1#32 && reads (gs.modSlice 0 fun x => { x with cyc := 0x5_0000_0007#64 }) 0x13#8 tagI64L 7#32
      && goes (.wrsr (w 0x11#8)) user (fun t => viewOr t fun v => v.fib.gst == 0x102#32 && v.fib.results.length == 1 && v.fib.counter 3 == 1)
      && goes (.wrsr (w 0x11#8)) s6 (fun t => viewOr t fun v => v.fib.gst == 0x8102#32) && goes (.wrsr (wx 0x11#8)) s6 (fun t => viewOr t fun v => v.fib.gst == 0x3F#32)
      && goes (.wrsr (wx 0x12#8)) s6 (fun t => (t.team? 0 0).bind Team.preqNext == some true) && goes (.wrsr (off 0x11#8)) user (fun t => passed t && viewOr t fun v => v.fib.gst == 0#32)
      && goes (.wrsr (wx 0x15#8)) s6 (fun t => viewOr t fun v => lane v.fib.srseed 4 == 0xFF#32)
      && goes (.wrsr (wx 0x12#8)) user (faults · [0x01#8])) = true := by decide +kernel

/-- INTR, TLBINV, CTXSAVE and CTXLOAD at issue, in user mode, with no active lane and with one, and what they complete with. -/
theorem met_leaderOperations :
    (let f (sub : Byte) := fldS sub (.v 8) (.v 4) (.v 6)
     let off (sub : Byte) := fldG sub (.v 8) (.v 4) (.v 6)
     let n32 := [Expect.tag tagN32]
     let intr (f : Fields) : Fields := { f with a := .v 7 }
     let words (g : Byte → Fields) : List (Instr × Fields × List Src) :=
      [(.intr (intr (g 0)), intr (g 0), regSrcs (intr (g 0)).a n32 ++ regSrcs (g 0).b n32), (.tlbinv (g 1), g 1, pairSrcs (g 1).a ++ regSrcs (g 1).b n32),
       (.tlbinv (g 2), g 2, regSrcs (g 2).b n32), (.ctxload (g 0), g 0, pairSrcs (g 0).a), (.ctxsave (g 0), g 0, pairSrcs (g 0).a ++ regSrcs (g 0).b n32)]
     let sup := regs (mapped gs) [(4, tagA64L, 0x8000#32), (5, tagA64H, 0#32), (6, tagN32, 0#32), (7, tagN32, 0x0000_0001#32)]
     let s := sup.modFibre g0 inUser
     let twin (sv : Option Saving) (s : State) : State := match s.team? 0 0 with
      | some t => s.modCore 0 fun k => { k with teams := k.teams.set 1 { t with saving := sv } }
      | none => s
     let save (n : Word) (s : State) : State := regs s [(6, tagN32, n)]
     let stage (t : State) (a b : Nat) : Bool := viewOr t fun v => v.fib.ops.map (fun o => (o.stage, o.value)) == [(a, b)]
     met ((words f).map fun c => (sup, c.1, c.2.1, c.2.2, fun v _ _ => v.fib.sup && v.active c.2.1.guard != 0#32))
      && met ((words off).map fun c => (sup, c.1, c.2.1, c.2.2, fun v _ _ => v.fib.sup && v.active c.2.1.guard == 0#32))
      && s.curView.any (fun v => !v.fib.sup) && (words f).all (fun c => goes c.1 s (faults · [0x01#8]))
      && (words f).all (fun c => goes c.1 sup fun t => viewOr t fun v => v.fib.ops.length == 1 && v.fib.counter 3 == 1 && v.fib.off == 1)
      && (words off).all (fun c => goes c.1 sup fun t => viewOr t fun v => v.fib.ops.isEmpty && v.fib.counter 3 == 0 && v.fib.off == 1)
      && goes (.ctxsave (f 0)) sup (stage · 2 2) && goes (.ctxsave (f 0)) (save 1#32 sup) (stage · 2 1)
      && goes (.ctxsave (f 0)) (twin none (save 1#32 sup)) (fun t => stage t 0 0 && ((t.team? 0 1).bind Team.saving).map (fun w => (w.forced, w.addr, w.byGroup)) == some (true, 0x8000, some (g0, 1)))) = true := by decide +kernel

/-- Their completions. -/
theorem met_leaderCompletions :
    (let f (sub : Byte) := fldS sub (.v 8) (.v 4) (.v 6)
     let does (o : Op) (p : State → Bool) := viewOr (flying o) (fun v => v.fib.op? o.id == some o && o.held == 0#32 && !v.fib.aborting)
        && goes (.systemOpComplete g0 0) (flying o) fun t => finished (flying o) t 0 && p t
     let other (s : State) : State := s.modFibre g0 fun b => { b with ops := { opOf (.fence (f 0x08)) 0#64 [] [] with pending := 1#32 } :: b.ops.map (fun (o : Op) => { o with id := 1 }), outstanding := [⟨0, 3, false, 0#32⟩, ⟨1, 3, false, 0#32⟩] }
     let intr (sel id : Word) := opOf (.intr (f 0)) 0#64 [lanesAll sel, lanesAll id] []
     let inv (k : Byte) (b : List Lanes) := opOf (.tlbinv (f k)) 0#64 b []
     let gone (t : State) : Bool := (t.core 0).tlb.isEmpty && ((t.core 0).sub 0).tlb.isEmpty
     let status (st v : Nat) : Op := { opOf (.ctxsave (f 0)) 0x8000#64 [] [.bank 8] with stage := st, value := v }
     let load := opOf (.ctxload (f 0)) 0x8000#64 [] [.bank 8]
     let ready (v : View) : Bool := match (flying load).checkPieces v load true false (rangePieces 0x8000 256) with
      | .ready l => l.all (fun p => ((flying load).violation v.team.part p.1).isNone) && (parseImage ((flying load).readPieces v.team.part l)).isNone
      | _ => false
     (State.reset.slice 0).part.isNone && (base.slice 0).part == some 0
      && !(flying (intr 0#32 1#32)).cacheStuck 0 && viewOr (flying (intr 0#32 1#32)) (fun v => (flying (intr 0#32 1#32)).cacheTurn v (intr 0#32 1#32))
      && does (intr 0x0302#32 2047#32) (fun t => ((t.hartOf ⟨0, 2⟩).files.find 4).map (·.pending) == some [2047])
      && does (intr 0x0000#32 1#32) (fun t => ((t.hartOf ⟨0, 0⟩).files.find 1).map (·.pending) == some [1])
      && (other (flying (intr 0#32 1#32))).curView.any (fun v => v.fib.earlier 1)
      && goes (.systemOpComplete g0 1) (other (flying (intr 0#32 1#32))) (fun t => viewOr t fun v => v.fib.ops.length == 2)
      && does (inv 0 [lanesAll 0#32]) gone && does (inv 1 [lanesAll 0x1000#32, lanesAll 0#32, lanesAll 0#32]) gone && does (inv 2 [lanesAll 0#32]) gone
      && does (inv 2 [lanesAll 3#32]) (fun t => (t.core 0).tlb == [tlbAll])
      && does (status 2 1) (fun t => bankIs t 8 (lane0 tagN32 1#32)) && goes (.systemOpComplete g0 0) (flying (status 0 0)) (fun t => viewOr t fun v => v.fib.ops.length == 1)
      && viewOr (flying load) ready
      && does load (fun t => bankIs t 8 (lane0 tagN32 3#32))) = true := by decide +kernel

end Sys2Proof.Tests
end

section
/-!
The relative transfers of group control (O14): how the word of a group issues, how a relative target is resolved (R38, R113), and
BRA, BRC, CALL to a label and LOOP on top of the two (R114, R116, R117).
-/

namespace Sys2Proof.Machine

open Host (Outcome)

/-! ### A word issues -/

@[simp] theorem State.clock_modFibre (s : State) (g : GroupRef) (f : Fibre → Fibre) (c : Nat) :
    ((s.modFibre g f).core c).clock = (s.core c).clock := by
  unfold State.modFibre State.modSlot State.modSub
  rw [State.core_modCore]
  split
  · next h => rw [h]; rfl
  · rfl

/-- The fibre of an issued word moves to the next word and records the clock (R105). -/
theorem State.fibre?_issue (s : State) (g : GroupRef) (i : Instr) :
    (s.issue g i).fibre? g = (s.fibre? g).map fun f => { f with off := f.off + 1, lastIssue := some (s.core g.core).clock } := by
  simp only [State.issue, State.issued]
  rw [State.fibre?_modCore_of, State.fibre?_modFibre_self, State.fibre?_modSlot_of]
  all_goals exact fun _ => rfl

/-- The acting group's fibre and core, as its view holds them. -/
theorem State.acting_of_curView {s : State} {v : View} (h : s.curView = some v) :
    s.fibre? v.g = some v.fib ∧ (s.core v.g.core).clock = v.core.clock := by
  obtain ⟨-, hcore, -, -, hfib, -⟩ := State.view_eq_some (State.curView_eq_some h).2
  exact ⟨hfib, by rw [hcore]⟩

/-- A word whose window check and typed reads pass is given its view, its guarded active set and what it read. -/
theorem Reads.withSources {s : State} {v : View} {i : Instr} {f : Fields} {srcs : List Src} {ls : List Lanes} {fl : Word}
    (h : Reads s v i f srcs ls fl) (k : View → Mask → List Lanes → Word → Outcome State Fault Refusal) :
    s.withSources i f srcs k = k v (v.active f.guard) ls fl := by
  obtain ⟨hview, hwindows, hsrcs⟩ := h
  simp [State.withSources, hview, hwindows, hsrcs]

/-- A word that issues with only the flags of its reads goes on at the next word. -/
theorem State.issueFlags_nextWord {s : State} {v : View} (h : s.curView = some v) (i : Instr) (fl : Word) :
    ∃ g, NextWord (s.issueFlags v i fl) v g fl := by
  obtain ⟨hfib, hclock⟩ := State.acting_of_curView h
  refine ⟨_, ⟨by rw [State.issueFlags, State.issueWith, State.fibre?_modFibre_self, State.fibre?_issue, hfib]; rfl, ?_⟩, ?_⟩
  · simp [hclock]
  · simp

/-- The same of the mask, the results in flight and the counters. -/
theorem State.issueFlags_kept {s : State} {v : View} (h : s.curView = some v) (i : Instr) (fl : Word) :
    ∃ g, Moved (s.issueFlags v i fl) v g v.fib.handle (v.fib.off + 1) v.fib.earliest
      ∧ g.exm = v.fib.exm ∧ g.results = v.fib.results ∧ g.outstanding = v.fib.outstanding := by
  obtain ⟨g, hmoved, hexm, -, hcounters, hresults, -⟩ := State.issueFlags_nextWord h i fl
  exact ⟨g, hmoved, hexm, hresults, hcounters⟩

/-- A new result leaves everything of a fibre but its results, its counters and the number of its next operation; it is the last of its
results. -/
theorem Fibre.addResult_eq (f : Fibre) (now latency : Nat) (ws : List RegWrite) (ys : List (Mask × Reg)) (flags : Word)
    (signal : Option Nat) :
    ∃ os n id, f.addResult now latency ws ys flags signal = { f with
      outstanding := os, nextId := n
      results := f.results
        ++ [⟨now, max (now + latency - 1) ((f.results.getLast?.map Pending.due).getD 0), ws, ys, flags, id⟩] } := by
  cases signal with
  | none => exact ⟨f.outstanding, f.nextId, none, rfl⟩
  | some k => exact ⟨(f.raise k).outstanding, (f.raise k).nextId, some f.nextId, rfl⟩

/-- A word that issues with one fixed-latency result goes on at the next word, its mask unchanged, with the result in flight. -/
theorem State.commitFixed_brings {s : State} {v : View} (h : s.curView = some v) (i : Instr) (signal : Option Nat) (latency : Nat)
    (d : Operand) (m : Mask) (r : Reg) (fl : Word) :
    ∃ g, Moved (s.commitFixed v i signal latency ⟨[(d, m, r)], fl⟩) v g v.fib.handle (v.fib.off + 1) v.fib.earliest
      ∧ g.exm = v.fib.exm ∧ Brings v g latency d m r fl := by
  obtain ⟨hfib, hclock⟩ := State.acting_of_curView h
  obtain ⟨os, n, id, hadd⟩ := v.fib.addResult_eq v.core.clock latency [⟨v.place d, m, r⟩] [(m, r)] fl signal
  refine ⟨_, ⟨by
    rw [State.commitFixed, State.commitYs, State.fibre?_issue, State.fibre?_modFibre_self, hfib]
    simp only [List.map, Option.map_some, hadd]
    rfl, ?_⟩, ?_⟩
  · simp [hclock]
  · exact ⟨rfl, _, rfl, rfl, rfl, rfl, rfl, rfl⟩

/-! ### A relative target -/

/-- The word index that a relative offset names from the group's word (R38). -/
def View.relIndex (v : View) (x : BitVec 20) : Int := (v.fib.off : Int) + x.toInt

/-- Moving the program counter of an issued word keeps the rest of what it left. -/
theorem Moved.jump {t : State} {v : View} {f : Fibre} {h : BitVec 12} {off earliest : Nat} (m : Moved t v f h off earliest)
    (h' : BitVec 12) (off' clock : Nat) :
    Moved (t.modFibre v.g fun b => b.jump h' off' clock) v (f.jump h' off' clock) h' off' clock := by
  obtain ⟨hfib, -, -, -, hkept⟩ := m
  exact ⟨by rw [State.fibre?_modFibre_self, hfib]; rfl, rfl, rfl, rfl, hkept⟩

section
variable {s : State} {v : View} {b : Block} {x : BitVec 20} {i : Instr} {own : State → State}

/-- A relative target inside the sealed length is reached behind a bubble of 2 clocks (R38, R113). -/
theorem View.relGoal_of_inside (hb : v.core.blocks.find (handleBlock v.fib.handle) = some b)
    (hin : 0 ≤ v.relIndex x ∧ v.relIndex x < b.len) : v.relGoal x = .ok (v.fib.handle, (v.relIndex x).toNat, 2) := by
  unfold View.relIndex at hin ⊢
  simp [View.relGoal, View.relTarget, hb, hin]

/-- A relative target outside the sealed length is stale (R112). -/
theorem View.relGoal_of_outside (hb : v.core.blocks.find (handleBlock v.fib.handle) = some b)
    (hout : ¬ (0 ≤ v.relIndex x ∧ v.relIndex x < b.len)) : v.relGoal x = .error causeStale := by
  unfold View.relIndex at hout
  simp only [View.relGoal, View.relTarget, hb, Option.map_some, Option.getD_some, if_neg hout]

/-- A word that transfers to a target that passes leaves what its own effect leaves, but stands at the target. What is kept of the
fibre (p) is anything that does not speak of the program counter. -/
theorem exec_transfer_of_inside {h : BitVec 12} {off earliest : Nat} {p : Fibre → Prop}
    (hexec : exec i s = .next (s.transfer v i (v.relGoal x) own))
    (hb : v.core.blocks.find (handleBlock v.fib.handle) = some b) (hin : 0 ≤ v.relIndex x ∧ v.relIndex x < b.len)
    (hown : ∃ g, Moved (own s) v g h off earliest ∧ g.exm = v.fib.exm ∧ p g)
    (hp : ∀ g h off clock, p g → p (g.jump h off clock)) :
    ∃ t g, exec i s = .next t ∧ Moved t v g v.fib.handle (v.relIndex x).toNat (v.core.clock + 2) ∧ g.exm = v.fib.exm ∧ p g := by
  obtain ⟨g, hmoved, hexm, hg⟩ := hown
  rw [View.relGoal_of_inside hb hin] at hexec
  exact ⟨_, _, hexec, hmoved.jump .., hexm, hp g _ _ _ hg⟩

/-- A word that transfers to a target that does not pass takes the stale-block fault in the state before it, with the mask for its
lanes (R112). -/
theorem exec_transfer_of_outside (hexec : exec i s = .next (s.transfer v i (v.relGoal x) own))
    (hb : v.core.blocks.find (handleBlock v.fib.handle) = some b) (hout : ¬ (0 ≤ v.relIndex x ∧ v.relIndex x < b.len)) :
    exec i s = .next (s.takeFaultS v (v.faultAt 0x04#8 (opSub i).1 (opSub i).2 v.fib.exm v.leader.val)) := by
  rw [hexec, View.relGoal_of_outside hb hout]
  rfl

end

/-! ### The words -/

/-- The condition of a BRC, by its SUB (R114). -/
theorem brcTaken_iff {sub : BitVec 8} (h : sub.toNat ≤ 2) (exm act : Mask) :
    brcTaken sub exm act = true ↔ (sub = 0#8 ∧ act ≠ 0#32) ∨ (sub = 1#8 ∧ act = exm) ∨ (sub = 2#8 ∧ act = 0#32) := by
  have hsub : sub = 0#8 ∨ sub = 1#8 ∨ sub = 2#8 := by bv_omega
  obtain rfl | rfl | rfl := hsub <;> simp [brcTaken]

theorem relOff_of_rel {f : Fields} {x : BitVec 20} (hx : f.ext = .rel x) : relOff f = x := by rw [relOff, hx]

section
variable {s : State} {v : View} {f : Fields} {x : BitVec 20} {ls : List Lanes} {fl : Word}

theorem exec_bra_of_reads (hx : f.ext = .rel x) (h : Reads s v (.bra f) f [] ls fl) :
    exec (.bra f) s = .next (s.transfer v (.bra f) (v.relGoal x) fun s => s.issueFlags v (.bra f) fl) := by
  change execBra f s = _
  rw [execBra, h.withSources, relOff_of_rel hx]

theorem exec_brc_of_reads_taken (hx : f.ext = .rel x) (h : Reads s v (.brc f) f [] ls fl)
    (ht : brcTaken f.sub v.fib.exm (v.active f.guard) = true) :
    exec (.brc f) s = .next (s.transfer v (.brc f) (v.relGoal x) fun s => s.issueFlags v (.brc f) fl) := by
  change execBrc f s = _
  rw [execBrc, h.withSources, if_pos ht, relOff_of_rel hx]

theorem exec_brc_of_reads_not_taken (h : Reads s v (.brc f) f [] ls fl)
    (ht : ¬ brcTaken f.sub v.fib.exm (v.active f.guard) = true) : exec (.brc f) s = .next (s.issueFlags v (.brc f) fl) := by
  change execBrc f s = _
  rw [execBrc, h.withSources, if_neg ht]

theorem exec_call_of_reads (hx : f.ext = .rel x) (h : Reads s v (.call f) f [] ls fl) :
    exec (.call f) s = .next (s.transfer v (.call f) (v.relGoal x) fun s =>
      s.commitFixed v (.call f) f.signal 4 (outAll f.d tagN32 (codeAddress v.fib.handle (v.fib.off + 1)) fl)) := by
  change execCall f s = _
  rw [execCall, h.withSources, relOff_of_rel hx]

theorem exec_loop_of_reads_nonzero (hx : f.ext = .rel x) (h : Reads s v (.loop f) f [.reg f.d (.tag tagN32)] ls fl)
    (hc : src ls 0 v.leader - 1#32 ≠ 0#32) :
    exec (.loop f) s = .next (s.transfer v (.loop f) (v.relGoal x) fun s =>
      s.commitFixed v (.loop f) f.signal 4 (outAll f.d tagN32 (src ls 0 v.leader - 1#32) fl)) := by
  change execLoop f s = _
  rw [execLoop, h.withSources]
  simp only [if_pos hc, relOff_of_rel hx]

theorem exec_loop_of_reads_zero (h : Reads s v (.loop f) f [.reg f.d (.tag tagN32)] ls fl) (hc : src ls 0 v.leader - 1#32 = 0#32) :
    exec (.loop f) s = .next (s.commitFixed v (.loop f) f.signal 4 (outAll f.d tagN32 0#32 fl)) := by
  change execLoop f s = _
  rw [execLoop, h.withSources]
  simp [hc]

end

end Sys2Proof.Machine

open Sys2Proof Sys2Proof.Machine

/-- Settles O14: BRA, BRC, CALL and LOOP are one transfer each around the word's own effect (the flags of its reads, or one result in
every lane), and the transfer keeps all of that effect but the program counter. -/
theorem relativeTransfers : Obligations.RelativeTransfers := by
  intro s v f x b ls fl hx hb target inside set taken stale goes
  refine ⟨fun h => ?bra, fun h hsub => ?brc, fun h => ?call, fun h => ?loop⟩
  case bra =>
    have hexec := exec_bra_of_reads hx h
    exact ⟨fun hin => exec_transfer_of_inside hexec hb hin (State.issueFlags_kept h.1 ..) fun _ _ _ _ hg => hg,
      exec_transfer_of_outside hexec hb⟩
  case brc =>
    have htaken := brcTaken_iff hsub v.fib.exm set
    refine ⟨fun ht hin => ?_, fun ht hout => ?_, fun ht => ?_⟩
    · exact exec_transfer_of_inside (exec_brc_of_reads_taken hx h (htaken.2 ht)) hb hin (State.issueFlags_kept h.1 ..)
        fun _ _ _ _ hg => hg
    · exact exec_transfer_of_outside (exec_brc_of_reads_taken hx h (htaken.2 ht)) hb hout
    · obtain ⟨g, hg⟩ := State.issueFlags_nextWord h.1 (.brc f) fl
      exact ⟨_, g, exec_brc_of_reads_not_taken h (mt htaken.1 ht), hg⟩
  case call =>
    have hexec := exec_call_of_reads hx h
    exact ⟨fun hin => exec_transfer_of_inside hexec hb hin (State.commitFixed_brings h.1 ..) fun _ _ _ _ hg => hg,
      exec_transfer_of_outside hexec hb⟩
  case loop =>
    refine ⟨fun hc hin => ?_, fun hc hout => ?_, fun hc => ?_⟩
    · exact exec_transfer_of_inside (exec_loop_of_reads_nonzero hx h hc) hb hin (State.commitFixed_brings h.1 ..)
        fun _ _ _ _ hg => hg
    · exact exec_transfer_of_outside (exec_loop_of_reads_nonzero hx h hc) hb hout
    · obtain ⟨g, hg⟩ := State.commitFixed_brings h.1 (.loop f) f.signal 4 f.d fullMask ⟨tagN32, lanesAll 0#32⟩ fl
      exact ⟨_, g, exec_loop_of_reads_zero h hc, hg⟩
end

section
/-!
Integer values (O21, O23, O24, O25): what a fixed-latency word over its sources gives, lane by lane (R29, R106); the integers that the
model's readings of bits are (R136, R139); products and sums (R140, R141), shifts (R144), bit fields and counts (R145, R146), and
comparisons and addresses (R147, R149).
-/

namespace Sys2Proof.Machine

/-! ### A fixed-latency word over its sources -/

section
variable {s : State} {v : View} {i : Instr} {f : Fields} {srcs : List Src} {ls : List Lanes} {fl : Word}

/-- One result, lane by lane, of a word whose sources read. -/
theorem execFixed_outLanes_of_reads (h : Reads s v i f srcs ls fl) (n : Nat) (t : Tag) (g : List Lanes → Fin 32 → Word) :
    ∃ r, execFixed i f n srcs (fun _ act ls => outLanes f.d act t (g ls)) s
        = .next (s.commitFixed v i f.signal n ⟨[(f.d, v.active f.guard, ⟨t, r⟩)], fl⟩)
      ∧ ∀ l, lane r l = g ls l := by
  refine ⟨lanesOf (g ls), ?_, fun l => lane_lanesOf ..⟩
  rw [execFixed, h.withSources]
  simp [outLanes]

/-- The two halves of 64 bits, joined. -/
theorem extractLsb'_append_setWidth (x : DWord) : x.extractLsb' 32 32 ++ x.setWidth 32 = x := by
  have hjoin : x.extractLsb' 32 32 ++ x.extractLsb' 0 32 = x.extractLsb' 0 (32 + 32) :=
    BitVec.extractLsb'_append_extractLsb'_eq_extractLsb' rfl
  rw [BitVec.setWidth_eq_extractLsb' (by decide), hjoin, BitVec.extractLsb'_eq_self]

/-- A 64-bit result in a pair, lane by lane, of a word whose sources read. -/
theorem execFixed_outPair_of_reads (h : Reads s v i f srcs ls fl) (n : Nat) (tl th : Tag) (g : List Lanes → Fin 32 → DWord) :
    ∃ lo hi, execFixed i f n srcs (fun _ act ls => outPair f.d act tl th (g ls)) s
        = .next (s.commitFixed v i f.signal n
            ⟨[(f.d, v.active f.guard, ⟨tl, lo⟩), (operandAdd f.d 1, v.active f.guard, ⟨th, hi⟩)], fl⟩)
      ∧ ∀ l, lane hi l ++ lane lo l = g ls l := by
  refine ⟨lanesOf fun l => (g ls l).setWidth 32, lanesOf fun l => (g ls l).extractLsb' 32 32, ?_, fun l => ?_⟩
  · rw [execFixed, h.withSources]
    simp [outPair]
  · rw [lane_lanesOf, lane_lanesOf, extractLsb'_append_setWidth]

/-- The same of a form with a count or control as second source. -/
theorem execCount_of_reads (h : Reads s v i f (countSrcs f) ls fl) (t : Tag) (g : Word → Word → Word) :
    ∃ r, execCount i f t g s = .next (s.commitFixed v i f.signal 4 ⟨[(f.d, v.active f.guard, ⟨t, r⟩)], fl⟩)
      ∧ ∀ l, lane r l = g (src ls 0 l) (src ls 1 l) :=
  execFixed_outLanes_of_reads h 4 t fun ls l => g (src ls 0 l) (src ls 1 l)

/-- The same of a unary form. -/
theorem execUnary_of_reads (h : Reads s v i f (unarySrcs f) ls fl) (t : Tag) (g : Word → Word) :
    ∃ r, execUnary i f t g s = .next (s.commitFixed v i f.signal 4 ⟨[(f.d, v.active f.guard, ⟨t, r⟩)], fl⟩)
      ∧ ∀ l, lane r l = g (src ls 0 l) :=
  execFixed_outLanes_of_reads h 4 t fun ls l => g (src ls 0 l)

end

/-! ### The integers that bits are (R136, R139) -/

/-- The model's reading of the low w bits of a number is the integer that those bits are. -/
theorem toInt_eq_elementValue {w : Nat} (hw : 0 < w) (signed : Bool) (n : Nat) :
    toInt w signed n = elementValue signed (BitVec.ofNat w n) := by
  cases signed with
  | false => simp [toInt, elementValue]
  | true =>
    have hpow : 2 ^ w = 2 * 2 ^ (w - 1) := (mul_pow_sub_one hw.ne' 2).symm
    have hhalf : 2 ^ (w - 1) ≤ n % 2 ^ w ↔ ¬ 2 * (n % 2 ^ w) < 2 ^ w := by omega
    simp only [toInt, elementValue, BitVec.toInt_eq_toNat_cond, BitVec.toNat_ofNat, Bool.true_and, decide_eq_true_eq, hhalf,
      if_true, ite_not]
    push_cast
    rfl

/-- The same of all the bits of a word. -/
theorem toInt_toNat {w : Nat} (hw : 0 < w) (signed : Bool) (x : BitVec w) : toInt w signed x.toNat = elementValue signed x := by
  rw [toInt_eq_elementValue hw, BitVec.ofNat_toNat, BitVec.setWidth_eq]

/-- The same of the w bits of a word from place p. -/
theorem toInt_toNat_div {w : Nat} (hw : 0 < w) (signed : Bool) (x : Word) (p : Nat) :
    toInt w signed (x.toNat / 2 ^ p) = elementValue signed (x.extractLsb' p w) := by
  rw [toInt_eq_elementValue hw, ← Nat.shiftRight_eq_div_pow, BitVec.extractLsb']

/-- An exact result narrowed to w bits is that result delivered (R139). -/
theorem ofNat_narrow (w : Nat) (signed sat : Bool) (t : Int) :
    BitVec.ofNat w (narrow w signed sat t) = delivered w signed sat t := by
  have hle : intMin w signed ≤ intMax w signed := by
    have hhalf : (0 : Int) < 2 ^ (w - 1) := by positivity
    have hfull : (0 : Int) < 2 ^ w := by positivity
    cases signed <;> simp only [intMin, intMax, if_true] <;> omega
  have hclamp : clampInt (intMin w signed) (intMax w signed) t = min (max t (intMin w signed)) (intMax w signed) := by
    unfold clampInt
    omega
  have hmod (u : Int) : BitVec.ofNat w (u % 2 ^ w).toNat = BitVec.ofInt w u := by
    rw [← BitVec.setWidth_eq (BitVec.ofInt w u), ← BitVec.ofNat_toNat, BitVec.toNat_ofInt]
    push_cast
    rfl
  rw [narrow, hmod, hclamp, delivered, intMin, intMax]

section
variable {ty : Nat}

theorem tySigned_of_le_one (h : ty ≤ 1) : tySigned ty = (ty == 0) := by
  interval_cases ty <;> rfl

theorem tyWidth_of_le_one (h : ty ≤ 1) : tyWidth ty = 32 := by
  interval_cases ty <;> rfl

/-! ### Products and sums (R139-R141) -/

theorem wideProduct_of_le_one (h : ty ≤ 1) (x y : Word) :
    wideProduct ty x y = BitVec.ofInt 64 (elementValue (ty == 0) x * elementValue (ty == 0) y) := by
  rw [wideProduct, tySigned_of_le_one h, toInt_toNat (by decide), toInt_toNat (by decide)]

/-- An operation on whole registers delivers one exact result. -/
theorem elemwise_of_le_one (h : ty ≤ 1) (sat : Bool) (g : Int → Int → Int → Int) (x y c : Word) :
    elemwise ty sat g x y c
      = delivered 32 (ty == 0) sat (g (elementValue (ty == 0) x) (elementValue (ty == 0) y) (elementValue (ty == 0) c)) := by
  rw [← ofNat_narrow]
  simp [elemwise, tyWidth_of_le_one h, tySigned_of_le_one h, toInt_toNat]

end

theorem tyWidth_pos (ty : Nat) : 0 < tyWidth ty := by
  unfold tyWidth
  split_ifs <;> decide

/-- A sum that a fold gathers, as the sum of a list. -/
theorem foldl_add_eq_sum (g : Nat → Nat) (c : Nat) (l : List Nat) : l.foldl (fun r i => r + g i) c = c + (l.map g).sum := by
  induction l generalizing c with
  | nil => rfl
  | cons i l ih => rw [List.foldl_cons, ih, List.map_cons, List.sum_cons, Nat.add_assoc]

/-- ISAD of one lane: the addend and the absolute differences of the elements, modulo 2^32. -/
theorem sadLane_eq (ty : Nat) (x y c : Word) :
    sadLane ty x y c = BitVec.ofNat 32 (c.toNat + ((List.range (32 / tyWidth ty)).map fun i =>
      (elementValue (tySigned ty) (element (tyWidth ty) x i) - elementValue (tySigned ty) (element (tyWidth ty) y i)).natAbs).sum) := by
  simp only [sadLane, foldl_add_eq_sum, toInt_toNat_div (tyWidth_pos ty), element]

/-- ISAD of whole registers: one absolute difference. -/
theorem sadLane_of_le_one {ty : Nat} (h : ty ≤ 1) (x y c : Word) :
    sadLane ty x y c = BitVec.ofNat 32 (c.toNat + (elementValue (ty == 0) x - elementValue (ty == 0) y).natAbs) := by
  rw [sadLane_eq, tyWidth_of_le_one h, tySigned_of_le_one h]
  simp [element]

/-! ### Shifts (R144) -/

theorem getLsbD_shiftLeft (a n : Word) {i : Nat} (hi : i < 32) :
    (shiftLeft a n).getLsbD i = (decide (n.toNat ≤ i) && a.getLsbD (i - n.toNat)) := by
  unfold shiftLeft
  split
  next =>
    rw [BitVec.getLsbD_shiftLeft]
    simp only [hi, decide_true, Bool.true_and, ← Nat.not_lt, decide_not]
  next h => simp [show ¬ n.toNat ≤ i by omega]

theorem getLsbD_shiftRight (a n : Word) (i : Nat) :
    (shiftRight a n).getLsbD i = (decide (i + n.toNat < 32) && a.getLsbD (i + n.toNat)) := by
  have hout : ¬ i + n.toNat < 32 → a.getLsbD (i + n.toNat) = false := fun h => BitVec.getLsbD_of_ge _ _ (by omega)
  unfold shiftRight
  split
  next => by_cases h : i + n.toNat < 32 <;> simp [Nat.add_comm n.toNat, h, hout]
  next h => simp [show ¬ i + n.toNat < 32 by omega]

theorem getLsbD_shiftArith (a n : Word) {i : Nat} (hi : i < 32) :
    (shiftArith a n).getLsbD i = if i + n.toNat < 32 then a.getLsbD (i + n.toNat) else a.getLsbD 31 := by
  rw [shiftArith, BitVec.getLsbD_sshiftRight, BitVec.msb_eq_getLsbD_last]
  by_cases h : i + n.toNat < 32
  · simp [hi, h, show min n.toNat 32 = n.toNat by omega, Nat.add_comm n.toNat]
  · simp [hi, h, show ¬ min n.toNat 32 + i < 32 by omega]

theorem getLsbD_rotate (right : Bool) (a n : Word) {i : Nat} (hi : i < 32) :
    (rotate right a n).getLsbD i
      = if right = true then a.getLsbD ((i + n.toNat) % 32) else a.getLsbD ((i + 32 - n.toNat % 32) % 32) := by
  cases right with
  | true =>
    simp only [rotate, if_true, BitVec.getLsbD_rotateRight, Bool.cond_decide, hi, decide_true, Bool.true_and]
    split <;> congr 1 <;> omega
  | false =>
    simp only [rotate, Bool.false_eq_true, if_false, BitVec.getLsbD_rotateLeft, Bool.cond_decide, hi, decide_true, Bool.true_and]
    split <;> congr 1 <;> omega

theorem getLsbD_funnel (right : Bool) (a b n : Word) {i : Nat} (hi : i < 32) :
    (funnel right a b n).getLsbD i
      = if right = true then decide (i + min n.toNat 32 < 64) && (a ++ b).getLsbD (i + min n.toNat 32)
        else decide (min n.toNat 32 ≤ i + 32) && (a ++ b).getLsbD (i + 32 - min n.toNat 32) := by
  cases right with
  | true => simp [funnel, hi, Nat.add_comm i, show min n.toNat 32 + i < 64 by omega]
  | false =>
    simp only [funnel, Bool.false_eq_true, if_false, BitVec.getLsbD_extractLsb', BitVec.getLsbD_shiftLeft, Nat.add_comm i]
    simp only [hi, show 32 + i < 32 + 32 by omega, show ¬ 32 + i < min n.toNat 32 by omega, show min n.toNat 32 ≤ 32 + i by omega,
      decide_true, decide_false, Bool.not_false, Bool.true_and]

/-! ### Bit fields (R145) -/

/-- The used length m of a bit-field control. -/
def fieldUsed (c : Word) : Nat := min (fieldLen c) (32 - fieldStart c)

theorem toNat_extractLsb'_start (c : Word) : (c.extractLsb' 0 8).toNat = fieldStart c := by
  simp [fieldStart]

theorem toNat_extractLsb'_len (c : Word) : (c.extractLsb' 8 8).toNat = fieldLen c := by
  simp [fieldLen, Nat.shiftRight_eq_div_pow]

/-- An empty field: a length of 0 or a start above 31. -/
theorem fieldUsed_eq_zero_iff (c : Word) : fieldUsed c = 0 ↔ fieldLen c = 0 ∨ fieldStart c ≥ 32 := by
  unfold fieldUsed
  omega

theorem fieldExtract_eq (signed : Bool) (a c : Word) :
    fieldExtract signed a c = if fieldUsed c = 0 then 0#32
      else BitVec.ofInt 32 (toInt (fieldUsed c) signed (a.toNat / 2 ^ fieldStart c)) := by
  simp only [fieldUsed_eq_zero_iff]
  rfl

theorem fieldInsert_eq (a b c : Word) :
    fieldInsert a b c = if fieldUsed c = 0 then b
      else (b &&& ~~~BitVec.ofNat 32 ((2 ^ fieldUsed c - 1) * 2 ^ fieldStart c))
        ||| ((a <<< fieldStart c) &&& BitVec.ofNat 32 ((2 ^ fieldUsed c - 1) * 2 ^ fieldStart c)) := by
  simp only [fieldUsed_eq_zero_iff]
  rfl

/-- The bits of m bits taken as an integer into 32. -/
theorem getLsbD_ofInt_elementValue {m : Nat} (signed : Bool) (y : BitVec m) {i : Nat} (hi : i < 32) :
    (BitVec.ofInt 32 (elementValue signed y)).getLsbD i = if i < m then y.getLsbD i else signed && y.getLsbD (m - 1) := by
  cases signed with
  | true =>
    rw [elementValue, if_pos rfl, ← BitVec.signExtend, BitVec.getLsbD_signExtend, BitVec.msb_eq_getLsbD_last]
    simp [hi]
  | false =>
    rw [elementValue, if_neg (by decide), BitVec.ofInt_natCast, BitVec.ofNat_toNat, BitVec.getLsbD_setWidth]
    by_cases h : i < m
    · simp [hi, h]
    · simp [h, BitVec.getLsbD_of_ge y i (by omega)]

theorem getLsbD_fieldExtract (signed : Bool) (a c : Word) {i : Nat} (hi : i < 32) :
    (fieldExtract signed a c).getLsbD i = if fieldUsed c = 0 then false
      else if i < fieldUsed c then a.getLsbD (fieldStart c + i) else signed && a.getLsbD (fieldStart c + fieldUsed c - 1) := by
  rw [fieldExtract_eq]
  split
  next => simp
  next h =>
    have hm : 0 < fieldUsed c := Nat.pos_of_ne_zero h
    rw [toInt_toNat_div hm, getLsbD_ofInt_elementValue signed _ hi]
    simp only [BitVec.getLsbD_extractLsb', show fieldUsed c - 1 < fieldUsed c by omega, Nat.add_sub_assoc hm, decide_true,
      Bool.true_and]
    split <;> simp [*]

/-- The hole that BFI fills: m bits from s. -/
theorem getLsbD_hole (m s : Nat) {i : Nat} (hi : i < 32) :
    (BitVec.ofNat 32 ((2 ^ m - 1) * 2 ^ s)).getLsbD i = decide (s ≤ i ∧ i < s + m) := by
  simp only [BitVec.getLsbD_ofNat, hi, Nat.testBit_mul_two_pow, Nat.testBit_two_pow_sub_one, decide_true, Bool.true_and,
    ← Bool.decide_and]
  congr 1
  apply propext
  omega

theorem getLsbD_fieldInsert (a b c : Word) {i : Nat} (hi : i < 32) :
    (fieldInsert a b c).getLsbD i
      = if fieldStart c ≤ i ∧ i < fieldStart c + fieldUsed c then a.getLsbD (i - fieldStart c) else b.getLsbD i := by
  rw [fieldInsert_eq]
  split
  next h => rw [if_neg (by omega)]
  next =>
    simp only [BitVec.getLsbD_or, BitVec.getLsbD_and, BitVec.getLsbD_not, BitVec.getLsbD_shiftLeft, getLsbD_hole _ _ hi]
    by_cases h : fieldStart c ≤ i ∧ i < fieldStart c + fieldUsed c <;> simp [hi, h]

/-! ### Counts (R146) -/

/-- POPC: the count fits its 32 bits. -/
theorem toNat_popCount (a : Word) : (BitVec.ofNat 32 (popCount a)).toNat = ((List.range 32).filter fun i => a.getLsbD i).length := by
  have hle : popCount a ≤ 32 := by simpa [popCount] using List.length_filter_le (fun i => a.getLsbD i) (List.range 32)
  rw [BitVec.toNat_ofNat, Nat.mod_eq_of_lt (by omega), popCount]

/-- CLZ of a word that is not zero: its highest bit, and none above. -/
theorem leadZeros_of_ne_zero {a : Word} (h : a ≠ 0#32) :
    leadZeros a < 32 ∧ a.getLsbD (31 - leadZeros a) = true ∧ ∀ j, 31 - leadZeros a < j → a.getLsbD j = false := by
  have hne : a.toNat ≠ 0 := fun e => h (BitVec.eq_of_toNat_eq e)
  have hlog : a.toNat.log2 < 32 := (Nat.log2_lt hne).2 a.isLt
  have hplace : 31 - leadZeros a = a.toNat.log2 := by
    rw [leadZeros, if_neg h]
    omega
  refine ⟨by rw [leadZeros, if_neg h]; omega, ?_, fun j hj => ?_⟩
  · rw [hplace, ← BitVec.testBit_toNat]
    exact Nat.testBit_log2 hne
  · rw [hplace] at hj
    rw [← BitVec.testBit_toNat]
    exact Nat.testBit_lt_two_pow ((Nat.log2_lt hne).1 hj)

/-- CTZ of a word that is not zero: its lowest bit, and none below. -/
theorem trailZeros_of_ne_zero {a : Word} (h : a ≠ 0#32) :
    trailZeros a < 32 ∧ a.getLsbD (trailZeros a) = true ∧ ∀ j, j < trailZeros a → a.getLsbD j = false := by
  unfold trailZeros
  cases hfind : (List.range 32).find? fun i => a.getLsbD i with
  | none =>
    refine absurd (BitVec.eq_of_getLsbD_eq fun i hi => ?_) h
    simpa using List.find?_eq_none.1 hfind i (List.mem_range.2 hi)
  | some n =>
    obtain ⟨hbit, hmem, hbelow⟩ := List.find?_range_eq_some.1 hfind
    exact ⟨List.mem_range.1 hmem, hbit, fun j hj => by simpa using hbelow j hj⟩

theorem getLsbD_bitReverse (a : Word) {i : Nat} (hi : i < 32) : (bitReverse a).getLsbD i = a.getLsbD (31 - i) := by
  rw [bitReverse, BitVec.getLsbD_reverse, BitVec.getMsbD_eq_getLsbD]
  simp [hi]

/-! ### Comparisons and addresses (R147, R149) -/

theorem boolWord_eq_one_or_zero (b : Bool) : boolWord b = 1#32 ∨ boolWord b = 0#32 := by cases b <;> simp [boolWord]

theorem eq_one_iff_of_eq_boolWord {w : Word} {b : Bool} (h : w = boolWord b) : w = 1#32 ↔ b = true := by
  cases b <;> simp [h, boolWord]

theorem relation_iff {cc : Nat} (h : cc ≤ 5) (x y : Int) :
    relation cc x y = true ↔ (cc = 0 ∧ x = y) ∨ (cc = 1 ∧ x ≠ y) ∨ (cc = 2 ∧ x < y) ∨ (cc = 3 ∧ x ≤ y) ∨ (cc = 4 ∧ y < x)
      ∨ (cc = 5 ∧ y ≤ x) := by
  interval_cases cc <;> simp [relation]

/-- LEA's address is the exact sum modulo 2^64. -/
theorem leaValue_eq (ty k : Nat) (base : DWord) (ix off : Word) :
    leaValue ty k base ix off
      = BitVec.ofInt 64 (base.toNat + (if ty = 0 then ix.toInt else ix.toNat) * 2 ^ k + off.toInt) := by
  have hscale (x : DWord) : x <<< k = x * BitVec.ofInt 64 (2 ^ k) := by
    have hpow : BitVec.twoPow 64 k = BitVec.ofInt 64 ((2 ^ k : Nat) : Int) := by
      rw [BitVec.ofInt_natCast]
      exact BitVec.eq_of_toNat_eq (BitVec.toNat_twoPow 64 k)
    rw [BitVec.shiftLeft_eq_mul_twoPow, hpow, Nat.cast_pow, Nat.cast_ofNat]
  have hindex : (if ty = 0 then ix.signExtend 64 else ix.setWidth 64)
      = BitVec.ofInt 64 (if ty = 0 then ix.toInt else ix.toNat) := by
    split
    · rfl
    · rw [BitVec.ofInt_natCast, BitVec.ofNat_toNat]
  rw [leaValue, hscale, hindex, BitVec.ofInt_add, BitVec.ofInt_add, BitVec.ofInt_mul, BitVec.ofInt_natCast, BitVec.ofNat_toNat,
    BitVec.setWidth_eq, BitVec.signExtend]

end Sys2Proof.Machine

open Sys2Proof Sys2Proof.Machine

/-- Settles O21: each word is one fixed-latency result of its sources, whose value is the exact product or sum, delivered in the
result's bits. -/
theorem productsAndSums : Obligations.ProductsAndSums := by
  intro s v f ls fl val e
  refine ⟨fun hty h => ?imulh, fun hty h => ?imulw, fun hty h => ?imad, fun hty h => ?isad⟩
  case imulh =>
    obtain ⟨r, hexec, hr⟩ := execFixed_outLanes_of_reads h 5 (tyTag f.ty)
      fun ls l => (wideProduct f.ty (src ls 0 l) (src ls 1 l)).extractLsb' 32 32
    exact ⟨r, hexec, fun l => by rw [hr, wideProduct_of_le_one hty]⟩
  case imulw =>
    obtain ⟨lo, hi, hexec, hr⟩ := execFixed_outPair_of_reads h 5 tagI64L tagI64H
      fun ls l => wideProduct f.ty (src ls 0 l) (src ls 1 l)
    exact ⟨lo, hi, hexec, fun l => by rw [hr, wideProduct_of_le_one hty]⟩
  case imad =>
    obtain ⟨r, hexec, hr⟩ := execFixed_outLanes_of_reads h 5 (tyTag f.ty)
      fun ls l => elemwise f.ty f.sat (fun x y c => x * y + c) (src ls 0 l) (src ls 1 l) (src ls 2 l)
    exact ⟨r, hexec, fun l => by rw [hr, elemwise_of_le_one hty]⟩
  case isad =>
    obtain ⟨r, hexec, hr⟩ := execFixed_outLanes_of_reads h 4 tagN32
      fun ls l => sadLane f.ty (src ls 0 l) (src ls 1 l) (src ls 2 l)
    refine ⟨r, hexec, fun hle l => ?_, fun hten l => ?_, fun hnine l => ?_⟩
    · rw [hr, sadLane_of_le_one hle]
    · rw [hr, sadLane_eq, hten]
      rfl
    · rw [hr, sadLane_eq, hnine]
      rfl

/-- Settles O23: each word is one fixed-latency result of its sources, given by the bits of its shift. -/
theorem shifts : Obligations.Shifts := by
  intro s v f ls fl one a n
  refine ⟨fun h => ?shl, fun h => ?shr, fun h => ?sra, fun h => ?rot, fun h => ?shf⟩
  case shl =>
    obtain ⟨r, hexec, hr⟩ := execCount_of_reads h (tyTag f.ty) shiftLeft
    exact ⟨r, hexec, fun l i hi => by rw [hr, getLsbD_shiftLeft _ _ hi]⟩
  case shr =>
    obtain ⟨r, hexec, hr⟩ := execCount_of_reads h (tyTag f.ty) shiftRight
    exact ⟨r, hexec, fun l i _ => by rw [hr, getLsbD_shiftRight]⟩
  case sra =>
    obtain ⟨r, hexec, hr⟩ := execCount_of_reads h tagS32 shiftArith
    exact ⟨r, hexec, fun l i hi => by rw [hr, getLsbD_shiftArith _ _ hi]⟩
  case rot =>
    obtain ⟨r, hexec, hr⟩ := execCount_of_reads h tagN32 (rotate (f.var3 == 1))
    exact ⟨r, hexec, fun l i hi => by rw [hr, getLsbD_rotate _ _ _ hi]; simp only [beq_iff_eq, a, n]⟩
  case shf =>
    obtain ⟨r, hexec, hr⟩ := execFixed_outLanes_of_reads h 4 tagN32
      fun ls l => funnel (f.var3 == 1) (src ls 0 l) (src ls 1 l) (src ls 2 l)
    refine ⟨r, hexec, fun l i hi => ?_⟩
    rw [hr, getLsbD_funnel _ _ _ _ hi]
    simp only [beq_iff_eq, BitVec.getLsbD_append]

/-- Settles O24: each word is one fixed-latency result of its sources, given by the bits of its field, its count or its reversal. -/
theorem bitFieldsAndCounts : Obligations.BitFieldsAndCounts := by
  intro s v f ls fl one st m a
  have hst (c : Word) : st c = fieldStart c := toNat_extractLsb'_start c
  have hm (c : Word) : m c = fieldUsed c := by simp only [m, hst, toNat_extractLsb'_len, fieldUsed]
  refine ⟨fun h => ?bfx, fun h => ?bfi, fun h => ?popc, fun h => ?clz, fun h => ?ctz, fun h => ?brev⟩
  case bfx =>
    obtain ⟨r, hexec, hr⟩ := execCount_of_reads h (tyTag f.ty) (fieldExtract (tySigned f.ty))
    exact ⟨r, hexec, fun l i hi => by simp only [hst, hm, hr, getLsbD_fieldExtract _ _ _ hi, a]⟩
  case bfi =>
    obtain ⟨r, hexec, hr⟩ := execFixed_outLanes_of_reads h 4 tagN32
      fun ls l => fieldInsert (src ls 0 l) (src ls 1 l) (src ls 2 l)
    exact ⟨r, hexec, fun l i hi => by simp only [hst, hm, hr, getLsbD_fieldInsert _ _ _ hi, a]⟩
  case popc =>
    obtain ⟨r, hexec, hr⟩ := execUnary_of_reads h tagN32 fun a => BitVec.ofNat 32 (popCount a)
    exact ⟨r, hexec, fun l => by rw [hr, toNat_popCount]⟩
  case clz =>
    obtain ⟨r, hexec, hr⟩ := execUnary_of_reads h tagN32 fun a => BitVec.ofNat 32 (leadZeros a)
    refine ⟨r, hexec, fun l => ⟨fun hzero => ?_, fun hne => ?_⟩⟩
    · rw [hr, leadZeros, if_pos hzero]
    · have hcount := leadZeros_of_ne_zero (a := src ls 0 l) hne
      rwa [hr, BitVec.toNat_ofNat, Nat.mod_eq_of_lt (by omega)]
  case ctz =>
    obtain ⟨r, hexec, hr⟩ := execUnary_of_reads h tagN32 fun a => BitVec.ofNat 32 (trailZeros a)
    refine ⟨r, hexec, fun l => ⟨fun hzero => ?_, fun hne => ?_⟩⟩
    · rw [hr, show src ls 0 l = 0#32 from hzero]
      decide
    · have hcount := trailZeros_of_ne_zero (a := src ls 0 l) hne
      rwa [hr, BitVec.toNat_ofNat, Nat.mod_eq_of_lt (by omega)]
  case brev =>
    obtain ⟨r, hexec, hr⟩ := execUnary_of_reads h tagN32 bitReverse
    exact ⟨r, hexec, fun l i hi => by rw [hr, getLsbD_bitReverse _ hi]⟩

/-- Settles O25: ICMP is the relation of the two integers that its TY reads, and LEA the exact sum modulo 2^64. -/
theorem comparesAndAddresses : Obligations.ComparesAndAddresses := by
  intro s v f ls fl holds
  refine ⟨fun hty hcc h => ?icmp, fun hty h => ?lea⟩
  case icmp =>
    obtain ⟨r, hexec, hr⟩ := execFixed_outLanes_of_reads h 4 tagPred fun ls l =>
      boolWord (if tyWide f.ty
        then relation f.cc (toInt 64 (tySigned f.ty) (src64 ls 0 l).toNat) (toInt 64 (tySigned f.ty) (src64 ls 2 l).toNat)
        else relation f.cc (toInt 32 (tySigned f.ty) (src ls 0 l).toNat) (toInt 32 (tySigned f.ty) (src ls 1 l).toNat))
    simp only [toInt_toNat (w := 64) (by decide), toInt_toNat (w := 32) (by decide)] at hr
    refine ⟨r, hexec, fun l => ⟨hr l ▸ boolWord_eq_one_or_zero _, fun hs32 => ?_, fun hn32 => ?_, fun hs64 => ?_, fun hn64 => ?_⟩⟩
    · rw [eq_one_iff_of_eq_boolWord (hr l), hs32]
      exact relation_iff hcc _ _
    · rw [eq_one_iff_of_eq_boolWord (hr l), hn32]
      exact relation_iff hcc _ _
    · rw [eq_one_iff_of_eq_boolWord (hr l), hs64]
      exact relation_iff hcc _ _
    · rw [eq_one_iff_of_eq_boolWord (hr l), hn64]
      exact relation_iff hcc _ _
  case lea =>
    obtain ⟨lo, hi, hexec, hr⟩ := execFixed_outPair_of_reads h 4 tagA64L tagA64H
      fun ls l => leaValue f.ty f.var3 (src64 ls 0 l) (src ls 2 l) (src ls 3 l)
    exact ⟨lo, hi, hexec, fun l => by rw [hr, leaValue_eq]⟩
end

section
/-!
Moves and votes between lanes (O36): the lanes of a mask, one by one (R126); the source lane of SHFL and BCST (R194, R195); the votes
of the active lanes (R196); and the active lanes with the same value (R197).
-/

namespace Sys2Proof.Machine

/-! ### A result that depends on the group -/

/-- One result, lane by lane, of a word whose sources read, where the tag and the lanes also depend on the view and the active set. -/
theorem execFixed_outLanes_of_reads_view {s : State} {v : View} {i : Instr} {f : Fields} {srcs : List Src} {ls : List Lanes} {fl : Word}
    (h : Reads s v i f srcs ls fl) (n : Nat) (t : View → Tag) (g : View → Mask → List Lanes → Fin 32 → Word) :
    ∃ r, execFixed i f n srcs (fun v act ls => outLanes f.d act (t v) (g v act ls)) s
        = .next (s.commitFixed v i f.signal n ⟨[(f.d, v.active f.guard, ⟨t v, r⟩)], fl⟩)
      ∧ ∀ l, lane r l = g v (v.active f.guard) ls l := by
  refine ⟨lanesOf (g v (v.active f.guard) ls), ?_, fun l => lane_lanesOf ..⟩
  rw [execFixed, h.withSources]
  simp [outLanes]

/-! ### The lanes of a mask (R126) -/

theorem mask_eq_iff (a b : Mask) : a = b ↔ ∀ l : Fin 32, a.getLsbD l = b.getLsbD l :=
  ⟨fun h _ => h ▸ rfl, fun h => BitVec.eq_of_getLsbD_eq fun i hi => h ⟨i, hi⟩⟩

/-- Lane l after the lanes of a list that pass a test are set one after another. -/
theorem getLsbD_foldl_setLane (p : Fin 32 → Bool) (l : Fin 32) (ks : List (Fin 32)) (m : Mask) :
    (ks.foldl (fun m k => if p k then m ||| (1#32 <<< k.val) else m) m).getLsbD l = true
      ↔ m.getLsbD l = true ∨ l ∈ ks ∧ p l = true := by
  induction ks generalizing m with
  | nil => simp
  | cons k ks ih =>
    have hbit : (1#32 <<< k.val).getLsbD l = true ↔ l = k := by
      rw [← BitVec.twoPow_eq, BitVec.getLsbD_twoPow]
      simp [Fin.ext_iff, eq_comm]
    rw [List.foldl_cons, ih, List.mem_cons]
    by_cases hk : p k = true
    · rw [if_pos hk, BitVec.getLsbD_or, Bool.or_eq_true, hbit]
      grind
    · rw [if_neg hk]
      grind

theorem getLsbD_maskOf (p : Fin 32 → Bool) (l : Fin 32) : (maskOf p).getLsbD l = p l := by
  rw [Bool.eq_iff_iff, maskOf, getLsbD_foldl_setLane]
  simp [allLanes]

theorem maskOf_eq_zero_iff (p : Fin 32 → Bool) : maskOf p = 0#32 ↔ ∀ l, ¬ p l = true := by
  simp only [mask_eq_iff, getLsbD_maskOf, BitVec.getLsbD_zero, Bool.not_eq_true]

/-- The lanes of a mask that pass a test are all of them when each passes. -/
theorem maskOf_inMask_and_eq_iff (m : Mask) (p : Fin 32 → Bool) :
    (maskOf fun l => inMask m l && p l) = m ↔ ∀ l : Fin 32, m.getLsbD l = true → p l = true := by
  simp only [mask_eq_iff, getLsbD_maskOf, inMask, Bool.and_eq_left_iff_imp]

/-! ### Source lanes (R194, R195) -/

@[simp] theorem val_laneNum (n : Nat) : (laneNum n).val = n % 32 := rfl

theorem shflLane_lt (mode : Nat) (l : Fin 32) (n : Nat) : shflLane mode l n < 32 := by
  unfold shflLane
  split
  · omega
  · split <;> omega
  · split <;> omega
  · exact Nat.xor_lt_two_pow (n := 5) l.isLt (Nat.mod_lt n (by decide))

theorem val_laneNum_shflLane (mode : Nat) (l : Fin 32) (n : Nat) : (laneNum (shflLane mode l n)).val = shflLane mode l n := by
  rw [val_laneNum, Nat.mod_eq_of_lt (shflLane_lt mode l n)]

section
variable {s : State} {v : View} {f : Fields} {ls : List Lanes} {fl : Word}

theorem exec_shfl_of_reads (h : Reads s v (.shfl f) f (selSrcs f) ls fl) :
    ∃ r, exec (.shfl f) s = .next (s.commitFixed v (.shfl f) f.signal 6 ⟨[(f.d, v.active f.guard, ⟨(v.reg f.a).tag, r⟩)], fl⟩)
      ∧ ∀ l, lane r l = src ls 0 (laneNum (shflLane f.sub.toNat l.val (src ls 1 l).toNat)) :=
  execFixed_outLanes_of_reads_view h 6 (fun v => (v.reg f.a).tag)
    fun _ _ ls l => src ls 0 (laneNum (shflLane f.sub.toNat l.val (src ls 1 l).toNat))

theorem exec_bcst_of_reads (h : Reads s v (.bcst f) f (selSrcs f) ls fl) :
    ∃ r, exec (.bcst f) s = .next (s.commitFixed v (.bcst f) f.signal 6 ⟨[(f.d, v.active f.guard, ⟨(v.reg f.a).tag, r⟩)], fl⟩)
      ∧ ∀ l, lane r l = src ls 0 (laneNum (src ls 1 v.leader).toNat) :=
  execFixed_outLanes_of_reads_view h 6 (fun v => (v.reg f.a).tag) fun v _ ls _ => src ls 0 (laneNum (src ls 1 v.leader).toNat)

/-! ### Votes (R196) -/

/-- The active lanes whose predicate is nonzero. -/
def voters (act : Mask) (ls : List Lanes) : Mask := maskOf fun l => inMask act l && src ls 0 l != 0#32

theorem getLsbD_voters (act : Mask) (ls : List Lanes) (l : Fin 32) :
    (voters act ls).getLsbD l = true ↔ act.getLsbD l = true ∧ src ls 0 l ≠ 0#32 := by
  simp only [voters, getLsbD_maskOf, inMask, Bool.and_eq_true, bne_iff_ne]

theorem voters_eq_act_iff (act : Mask) (ls : List Lanes) :
    voters act ls = act ↔ ∀ l : Fin 32, act.getLsbD l = true → src ls 0 l ≠ 0#32 := by
  simp [voters, maskOf_inMask_and_eq_iff]

theorem voters_eq_zero_iff (act : Mask) (ls : List Lanes) :
    voters act ls = 0#32 ↔ ∀ l : Fin 32, ¬ (act.getLsbD l = true ∧ src ls 0 l ≠ 0#32) := by
  simp [voters, maskOf_eq_zero_iff, inMask]

theorem exec_vote_of_reads (h : Reads s v (.vote f) f (regSrcs f.a [.tag tagPred]) ls fl) :
    ∃ r, exec (.vote f) s = .next (s.commitFixed v (.vote f) f.signal 6
        ⟨[(f.d, v.active f.guard, ⟨if f.sub = 2#8 then tagN32 else tagPred, r⟩)], fl⟩)
      ∧ ∀ l, lane r l = voteValue f.sub.toNat (voters (v.active f.guard) ls) (v.active f.guard) :=
  execFixed_outLanes_of_reads_view h 6 (fun _ => if f.sub = 2#8 then tagN32 else tagPred)
    fun _ act ls _ => voteValue f.sub.toNat (voters act ls) act

/-- Every mode but the ballot gives 0 or 1. -/
theorem voteValue_eq_zero_or_one {mode : Nat} (h : mode ≠ 2) (yes act : Mask) :
    voteValue mode yes act = 0#32 ∨ voteValue mode yes act = 1#32 := by
  unfold voteValue
  split
  case h_3 => contradiction
  all_goals exact (boolWord_eq_one_or_zero _).symm

/-! ### Matches (R197) -/

theorem getLsbD_equalLanes (a : Lanes) (act : Mask) (l j : Fin 32) :
    (equalLanes a act l).getLsbD j = true ↔ act.getLsbD j = true ∧ lane a j = lane a l := by
  simp only [equalLanes, getLsbD_maskOf, inMask, Bool.and_eq_true, beq_iff_eq]

theorem equalLanes_eq_act_iff (a : Lanes) (act : Mask) (l : Fin 32) :
    equalLanes a act l = act ↔ ∀ j : Fin 32, act.getLsbD j = true → lane a j = lane a l := by
  simp [equalLanes, maskOf_inMask_and_eq_iff]

/-- What MATCH gives lane l, by its SUB. -/
def matchValue (sub : BitVec 8) (a : Lanes) (act : Mask) (l : Fin 32) : Mask :=
  if sub = 0#8 then equalLanes a act l else if equalLanes a act l = act then act else 0#32

/-- .any: the active lanes with the value of lane l. -/
theorem getLsbD_matchValue_any (a : Lanes) (act : Mask) (l j : Fin 32) :
    (matchValue 0#8 a act l).getLsbD j = true ↔ act.getLsbD j = true ∧ lane a j = lane a l := by
  rw [matchValue, if_pos rfl, getLsbD_equalLanes]

/-- .all: the active lanes when all have the value of lane l, and else none. -/
theorem matchValue_all (a : Lanes) (act : Mask) (l : Fin 32) :
    matchValue 1#8 a act l = if ∀ j : Fin 32, act.getLsbD j = true → lane a j = lane a l then act else 0#32 := by
  rw [matchValue, if_neg (by decide)]
  exact if_congr (equalLanes_eq_act_iff a act l) rfl rfl

theorem exec_matchLanes_of_reads (h : Reads s v (.matchLanes f) f (regSrcs f.a [.tag tagN32]) ls fl) :
    ∃ r, exec (.matchLanes f) s = .next (s.commitFixed v (.matchLanes f) f.signal 6 ⟨[(f.d, v.active f.guard, ⟨tagN32, r⟩)], fl⟩)
      ∧ ∀ l, lane r l = matchValue f.sub (ls.getD 0 (lanesAll 0#32)) (v.active f.guard) l :=
  execFixed_outLanes_of_reads_view h 6 (fun _ => tagN32) fun _ act ls l => matchValue f.sub (ls.getD 0 (lanesAll 0#32)) act l

end

end Sys2Proof.Machine

open Sys2Proof Sys2Proof.Machine

/-- Settles O36: each word is one fixed-latency result of its sources, given by the source lane of its mode (SHFL, BCST), by the set of
active lanes that vote against the active lanes (VOTE), or by the set of active lanes with the lane's own value (MATCH). -/
theorem laneMovesAndVotes : Obligations.LaneMovesAndVotes := by
  intro s v f ls fl _ act one votes all none
  refine ⟨fun h => ?shfl, fun h => ?bcst, fun h => ?vote, fun h _ => ?matchLanes⟩
  case shfl =>
    obtain ⟨r, hexec, hr⟩ := exec_shfl_of_reads h
    refine ⟨r, hexec, fun l => ?_⟩
    have hfrom : ∃ k : Fin 32, k.val = shflLane f.sub.toNat l.val (src ls 1 l).toNat ∧ lane r l = src ls 0 k :=
      ⟨_, val_laneNum_shflLane .., hr l⟩
    refine ⟨fun hsub => ?idx, fun hsub => ?up, fun hsub => ?down, fun hsub => ?xor⟩
    all_goals
      rw [hsub] at hfrom
      exact hfrom
  case bcst =>
    obtain ⟨r, hexec, hr⟩ := exec_bcst_of_reads h
    exact ⟨r, hexec, fun l => ⟨_, val_laneNum _, hr l⟩⟩
  case vote =>
    obtain ⟨r, hexec, hr⟩ := exec_vote_of_reads h
    have hall : voters act ls = act ↔ all := voters_eq_act_iff act ls
    have hnone : voters act ls = 0#32 ↔ none := voters_eq_zero_iff act ls
    refine ⟨r, hexec, fun l => ⟨fun hsub => ?_, fun hsub => ?any, fun hsub => ?all, fun hsub => ?uni, fun hsub j => ?ballot⟩⟩
    · rw [hr]
      exact voteValue_eq_zero_or_one (fun h => hsub (BitVec.eq_of_toNat_eq h)) _ _
    all_goals
      have hl := hr l
      rw [hsub] at hl
    case any => rw [eq_one_iff_of_eq_boolWord hl, bne_iff_ne, Ne, hnone]
    case all => rw [eq_one_iff_of_eq_boolWord hl, beq_iff_eq, hall]
    case uni => rw [eq_one_iff_of_eq_boolWord hl, Bool.or_eq_true, beq_iff_eq, beq_iff_eq, hall, hnone]
    case ballot =>
      rw [show lane r l = voters act ls from hl]
      exact getLsbD_voters act ls j
  case matchLanes =>
    obtain ⟨r, hexec, hr⟩ := exec_matchLanes_of_reads h
    refine ⟨r, hexec, fun l => ⟨fun hsub j => ?any, fun hsub => ?all⟩⟩
    case any =>
      rw [hr, hsub]
      exact getLsbD_matchValue_any _ act l j
    case all =>
      rw [hr, hsub]
      exact matchValue_all _ act l
end
